-- ==== Sys2Proof/Word.lean ====
section
/-! DEFINITION. Words, bytes and bit fields: the plainest arithmetic the model uses. -/

namespace Sys2Proof

abbrev Byte := BitVec 8
abbrev Word := BitVec 32
abbrev DWord := BitVec 64
/-- A vector register: 512 bits (R39). -/
abbrev VWord := BitVec 512

/-- Bits [hi:lo] of a number, both ends included (R7). -/
def bits (w hi lo : Nat) : Nat := (w >>> lo) % 2 ^ (hi + 1 - lo)

/-- Bit `i` of a number. -/
def bit (w i : Nat) : Bool := w.testBit i

/-- The number whose field [hi:lo] is `v` (truncated to the field) and whose other bits are those of `w`. -/
def putBits (w hi lo v : Nat) : Nat :=
  let m := 2 ^ (hi + 1 - lo)
  w - ((w >>> lo) % m) <<< lo + (v % m) <<< lo

/-- Two's complement value of the low `n` bits of `w`. -/
def sext (n w : Nat) : Int :=
  let v := w % 2 ^ n
  if 2 * v < 2 ^ n then (v : Int) else (v : Int) - (2 ^ n : Nat)

/-- An integer wrapped to `n` bits. -/
def wrap (n : Nat) (i : Int) : Nat := (i % ((2 ^ n : Nat) : Int)).toNat

/-- Ceiling of a division (0 for a zero divisor). -/
def ceilDiv (a b : Nat) : Nat := if b = 0 then 0 else (a + b - 1) / b

/-- Little-endian number of a list of bytes (R6). -/
def leNat : List Nat → Nat
  | [] => 0
  | b :: bs => b % 256 + 256 * leNat bs

/-- The `n` little-endian bytes of a number (R6). -/
def leBytes : Nat → Nat → List Nat
  | 0, _ => []
  | n + 1, w => w % 256 :: leBytes n (w / 256)

end Sys2Proof
end

