-- ==== Sys2Proof/Machine/Crc.lean ====
section
/-! DEFINITION. Cyclic redundancy checks, most significant bit first: the one operation behind the CRC-8 of an adit frame
(R460), the CRC-16 of a mesh flit (R322) and the CRC-32 of a seam frame (R384). -/

namespace Sys2Proof.Machine

/-- One bit enters a register of `n` bits. -/
def crcStep (n poly c : Nat) (b : Bool) : Nat :=
  let t := c * 2 % 2 ^ n
  if c.testBit (n - 1) != b then t ^^^ poly else t
/-- The register after a list of bits. Looking at the register before each of them is all that the two last arms are for:
the value stays a number, and long lists can be evaluated. -/
def crcBits (n poly : Nat) : Nat → List Bool → Nat
  | c, [] => c
  | 0, b :: bs => crcBits n poly (crcStep n poly 0 b) bs
  | c + 1, b :: bs => crcBits n poly (crcStep n poly (c + 1) b) bs
/-- Each bit is one step. -/
theorem crcBits_cons (n poly c : Nat) (b : Bool) (bs : List Bool) :
    crcBits n poly c (b :: bs) = crcBits n poly (crcStep n poly c b) bs := by cases c <;> rfl

/-- Bits [hi:lo] of a number, the most significant first. -/
def bitsDown (w hi lo : Nat) : List Bool := (List.range (hi + 1 - lo)).map fun i => bit w (hi - i)

end Sys2Proof.Machine
end

