-- ==== Sys2Proof/Config.lean ====
section
/-! DEFINITION. What an implementation fixes and the values the spec leaves open. Every open value is a constant with
no body, so that no proof can see it: a statement that holds here holds whatever the value is. -/

namespace Sys2Proof

/-- Whether underflow looks for a tiny result after rounding (IEEE 754 leaves it to the implementation; R186). -/
opaque Config.tininessAfterRounding : Bool
/-- Whether the E5M2 NaN of mantissa 0b01 signals (the OCP type does not say; R68, R186). -/
opaque Config.e5m2SignalingNaN : Bool
/-- Open bits of a NaN that an operation makes in a format of the given element width from the given operand bits
(R68 and R186 name IEEE 754, which leaves the payload open; R90 fixes quietness and sign only). -/
opaque Config.nanPayload : Nat → List Nat → Nat
/-- Open sign of a NaN that an operation makes (R186; R90 fixes it for conversions only). -/
opaque Config.nanSign : Nat → List Nat → Bool
/-- Which of two operands that compare equal but differ in bits (+0 and −0) a minimum (`false`) or maximum (`true`)
returns: true for the first (R186 names IEEE 754, which leaves it open). -/
opaque Config.zeroPick : Bool → Nat → Nat → Bool
/-- Whether a fused multiply-add of infinity, zero and a quiet NaN sets invalid (IEEE 754 leaves it open; R186). -/
opaque Config.fmaZeroInfNaNInvalid : Bool
/-- Which of the 64 lines of a full instruction buffer an arriving line replaces (R39 gives the capacity, no rule the
choice). -/
opaque Config.ibufVictim : Nat → Fin 64
/-- The FCSR flags an infinity raises on conversion into E4M3 or an MX element, which have none (R90 gives the value
taken and no flag). -/
opaque Config.infToFiniteFlags : BitVec 6

/-- By how many entries, modulo 4, a level seen in asynchronous mode falls short at one moment (R244). -/
opaque Config.chuteLag : Nat → Nat
/-- The info and info2 words of an ERRLOG entry, which R478 calls code-specific and no code's table gives. -/
opaque Config.errInfo : Nat → Nat
opaque Config.errInfo2 : Nat → Nat
/-- A value that a rule leaves undefined or does not state, where no constant of its own stands for it: drawn at the
state's counter and numbered among the values drawn there. -/
opaque Config.freeValue : Nat → Nat → Nat
/-- Bytes of a private key, by the device secret, the sealed key and the place: R512 names no way of sealing. -/
opaque Config.unseal : List Nat → List Nat → Nat → Nat
/-- Whether the entry of a row above SPMV.FAIL_ROW was issued before the failure (R167). -/
opaque Config.spmvIssued : Nat → Nat → Bool

/-- The field of a core endpoint of another chip, none where the directory resolves it to no core (R270): this engine holds no
map of another chip. -/
opaque Config.remoteField : Nat → Option Nat

/-- Dreold's PCI-SIG vendor ID, and the revision byte beside the class code of a host port's function (R401 names neither's
value). -/
opaque Config.pciVendor : BitVec 16
opaque Config.pciRevision : BitVec 8

/-- Offset in foreman memory at which the adit loads the foreman's firmware (R465 gives none). -/
opaque Config.foremanImageAt : Nat

end Sys2Proof
end

