-- ==== Sys2Proof/Machine/Formats.lean ====
section
/-! DEFINITION. Number formats of *Number Formats*: exact values, decoding of every scalar format (R65 to R71),
and the one rounding function per target (R90, R91) that every unit of the engine uses. -/

namespace Sys2Proof

/-- An exact dyadic value m · 2^e. -/
structure Dy where
  m : Int
  e : Int
deriving DecidableEq, Repr

namespace Dy

def zero : Dy := ⟨0, 0⟩
def ofInt (i : Int) : Dy := ⟨i, 0⟩
def neg (a : Dy) : Dy := ⟨-a.m, a.e⟩
def mul (a b : Dy) : Dy := ⟨a.m * b.m, a.e + b.e⟩
/-- The mantissa of `a` on the exponent `e`, for `e` not above a's own. -/
def on (a : Dy) (e : Int) : Int := a.m * (2 ^ (a.e - e).toNat : Nat)
def add (a b : Dy) : Dy :=
  let e := min a.e b.e
  ⟨a.on e + b.on e, e⟩
def sub (a b : Dy) : Dy := a.add b.neg
def abs (a : Dy) : Dy := ⟨a.m.natAbs, a.e⟩
def isZero (a : Dy) : Bool := a.m == 0
def lt (a b : Dy) : Bool := (a.sub b).m < 0
def le (a b : Dy) : Bool := (a.sub b).m ≤ 0
def eqv (a b : Dy) : Bool := (a.sub b).m == 0
def sum (l : List Dy) : Dy := l.foldl add zero
/-- Multiplication by 2^k. -/
def scale (a : Dy) (k : Int) : Dy := ⟨a.m, a.e + k⟩
/-- The numerator and denominator of |a|. -/
def ratio (a : Dy) : Nat × Nat :=
  if 0 ≤ a.e then (a.m.natAbs * 2 ^ a.e.toNat, 1) else (a.m.natAbs, 2 ^ (-a.e).toNat)

end Dy

/-- floor(log2 (n / d)) of a positive ratio. -/
def floorLog2 (n d : Nat) : Int :=
  let k : Int := (n.log2 : Int) - (d.log2 : Int)
  let ge : Bool := if 0 ≤ k then d * 2 ^ k.toNat ≤ n else d ≤ n * 2 ^ (-k).toNat
  if ge then k else k - 1

/-- How a format uses its top codes (R66). -/
inductive Special
  | ieee   -- infinities and NaNs at the top exponent
  | e4m3   -- no infinity, one NaN magnitude
  | none   -- every code is finite
deriving DecidableEq, Repr

/-- A scalar floating-point format of R66. -/
structure FloatFmt where
  ebits : Nat
  mbits : Nat
  bias : Int
  special : Special
  /-- Finite overflow saturates (R90) instead of following IEEE. -/
  saturates : Bool
deriving DecidableEq, Repr

def fp64 : FloatFmt := ⟨11, 52, 1023, .ieee, false⟩
def fp32 : FloatFmt := ⟨8, 23, 127, .ieee, false⟩
def fp16 : FloatFmt := ⟨5, 10, 15, .ieee, false⟩
def bf16 : FloatFmt := ⟨8, 7, 127, .ieee, false⟩
def e4m3 : FloatFmt := ⟨4, 3, 7, .e4m3, true⟩
def e5m2 : FloatFmt := ⟨5, 2, 15, .ieee, true⟩
def e3m2 : FloatFmt := ⟨3, 2, 3, .none, true⟩
def e2m3 : FloatFmt := ⟨2, 3, 1, .none, true⟩
def e2m1 : FloatFmt := ⟨2, 1, 1, .none, true⟩

/-- A decoded floating-point datum. -/
inductive FVal
  | nan (neg : Bool) (mant : Nat)
  | inf (neg : Bool)
  | num (neg : Bool) (m : Nat) (e : Int)
deriving DecidableEq, Repr

namespace FVal

def isNaN : FVal → Bool
  | .nan _ _ => true
  | _ => false
def isInf : FVal → Bool
  | .inf _ => true
  | _ => false
def isFinite : FVal → Bool
  | .num _ _ _ => true
  | _ => false
def sign : FVal → Bool
  | .nan s _ => s
  | .inf s => s
  | .num s _ _ => s
/-- The exact value of a finite datum; NaN and infinity count as zero (R68). -/
def dy : FVal → Dy
  | .num s m e => ⟨if s then -(m : Int) else m, e⟩
  | _ => Dy.zero
def isZero : FVal → Bool
  | .num _ m _ => m == 0
  | _ => false

end FVal

namespace FloatFmt

def width (f : FloatFmt) : Nat := 1 + f.ebits + f.mbits
/-- Exponent of the smallest normal number. -/
def emin (f : FloatFmt) : Int := 1 - f.bias
/-- The code, without sign, of the largest finite magnitude (R66). -/
def maxCode (f : FloatFmt) : Nat :=
  match f.special with
  | .ieee => (2 ^ f.ebits - 1) * 2 ^ f.mbits - 1
  | .e4m3 => 2 ^ (f.ebits + f.mbits) - 2
  | .none => 2 ^ (f.ebits + f.mbits) - 1
/-- The code, without sign, of infinity, for a format that has one. -/
def infCode (f : FloatFmt) : Nat := (2 ^ f.ebits - 1) * 2 ^ f.mbits
def signBit (f : FloatFmt) (neg : Bool) : Nat := if neg then 2 ^ (f.ebits + f.mbits) else 0

/-- The datum a bit pattern stands for (R66). -/
def decode (f : FloatFmt) (b : Nat) : FVal :=
  let s := bit b (f.ebits + f.mbits)
  let ex := (b >>> f.mbits) % 2 ^ f.ebits
  let man := b % 2 ^ f.mbits
  let finite : FVal :=
    if ex = 0 then .num s man (f.emin - f.mbits)
    else .num s (2 ^ f.mbits + man) ((ex : Int) - f.bias - f.mbits)
  if ex = 2 ^ f.ebits - 1 then
    match f.special with
    | .ieee => if man = 0 then .inf s else .nan s man
    | .e4m3 => if man = 2 ^ f.mbits - 1 then .nan s man else finite
    | .none => finite
  else finite

/-- A NaN datum of this format that IEEE 754 calls signaling. The two 8-bit OCP types do not divide their NaNs:
E4M3 has one, and which of E5M2's signal is left open. -/
def isSignaling (f : FloatFmt) (b : Nat) : Bool :=
  match f.special with
  | .ieee =>
    (f.decode b).isNaN && !bit b (f.mbits - 1) && (f.mbits != 2 || Config.e5m2SignalingNaN)
  | _ => false

end FloatFmt

/-- The sticky flags of FCSR[9:4] (R171): fmt_invalid, invalid, divide-by-zero, overflow, underflow, inexact. -/
abbrev FFlags := BitVec 6
namespace FFlags
def none : FFlags := 0
def inexact : FFlags := 1
def underflow : FFlags := 2
def overflow : FFlags := 4
def invalid : FFlags := 16
def fmtInvalid : FFlags := 32
/-- `f` where `c` holds, no flag otherwise. -/
def when (c : Bool) (f : FFlags) : FFlags := if c then f else 0
end FFlags

/-- Rounding modes: the four of FCSR.rm (R171) and stochastic rounding with its 16-bit draw (R91). -/
inductive RMode
  | nearest
  | zero
  | up
  | down
  | stochastic (r : Nat)
deriving DecidableEq, Repr

/-- FCSR.rm and VCVT's rm values 0 to 3. -/
def RMode.ofRm : Nat → RMode
  | 1 => .zero
  | 2 => .up
  | 3 => .down
  | _ => .nearest

/-- A magnitude n/d among the codes of a format, continued above the largest finite one:
the code of the largest representable magnitude not above it, and the remaining fraction rn/rd of the step. -/
structure Floor where
  code : Nat
  rn : Nat
  rd : Nat
deriving DecidableEq, Repr

/-- n/d on a grid of step 2^q: the integer part and the remaining fraction. -/
def gridFloor (n d : Nat) (q : Int) : Floor :=
  let n' := if 0 ≤ q then n else n * 2 ^ (-q).toNat
  let d' := if 0 ≤ q then d * 2 ^ q.toNat else d
  ⟨n' / d', n' % d', d'⟩

def FloatFmt.floor (f : FloatFmt) (n d : Nat) : Floor :=
  if n = 0 then ⟨0, 0, 1⟩
  else
    let e := max (floorLog2 n d) f.emin
    let g := gridFloor n d (e - f.mbits)
    ⟨g.code + (e - f.emin).toNat * 2 ^ f.mbits, g.rn, g.rd⟩

/-- Whether rounding takes the neighbour of greater magnitude (R90, R91). R91 orders the two neighbours as numbers,
a < b, so for a negative value its fraction counts from the neighbour of greater magnitude. -/
def Floor.roundsUp (g : Floor) (md : RMode) (neg : Bool) : Bool :=
  match md with
  | .nearest => 2 * g.rn > g.rd || (2 * g.rn == g.rd && g.code % 2 == 1)
  | .zero => false
  | .up => !neg && g.rn != 0
  | .down => neg && g.rn != 0
  | .stochastic r =>
    if g.rn = 0 then false
    else if neg then !(decide (r < (g.rd - g.rn) * 65536 / g.rd))
    else r < g.rn * 65536 / g.rd

/-- Whether a conversion of the magnitude n/d takes a stochastic draw (R91): inexact, and not past the end at which
the target saturates or overflows without a draw. -/
def FloatFmt.takesDraw (f : FloatFmt) (n d : Nat) : Bool :=
  let g := f.floor n d
  g.rn != 0 && (if f.saturates then g.code < f.maxCode else g.code ≤ f.maxCode)

/-- A rounded result: the bit pattern and the flags it raises. -/
structure Rounded where
  bits : Nat
  flags : FFlags
deriving DecidableEq, Repr

/-- Whether n/d is tiny for underflow: before rounding, or after it with an unbounded exponent. IEEE 754 leaves the
choice to the implementation and the spec does not make it. -/
def FloatFmt.isTiny (f : FloatFmt) (md : RMode) (neg : Bool) (n d : Nat) : Bool :=
  let e := floorLog2 n d
  if n = 0 || f.emin ≤ e then false
  else if Config.tininessAfterRounding && e == f.emin - 1 then
    let g := gridFloor n d (e - f.mbits)
    g.code + (g.roundsUp md neg).toNat < 2 ^ (f.mbits + 1)
  else true

/-- Rounds the finite value (−1)^neg · n/d into the format, once (R90, R91). -/
def FloatFmt.round (f : FloatFmt) (md : RMode) (neg : Bool) (n d : Nat) : Rounded :=
  let g := f.floor n d
  let s := f.signBit neg
  if f.saturates then
    let past := match md with
      | .stochastic _ => g.rn != 0   -- beyond the largest magnitude no draw is used (R91)
      | _ => g.roundsUp md neg
    if g.code > f.maxCode || (g.code == f.maxCode && past) then
      ⟨s + f.maxCode, FFlags.overflow ||| FFlags.inexact⟩
    else
      let c := g.code + (g.roundsUp md neg).toNat
      let nx := g.rn != 0
      ⟨s + min c f.maxCode, FFlags.when nx FFlags.inexact ||| FFlags.when (nx && f.isTiny md neg n d) FFlags.underflow⟩
  else
    let neg' := match md with
      | .stochastic _ => neg && g.code < f.maxCode   -- at the end of the range magnitudes are compared
      | _ => neg
    let c := if g.code > f.maxCode then g.code else g.code + (g.roundsUp md neg').toNat
    let nx := g.rn != 0
    if c > f.maxCode then
      let toInf := match md with
        | .nearest => true
        | .stochastic _ => true
        | .zero => false
        | .up => !neg
        | .down => neg
      ⟨s + (if toInf then f.infCode else f.maxCode), FFlags.overflow ||| FFlags.inexact⟩
    else
      ⟨s + c, FFlags.when nx FFlags.inexact ||| FFlags.when (nx && f.isTiny md neg n d) FFlags.underflow⟩

/-- Rounds a dyadic value; `negZero` is the sign a zero takes. -/
def FloatFmt.roundDy (f : FloatFmt) (md : RMode) (negZero : Bool) (v : Dy) : Rounded :=
  let nd := v.ratio
  f.round md (if v.m = 0 then negZero else v.m < 0) nd.1 nd.2

/-- The NaN the format takes for a NaN of sign `neg` (R90): the 8-bit types and BF16 have one code for each sign;
FP64, FP32 and FP16 take a quiet NaN whose remaining bits are left open (`pay`). -/
def FloatFmt.nanOf (f : FloatFmt) (neg : Bool) (pay : Nat) : Nat :=
  match f.special with
  | .ieee =>
    if f.mbits = 7 || f.mbits = 2 then f.signBit neg + f.infCode + 2 ^ (f.mbits - 1)
    else f.signBit neg + f.infCode + 2 ^ (f.mbits - 1) + pay % 2 ^ (f.mbits - 1)
  | .e4m3 => f.signBit neg + 2 ^ (f.ebits + f.mbits) - 1
  | .none => 0

/-- Conversion of any datum into the format under R90 and R91. `pay` is the open part of a NaN result. -/
def FloatFmt.convert (f : FloatFmt) (md : RMode) (pay : Nat) (v : FVal) : Rounded :=
  match v with
  | .nan s _ =>
    match f.special with
    | .none => ⟨0, FFlags.invalid ||| FFlags.fmtInvalid⟩
    | _ => ⟨f.nanOf s pay, FFlags.none⟩
  | .inf s =>
    match f.special with
    | .ieee => ⟨f.signBit s + f.infCode, FFlags.none⟩
    | _ => ⟨f.signBit s + f.maxCode, Config.infToFiniteFlags⟩
  | .num s m e =>
    let nd := (⟨m, e⟩ : Dy).ratio
    f.round md s nd.1 nd.2

/-- Rounds the magnitude n/d to an integer magnitude. -/
def roundMagInt (md : RMode) (neg : Bool) (n d : Nat) : Nat :=
  let g : Floor := ⟨n / d, n % d, d⟩
  g.code + (g.roundsUp md neg).toNat

/-- Whether rounding n/d to an integer of magnitude at most `max` takes a stochastic draw (R91). -/
def intTakesDraw (n d max : Nat) : Bool := n % d != 0 && n / d < max

/-- An integer result saturated to [lo, hi], with IEEE's flags: invalid outside the range, inexact otherwise. Under
stochastic rounding a value just past the end of the range takes no draw (R91), so what it would round to is not asked: it
saturates and sets invalid like any value beyond the range (DEDUCED, log 18). -/
def roundInt (md : RMode) (neg : Bool) (n d : Nat) (lo hi : Int) : Int × FFlags :=
  let past : Bool := match md with
    | .stochastic _ => n % d != 0 && decide ((if neg then lo else hi).natAbs ≤ n / d)
    | _ => false
  let q : Int := roundMagInt md neg n d
  let i := if neg then -q else q
  if i < lo ∨ (past ∧ neg) then (lo, FFlags.invalid)
  else if hi < i ∨ past then (hi, FFlags.invalid)
  else (i, FFlags.when (n % d != 0) FFlags.inexact)

/-- Conversion into the two's complement integers of `w` bits, as a bit pattern (R90, R187): NaN gives 0, and sets
fmt_invalid as well when the target is INT8. -/
def convertInt (w : Nat) (md : RMode) (v : FVal) : Rounded :=
  let hi : Int := (2 ^ (w - 1) : Nat) - 1
  let lo : Int := -((2 ^ (w - 1) : Nat) : Int)
  match v with
  | .nan _ _ => ⟨0, FFlags.invalid ||| FFlags.when (w == 8) FFlags.fmtInvalid⟩
  | .inf s => ⟨wrap w (if s then lo else hi), FFlags.invalid⟩
  | .num s m e =>
    let nd := (⟨m, e⟩ : Dy).ratio
    let r := roundInt md s nd.1 nd.2 lo hi
    ⟨wrap w r.1, r.2⟩

/-- The value 2^(e − 127) of an E8M0 scale, none for 0xFF (R69, R71). -/
def e8m0 (b : Nat) : Option Dy := if b = 0xFF then none else some ⟨1, (b : Int) - 127⟩

/-- Conversion into E8M0 (R90): the sign is dropped and the nearer power of two is taken, a midpoint going to the
even code. -/
def toE8M0 (v : FVal) : Nat :=
  match v with
  | .nan _ _ => 0xFF
  | .inf _ => 0xFE
  | .num _ m e =>
    if m = 0 then 0
    else
      let nd := (⟨m, e⟩ : Dy).ratio
      let k := floorLog2 nd.1 nd.2
      if k < -127 then 0
      else if 127 ≤ k then 0xFE
      else
        let c := (k + 127).toNat
        let g := gridFloor nd.1 nd.2 k
        if 2 * g.rn > g.rd || (2 * g.rn == g.rd && c % 2 == 1) then c + 1 else c

/-- A valid E4M3 block scale: non-negative and not the NaN (R77). -/
def e4m3Scale (b : Nat) : Option Dy := if b < 0x7F then some (e4m3.decode b).dy else none

/-! ## Format codes (R65) -/

/-- The base formats of R65. -/
inductive Base
  | fp64 | fp32 | fp16 | bf16 | e4m3 | e5m2 | int8
  | mxE4m3 | mxE5m2 | mxE3m2 | mxE2m3 | mxE2m1 | mxInt8
  | q4b | q3b | q2b | tri5
deriving DecidableEq, Repr

/-- The base format a code's bits [5:0] select. -/
def Base.ofCode : Nat → Option Base
  | 0x01 => some .fp64 | 0x02 => some .fp32 | 0x03 => some .fp16 | 0x04 => some .bf16
  | 0x05 => some .e4m3 | 0x06 => some .e5m2 | 0x07 => some .int8
  | 0x10 => some .mxE4m3 | 0x11 => some .mxE5m2 | 0x12 => some .mxE3m2 | 0x13 => some .mxE2m3
  | 0x14 => some .mxE2m1 | 0x15 => some .mxInt8
  | 0x20 => some .q4b | 0x21 => some .q3b | 0x22 => some .q2b | 0x23 => some .tri5
  | _ => none

/-- Block-scaled formats: codes 0x10 to 0x23. -/
def Base.blockScaled : Base → Bool
  | .fp64 | .fp32 | .fp16 | .bf16 | .e4m3 | .e5m2 | .int8 => false
  | _ => true

def Base.isMX : Base → Bool
  | .mxE4m3 | .mxE5m2 | .mxE3m2 | .mxE2m3 | .mxE2m1 | .mxInt8 => true
  | _ => false

/-- A format code with its exception bit, as R65 allows it. -/
structure Format where
  base : Base
  plusX : Bool
deriving DecidableEq, Repr

def Format.ofCode (c : Nat) : Option Format :=
  match Base.ofCode (c % 64) with
  | none => none
  | some b =>
    if bit c 7 || 256 ≤ c || (bit c 6 && !b.blockScaled) then none else some ⟨b, bit c 6⟩

/-- The datum of one scalar element: plain types, MX elements and INT8 (R66, R67, R70). -/
def Base.element : Base → Nat → FVal
  | .fp64, w => Sys2Proof.fp64.decode w
  | .fp32, w => Sys2Proof.fp32.decode w
  | .fp16, w => Sys2Proof.fp16.decode w
  | .bf16, w => Sys2Proof.bf16.decode w
  | .e4m3, w | .mxE4m3, w => Sys2Proof.e4m3.decode w
  | .e5m2, w | .mxE5m2, w => Sys2Proof.e5m2.decode w
  | .mxE3m2, w => Sys2Proof.e3m2.decode w
  | .mxE2m3, w => Sys2Proof.e2m3.decode w
  | .mxE2m1, w => Sys2Proof.e2m1.decode w
  | .int8, w => let i := sext 8 w; .num (i < 0) i.natAbs 0
  | .mxInt8, w => let i := sext 8 w; .num (i < 0) i.natAbs (-6)
  | .q4b, w => let i := sext 4 w; .num (i < 0) i.natAbs 0
  | .q3b, w => let i := sext 3 w; .num (i < 0) i.natAbs 0
  | .q2b, w => .num (!bit w 1) (if bit w 1 == bit w 0 then 3 else 1) (-1)
  | .tri5, w => let d : Int := (w % 3 : Nat) - 1; .num (d < 0) d.natAbs 0

/-- Whether a NaN element of a packed tensor signals: plain BF16 and the E5M2 types can (R186). -/
def Base.signals (b : Base) (v : FVal) : Bool :=
  match b, v with
  | .bf16, .nan _ m => !bit m 6
  | .e5m2, .nan _ m | .mxE5m2, .nan _ m => !bit m 1 && Config.e5m2SignalingNaN
  | _, _ => false

end Sys2Proof
end

