-- ==== Sys2Proof/Machine/Tensor.lean ====
section
/-! DEFINITION. Packed tensors (R72 to R88): the header and its validity, where each stream's bytes lie, and what the
elements, scales, exceptions and sparse slots of a block stand for. `rd` reads one byte at an address. -/

namespace Sys2Proof

/-- The packed tensor header of R72. -/
structure Header where
  format : Nat
  sparse : Nat
  reserved : Nat
  tensorScale : Nat
  k : Nat
  runs : Nat
  elemOff : Nat
  scaleOff : Nat
  excOff : Nat
  indexOff : Nat
deriving DecidableEq, Repr

/-- `n` bytes from address `a`, as a little-endian number (R6). -/
def rdLe (rd : Nat → Nat) (a n : Nat) : Nat := leNat ((List.range n).map fun i => rd (a + i))

def Header.parse (rd : Nat → Nat) (a : Nat) : Header where
  format := rd a % 256
  sparse := rd (a + 1) % 256
  reserved := rdLe rd (a + 2) 2
  tensorScale := rdLe rd (a + 4) 4
  k := rdLe rd (a + 8) 4
  runs := rdLe rd (a + 12) 4
  elemOff := rdLe rd (a + 16) 4
  scaleOff := rdLe rd (a + 20) 4
  excOff := rdLe rd (a + 24) 4
  indexOff := rdLe rd (a + 28) 4

/-- The header's 32 bytes, as a hoist writes them (R72). -/
def Header.bytes (h : Header) : List Nat :=
  [h.format, h.sparse] ++ leBytes 2 h.reserved ++ leBytes 4 h.tensorScale ++ leBytes 4 h.k ++ leBytes 4 h.runs ++
    leBytes 4 h.elemOff ++ leBytes 4 h.scaleOff ++ leBytes 4 h.excOff ++ leBytes 4 h.indexOff

/-- The format a valid header names: 0x10 to 0x23 with or without +X, or plain BF16, E4M3 or E5M2 (R75). -/
def Header.fmt (h : Header) : Option Format :=
  match Format.ofCode h.format with
  | some f =>
    match f.base with
    | .fp64 | .fp32 | .fp16 | .int8 => none
    | _ => some f
  | none => none

/-- Slots per group of a sparse pattern: 2:4 counts as 4:8 (R84, R125). 0 for dense and reserved codes. -/
def sparseSlots : Nat → Nat
  | 1 => 1 | 2 => 2 | 3 => 4 | 4 => 4 | _ => 0

/-- Whether a header obeys R72 and R75. -/
def Header.valid (h : Header) : Bool :=
  match h.fmt with
  | none => false
  | some f =>
    h.reserved == 0 && h.sparse ≤ 4 &&
    (h.sparse == 0 || f.base == .q4b || f.base == .q3b) &&
    (fp32.decode h.tensorScale).isFinite && 0 < h.k && 0 < h.runs &&
    h.elemOff != 0 && h.elemOff % 32 == 0 &&
    h.scaleOff % 32 == 0 && ((h.scaleOff != 0) == f.base.blockScaled) &&
    h.excOff % 32 == 0 && ((h.excOff != 0) == f.plusX) &&
    h.indexOff % 32 == 0 && ((h.indexOff != 0) == (h.sparse != 0))

/-- Block length B (R73). -/
def Base.blockLen : Base → Nat
  | .q4b | .q3b => 16
  | .tri5 => 60
  | _ => 32

/-- Element width in bits; TRI5 elements are coded five to a byte instead (R74, R78). -/
def Base.elemBits : Base → Nat
  | .fp64 => 64 | .fp32 => 32 | .fp16 | .bf16 => 16
  | .e4m3 | .e5m2 | .int8 | .mxE4m3 | .mxE5m2 | .mxInt8 => 8
  | .mxE3m2 | .mxE2m3 => 6
  | .mxE2m1 | .q4b => 4
  | .q3b => 3
  | .q2b => 2
  | .tri5 => 8

namespace Header

/-- The base format; a header that is not valid has none, and plain E4M3 stands in (nothing reads it then). -/
def base (h : Header) : Base :=
  match h.fmt with
  | some f => f.base
  | none => .e4m3
def plusX (h : Header) : Bool := bit h.format 6
def slots (h : Header) : Nat := sparseSlots h.sparse
/-- Blocks per run. -/
def blocks (h : Header) : Nat := ceilDiv h.k h.base.blockLen
/-- Index of block b of run n among all blocks of a stream (R73). -/
def blockIx (h : Header) (n b : Nat) : Nat := n * h.blocks + b
/-- Index bytes per block of a sparse tensor (R86). -/
def indexBytes (h : Header) : Nat := ceilDiv (6 * h.slots) 8
/-- Bits of element stream per block: the elements, TRI5's 12 bytes, or the 2N slot values of a sparse block, which
follow one another without padding (R73, R85). -/
def blockBits (h : Header) : Nat :=
  if h.sparse ≠ 0 then 2 * h.slots * h.base.elemBits
  else if h.base = .tri5 then 96
  else h.base.blockLen * h.base.elemBits

/-- Bytes of each stream for the whole tensor, in the order element, scale, exception, index. -/
def elemBytes (h : Header) : Nat := ceilDiv (h.runs * h.blocks * h.blockBits) 8
def scaleBytes (h : Header) : Nat := if h.base.blockScaled then h.runs * h.blocks else 0
def excBytes (h : Header) : Nat := if h.plusX then h.runs * h.blocks * 4 else 0
def indexStreamBytes (h : Header) : Nat := if h.sparse ≠ 0 then h.runs * h.blocks * h.indexBytes else 0

/-- `w` bits at bit offset `o` of the element stream of a tensor whose header lies at `a`. -/
def elemField (h : Header) (rd : Nat → Nat) (a o w : Nat) : Nat :=
  let byte := a + h.elemOff + o / 8
  (rdLe rd byte (ceilDiv (o % 8 + w) 8) >>> (o % 8)) % 2 ^ w

/-- The code of element (or slot) i of block b of run n; TRI5 gives the trit's digit, none for a byte of 243 to 255
(R79, R80). -/
def code (h : Header) (rd : Nat → Nat) (a n b i : Nat) : Option Nat :=
  let o := h.blockIx n b * h.blockBits
  if h.base = .tri5 ∧ h.sparse = 0 then
    let v := rd (a + h.elemOff + o / 8 + i / 5) % 256
    if 243 ≤ v then none else some (v / 3 ^ (i % 5) % 3)
  else some (h.elemField rd a (o + i * h.base.elemBits) h.base.elemBits)

/-- The scale byte of a block. -/
def scaleByte (h : Header) (rd : Nat → Nat) (a n b : Nat) : Nat := rd (a + h.scaleOff + h.blockIx n b) % 256

/-- A block's scale; none where it is invalid or NaN (R69, R71, R76, R77). -/
def scale (h : Header) (rd : Nat → Nat) (a n b : Nat) : Option Dy :=
  if h.base.isMX then e8m0 (h.scaleByte rd a n b)
  else if h.base.blockScaled then e4m3Scale (h.scaleByte rd a n b)
  else some ⟨1, 0⟩

/-- The exception word of a block (R81); 0 without +X. -/
def excWord (h : Header) (rd : Nat → Nat) (a n b : Nat) : Nat :=
  if h.plusX then rdLe rd (a + h.excOff + 4 * h.blockIx n b) 4 else 0

/-- The 3-bit index of slot j of a sparse block (R86). -/
def slotIndex (h : Header) (rd : Nat → Nat) (a n b j : Nat) : Nat :=
  (rdLe rd (a + h.indexOff + h.indexBytes * h.blockIx n b) h.indexBytes >>> (3 * j)) % 8

end Header

/-- The exceptions of a block as R82 and R83 read them: those that apply, as positions in the block with their E4M3
codes, and whether the block counts as malformed. -/
structure Exceptions where
  list : List (Nat × Nat)
  malformed : Bool
  overflow : Bool
deriving DecidableEq, Repr

/-- The position in the block that slot 0 or 1 of an exception word names (R82); none where the slot is malformed. -/
def excPosition (base : Base) (slot1 : Bool) (field : Nat) : Option Nat :=
  match base with
  | .q4b | .q3b => some (field % 16)
  | .tri5 => if 30 ≤ field then none else some (if slot1 then 30 + field else field)
  | _ => some field

/-- R83 applied to the exception word `w` of a block that starts at position `p0` of a run of `k`. -/
def readExceptions (base : Base) (w p0 k : Nat) : Exceptions :=
  let slot (slot1 valid : Bool) (field val : Nat) : Option (Nat × Nat) × Bool :=
    if !valid then (none, false)
    else match excPosition base slot1 field with
      | none => (none, true)
      | some p =>
        if k ≤ p0 + p then (none, true)
        else if val % 128 = 127 then (none, true)
        else (some (p, val), false)
  let s0 := slot false (bit w 29) (bits w 12 8) (bits w 7 0)
  let s1 := slot true (bit w 30) (bits w 28 24) (bits w 23 16)
  match s0.1, s1.1 with
  | some x, some y =>
    if x.1 = y.1 then ⟨[y], true, bit w 31⟩ else ⟨[x, y], s0.2 || s1.2, bit w 31⟩
  | some x, none => ⟨[x], s0.2 || s1.2, bit w 31⟩
  | none, some y => ⟨[y], s0.2 || s1.2, bit w 31⟩
  | none, none => ⟨[], s0.2 || s1.2, bit w 31⟩

namespace Header

def exceptions (h : Header) (rd : Nat → Nat) (a n b : Nat) : Exceptions :=
  if h.plusX then readExceptions h.base (h.excWord rd a n b) (b * h.base.blockLen) h.k else ⟨[], false, false⟩

/-- The datum of element i, before block and tensor scale; an invalid TRI5 byte gives zero (R80). -/
def element (h : Header) (rd : Nat → Nat) (a n b i : Nat) : FVal :=
  match h.code rd a n b i with
  | none => .num false 0 0
  | some c => h.base.element c

/-- The datum position p of run n stands for, without tensor_scale, as the vector unit reads it (R76, R71): NaN
elements and MX blocks of NaN scale stay NaN (the NaN of a scale is quiet), and a sparse position holds the sum of the slots
that name it. None where the value is zero whatever tensor_scale is: beyond k, under an invalid scale, and at a sparse
position that no slot names. -/
def valueAt (h : Header) (rd : Nat → Nat) (a n p : Nat) : Option FVal :=
  if h.k ≤ p then none
  else
    let bl := h.base.blockLen
    let b := p / bl
    let i := p % bl
    match (h.exceptions rd a n b).list.find? (fun x => x.1 == i) with
    | some x => some (e4m3.decode x.2)
    | none =>
      match h.scale rd a n b with
      | none => if h.base.isMX then some (.nan false (2 ^ 52 - 1)) else none
      | some s =>
        if h.sparse ≠ 0 then
          match (List.range (2 * h.slots)).filter fun j => j / h.slots * 8 + h.slotIndex rd a n b j == i with
          | [] => none
          | js =>
            let d := (Dy.sum (js.map fun j => (h.element rd a n b j).dy)).mul s
            some (.num (d.m < 0) d.m.natAbs d.e)
        else
          match h.element rd a n b i with
          | .num sg m e => let d := s.mul ⟨m, e⟩; some (.num sg d.m.natAbs d.e)
          | v => some v

/-- Malformed events of block b of run n that do not depend on a window: its scale and its exception word (R102). -/
def blockMalformed (h : Header) (rd : Nat → Nat) (a n b : Nat) : Nat :=
  (if (h.scale rd a n b).isNone then 1 else 0) + (if (h.exceptions rd a n b).malformed then 1 else 0)

/-- The TRI5 bytes from 243 to 255 of block b that hold a position of [lo, hi) of the run (R80, R102). -/
def triMalformed (h : Header) (rd : Nat → Nat) (a n b lo hi : Nat) : Nat :=
  if h.base = .tri5 ∧ h.sparse = 0 then
    ((List.range 12).filter fun j =>
      let p := b * 60 + 5 * j
      (243 ≤ rd (a + h.elemOff + h.blockIx n b * 12 + j) % 256 : Bool) &&
        decide (p < min hi h.k ∧ lo < p + 5)).length
  else 0

/-- Byte ranges that `cnt` blocks from block b0 of run n on take from the scale, exception and index streams. -/
def sideRanges (h : Header) (a n b0 cnt : Nat) : List (Nat × Nat) :=
  let g0 := h.blockIx n b0
  (if h.base.blockScaled then [(a + h.scaleOff + g0, cnt)] else []) ++
  (if h.plusX then [(a + h.excOff + 4 * g0, 4 * cnt)] else []) ++
  (if h.sparse ≠ 0 then [(a + h.indexOff + h.indexBytes * g0, h.indexBytes * cnt)] else [])

/-- Byte ranges (address, length) that the blocks of run n overlapping positions [lo, hi) take from each stream. -/
def runRanges (h : Header) (a n lo hi : Nat) : List (Nat × Nat) :=
  let bl := h.base.blockLen
  let b0 := lo / bl
  let b1 := min (ceilDiv hi bl) h.blocks
  if b1 ≤ b0 then []
  else
    let cnt := b1 - b0
    let o0 := h.blockIx n b0 * h.blockBits
    let o1 := (h.blockIx n b0 + cnt) * h.blockBits
    [(a + h.elemOff + o0 / 8, ceilDiv o1 8 - o0 / 8)] ++ h.sideRanges a n b0 cnt

/-- Byte ranges of the elements of positions [lo, hi) of run n, whose blocks follow one another, and of what those blocks take
from the other streams. -/
def spanRanges (h : Header) (a n lo hi : Nat) : List (Nat × Nat) :=
  if hi ≤ lo then []
  else
    let bl := h.base.blockLen
    let b0 := lo / bl
    let o0 := h.blockIx n b0 * h.blockBits + lo % bl * h.base.elemBits
    (a + h.elemOff + o0 / 8, ceilDiv (o0 + (hi - lo) * h.base.elemBits) 8 - o0 / 8) ::
      h.sideRanges a n b0 (ceilDiv hi bl - b0)

/-- Byte ranges that decoding positions p to p + 15 of run n needs: those of the positions below k (R76 reads none for the
others), with the scale, exception word and indices of each block they lie in. A TRI5 byte is needed for any of its five
positions (R79). -/
def unpackRanges (h : Header) (a n p : Nat) : List (Nat × Nat) :=
  let bl := h.base.blockLen
  let hi := min (p + 16) h.k
  if hi ≤ p then []
  else if h.sparse ≠ 0 then h.runRanges a n p hi
  else if h.base = .tri5 then
    let b0 := p / bl
    let cnt := (hi - 1) / bl + 1 - b0
    ((List.range cnt).map fun j =>
      let q0 := max p ((b0 + j) * bl) - (b0 + j) * bl
      let q1 := min hi ((b0 + j + 1) * bl) - (b0 + j) * bl
      (a + h.elemOff + h.blockIx n (b0 + j) * 12 + q0 / 5, (q1 - 1) / 5 + 1 - q0 / 5)) ++ h.sideRanges a n b0 cnt
  else h.spanRanges a n p hi

end Header

/-! ## The terms of a block -/

/-- What one block of one run offers a window: its terms (position in the run, weight without tensor_scale), the
positions whose decoded weight counts for promotion (R106, R150), and the events met. -/
structure BlockTerms where
  terms : List (Nat × Dy)
  scored : List Nat
  malformed : Nat
  exceptions : Nat
  excOverflow : Nat
  sparseRange : Nat
deriving DecidableEq, Repr

/-- Block b of run n inside the window [lo, hi): R76 for dense blocks, R148 to R151 for sparse ones. NaN and infinite
elements count malformed and become zero (R68). -/
def Header.terms (h : Header) (rd : Nat → Nat) (a n b lo hi : Nat) : BlockTerms :=
  let bl := h.base.blockLen
  let p0 := b * bl
  let inWin (p : Nat) : Bool := decide (lo ≤ p ∧ p < hi)
  let ex := h.exceptions rd a n b
  let exs := ex.list.filter fun x => inWin (p0 + x.1)
  let exTerms := exs.map fun x => (p0 + x.1, (e4m3.decode x.2).dy)
  let sc := h.scale rd a n b
  let s := sc.getD Dy.zero
  let base0 := h.blockMalformed rd a n b + h.triMalformed rd a n b lo hi
  let ov := if ex.overflow then 1 else 0
  if h.sparse ≠ 0 then
    let slots := (List.range (2 * h.slots)).map fun j =>
      (p0 + j / h.slots * 8 + h.slotIndex rd a n b j, h.element rd a n b j)
    let here := slots.filter fun x => inWin x.1
    let rng := (here.filter fun x => decide (h.k ≤ x.1) && !x.2.isZero).length
    let live := here.filter fun x => decide (x.1 < h.k) && !(ex.list.any fun e => p0 + e.1 == x.1)
    let ts := live.map fun x => (x.1, x.2.dy.mul s)
    let held := ((here.map fun x => x.1).filter fun p => decide (p < h.k)).eraseDups
    let all := ts ++ exTerms
    ⟨all, held.filter fun p => !(Dy.sum ((all.filter fun t => t.1 == p).map fun t => t.2)).isZero,
      base0, exs.length, ov, rng⟩
  else
    let ps := (List.range bl).filter fun i => inWin (p0 + i) && decide (p0 + i < h.k)
    let plain := ps.filter fun i => !(ex.list.any fun e => e.1 == i)
    let els := plain.map fun i => (p0 + i, h.element rd a n b i)
    -- a block of NaN scale counts once, whatever its elements are (R71)
    let bad := if sc.isNone then 0 else (els.filter fun x => !x.2.isFinite).length
    let ts := els.map fun x => (x.1, x.2.dy.mul s)
    let all := ts ++ exTerms
    ⟨all, (all.filter fun t => !t.2.isZero).map fun t => t.1, base0 + bad, exs.length, ov, 0⟩

end Sys2Proof
end

