-- ==== Sys2Proof/Machine/VectorMath.lean ====
section
/-! DEFINITION. Lane arithmetic of the vector unit (R186 to R188), its conversions (R187) and the generator streams
that stochastic rounding draws from (R111). Pure functions of operand bits. -/

namespace Sys2Proof

/-! ## Generator streams -/

/-- One step of a stream (R111): the new state, whose bits [63:48] are the draw. -/
def rngStep (s : DWord) : DWord :=
  let a := s ^^^ (s <<< 13)
  let b := a ^^^ (a >>> 7)
  b ^^^ (b <<< 17)

/-- The draw of a state just stepped (R111). -/
def rngDraw (s : DWord) : Nat := bits s.toNat 63 48

/-- A written seed; zero loads the fixed non-zero state (R111). -/
def rngSeed (s : DWord) : DWord := if s = 0 then 0x5D0EA1D57A11B0CE#64 else s

/-! ## Lanes -/

/-- The formats of the fmt field (R186) and, for VCVT, codes 6 and 7 (R187). -/
inductive LaneFmt
  | fp64 | fp32 | fp16 | bf16 | e4m3 | e5m2 | int8 | int32
deriving DecidableEq, Repr

def LaneFmt.ofCode : Nat → LaneFmt
  | 0 => .fp64 | 1 => .fp32 | 2 => .fp16 | 3 => .bf16 | 4 => .e4m3 | 5 => .e5m2 | 6 => .int8 | _ => .int32

/-- The fmt code of a lane format (R186, R187). -/
def LaneFmt.code : LaneFmt → Nat
  | .fp64 => 0 | .fp32 => 1 | .fp16 => 2 | .bf16 => 3 | .e4m3 => 4 | .e5m2 => 5 | .int8 => 6 | .int32 => 7

def LaneFmt.width : LaneFmt → Nat
  | .fp64 => 64 | .fp32 | .int32 => 32 | .fp16 | .bf16 => 16 | .e4m3 | .e5m2 | .int8 => 8

def LaneFmt.lanes (f : LaneFmt) : Nat := 512 / f.width

/-- The floating-point format of a lane format; the integer ones have none. -/
def LaneFmt.float : LaneFmt → Option FloatFmt
  | .fp64 => some Sys2Proof.fp64 | .fp32 => some Sys2Proof.fp32 | .fp16 => some Sys2Proof.fp16
  | .bf16 => some Sys2Proof.bf16 | .e4m3 => some Sys2Proof.e4m3 | .e5m2 => some Sys2Proof.e5m2
  | .int8 | .int32 => none

/-- The datum of one lane. -/
def LaneFmt.decode (f : LaneFmt) (w : Nat) : FVal :=
  match f.float with
  | some g => g.decode w
  | none => let i := sext f.width w; .num (i < 0) i.natAbs 0

/-- Lane i of a vector register, lanes of `w` bits from the low end. -/
def lane (w : Nat) (v : VWord) (i : Nat) : Nat := (v.toNat >>> (w * i)) % 2 ^ w

/-- The vector whose lanes of `w` bits are the listed numbers, from the low end. -/
def ofLanes (w : Nat) (l : List Nat) : VWord :=
  BitVec.ofNat 512 (l.foldr (fun x acc => x % 2 ^ w + acc <<< w) 0)

/-- `v` with lane i of `w` bits replaced. -/
def setLane (w : Nat) (v : VWord) (i x : Nat) : VWord :=
  BitVec.ofNat 512 (putBits v.toNat (w * i + w - 1) (w * i) x)

/-- The lanes of a vector register in increasing order. -/
def lanesOf (w : Nat) (v : VWord) : List Nat := (List.range (512 / w)).map (lane w v)

/-- The rounding mode of lane arithmetic: FCSR.rm, but nearest-even in the 8-bit formats (R186). -/
def FloatFmt.arithMode (f : FloatFmt) (rm : Nat) : RMode :=
  if f.saturates then .nearest else RMode.ofRm rm

/-- The NaN an operation makes of the given operand bits, with the invalid flag where `nv` holds or one signals. -/
def FloatFmt.makeNaN (f : FloatFmt) (nv : Bool) (ops : List Nat) : Rounded :=
  ⟨f.nanOf (Config.nanSign f.width ops) (Config.nanPayload f.width ops),
   FFlags.when (nv || ops.any f.isSignaling) FFlags.invalid⟩

/-- Rounds an exact result; an exact zero takes sign `sa` when both terms carry it, and otherwise the sign IEEE 754
gives a zero sum. -/
def FloatFmt.roundSum (f : FloatFmt) (md : RMode) (sa sb : Bool) (v : Dy) : Rounded :=
  f.roundDy md (if sa == sb then sa else md == .down) v

/-- a · b + c rounded once (R186). `opn` are the operand bits, from which an open NaN result is taken. -/
def FloatFmt.fma (f : FloatFmt) (md : RMode) (negProduct : Bool) (a b c : Nat) : Rounded :=
  let x := f.decode a
  let y := f.decode b
  let z := f.decode c
  let sp := (x.sign != y.sign) != negProduct
  let infTimesZero := (x.isInf && y.isZero) || (x.isZero && y.isInf)
  if x.isNaN || y.isNaN || z.isNaN || infTimesZero then
    f.makeNaN (infTimesZero && (!z.isNaN || Config.fmaZeroInfNaNInvalid)) [a, b, c]
  else if x.isInf || y.isInf then
    if z.isInf && z.sign != sp then f.makeNaN true [a, b, c] else f.convert md 0 (.inf sp)
  else if z.isInf then f.convert md 0 z
  else
    let p := x.dy.mul y.dy
    f.roundSum md sp z.sign ((if negProduct then p.neg else p).add z.dy)

/-- a + b, or a − b where `sub` holds, rounded once. -/
def FloatFmt.addSub (f : FloatFmt) (md : RMode) (sub : Bool) (a b : Nat) : Rounded :=
  let x := f.decode a
  let y := f.decode b
  let sy := y.sign != sub
  if x.isNaN || y.isNaN then f.makeNaN false [a, b]
  else if x.isInf && y.isInf then
    if x.sign != sy then f.makeNaN true [a, b] else f.convert md 0 x
  else if x.isInf then f.convert md 0 x
  else if y.isInf then f.convert md 0 (.inf sy)
  else f.roundSum md x.sign sy (x.dy.add (if sub then y.dy.neg else y.dy))

/-- a · b rounded once. -/
def FloatFmt.mulR (f : FloatFmt) (md : RMode) (a b : Nat) : Rounded :=
  let x := f.decode a
  let y := f.decode b
  let s := x.sign != y.sign
  let bad := (x.isInf && y.isZero) || (x.isZero && y.isInf)
  if x.isNaN || y.isNaN || bad then f.makeNaN bad [a, b]
  else if x.isInf || y.isInf then f.convert md 0 (.inf s)
  else f.roundDy md s (x.dy.mul y.dy)

/-- Order of two data that are not NaN. -/
def FVal.lt (a b : FVal) : Bool :=
  match a, b with
  | .inf s, .inf t => s && !t
  | .inf s, _ => s
  | _, .inf t => !t
  | x, y => x.dy.lt y.dy

/-- Minimum (`isMax` false) or maximum: the operand that is not NaN when exactly one is (R186). -/
def FloatFmt.minMax (f : FloatFmt) (isMax : Bool) (a b : Nat) : Rounded :=
  let x := f.decode a
  let y := f.decode b
  let sig := FFlags.when (f.isSignaling a || f.isSignaling b) FFlags.invalid
  if x.isNaN && y.isNaN then f.makeNaN false [a, b]
  else if x.isNaN then ⟨b, sig⟩
  else if y.isNaN then ⟨a, sig⟩
  else if x.lt y then ⟨if isMax then b else a, 0⟩
  else if y.lt x then ⟨if isMax then a else b, 0⟩
  else if a = b then ⟨a, 0⟩
  else ⟨if Config.zeroPick isMax a b then a else b, 0⟩

def FloatFmt.absR (f : FloatFmt) (a : Nat) : Rounded := ⟨a % 2 ^ (f.width - 1), 0⟩
def FloatFmt.negR (f : FloatFmt) (a : Nat) : Rounded :=
  ⟨if bit a (f.width - 1) then a % 2 ^ (f.width - 1) else a % 2 ^ (f.width - 1) + 2 ^ (f.width - 1), 0⟩

/-- A vector result and the flags of its lanes. -/
structure VRes where
  v : VWord
  flags : FFlags
deriving DecidableEq, Repr

def VRes.ofRounded (w : Nat) (l : List Rounded) : VRes :=
  ⟨ofLanes w (l.map Rounded.bits), l.foldl (fun a r => a ||| r.flags) 0⟩

/-- Applies a lane function to every lane of one, two or three registers. -/
def lanewise1 (f : FloatFmt) (op : Nat → Rounded) (a : VWord) : VRes :=
  VRes.ofRounded f.width ((lanesOf f.width a).map op)
def lanewise2 (f : FloatFmt) (op : Nat → Nat → Rounded) (a b : VWord) : VRes :=
  VRes.ofRounded f.width ((List.range (512 / f.width)).map fun i => op (lane f.width a i) (lane f.width b i))
def lanewise3 (f : FloatFmt) (op : Nat → Nat → Nat → Rounded) (a b c : VWord) : VRes :=
  VRes.ofRounded f.width
    ((List.range (512 / f.width)).map fun i => op (lane f.width a i) (lane f.width b i) (lane f.width c i))

/-! ## Reductions (R188) -/

/-- One level of the pairwise tree: lanes 2i and 2i + 1 combined. -/
def pairLevel (op : Nat → Nat → Rounded) : List Nat → List Rounded
  | a :: b :: t => op a b :: pairLevel op t
  | [a] => [⟨a, 0⟩]
  | [] => []

/-- The pairwise tree over `n` levels. -/
def pairTree (op : Nat → Nat → Rounded) : Nat → List Nat → Rounded
  | 0, l => ⟨l.headD 0, 0⟩
  | n + 1, l =>
    let lv := pairLevel op l
    let r := pairTree op n (lv.map Rounded.bits)
    ⟨r.bits, lv.foldl (fun a x => a ||| x.flags) r.flags⟩

def reduceLanes (f : FloatFmt) (op : Nat → Nat → Rounded) (v : VWord) : Rounded :=
  pairTree op (512 / f.width).log2 (lanesOf f.width v)

/-! ## Conversions (R187) -/

/-- The lane count L of the narrower-laned side, and the ratio of lanes. -/
def cvtLanes (src dst : LaneFmt) : Nat := min src.lanes dst.lanes
def cvtRatio (src dst : LaneFmt) : Nat := max src.lanes dst.lanes / cvtLanes src dst

/-- Whether converting the datum into `dst` takes a draw (R91, R112). -/
def cvtTakesDraw (dst : LaneFmt) (v : FVal) : Bool :=
  match v with
  | .num s m e =>
    let nd := (⟨m, e⟩ : Dy).ratio
    match dst.float with
    | some f => f.takesDraw nd.1 nd.2
    | none => intTakesDraw nd.1 nd.2 (if s then 2 ^ (dst.width - 1) else 2 ^ (dst.width - 1) - 1)
  | _ => false

/-- One lane converted under a rounding mode. -/
def cvtLane (src dst : LaneFmt) (md : RMode) (w : Nat) : Rounded :=
  let v := src.decode w
  let sig : FFlags := match src.float with
    | some f => FFlags.when (f.isSignaling w) FFlags.invalid
    | none => 0
  let r := match dst.float with
    | some f => f.convert md (Config.nanPayload dst.width [w]) v
    | none => convertInt dst.width md v
  ⟨r.bits, r.flags ||| sig⟩

/-- The mode VCVT's rm field selects, none for stochastic rounding: 5 takes FCSR.rm, which a directed mode yields to
nearest-even for the 8-bit and integer targets. -/
def cvtMode (dst : LaneFmt) (rm fcsrRm : Nat) : Option RMode :=
  if rm = 4 then none
  else if rm = 5 then
    match dst with
    | .e4m3 | .e5m2 | .int8 | .int32 => some .nearest
    | _ => some (RMode.ofRm fcsrRm)
  else some (RMode.ofRm rm)

/-- Lanes converted in increasing order, each inexact lane under stochastic rounding taking one draw of the stream. -/
def cvtRun (src dst : LaneFmt) (md : Option RMode) : List Nat → DWord → List Rounded × DWord
  | [], g => ([], g)
  | w :: ws, g =>
    match md with
    | some m =>
      let r := cvtRun src dst md ws g
      (cvtLane src dst m w :: r.1, r.2)
    | none =>
      let g' := if cvtTakesDraw dst (src.decode w) then rngStep g else g
      let r := cvtRun src dst md ws g'
      (cvtLane src dst (.stochastic (rngDraw g')) w :: r.1, r.2)

/-- VCVT: the new vd, the flags, and the thread's stream after its draws. -/
def vcvt (src dst : LaneFmt) (rm fcsrRm part : Nat) (va vd : VWord) (g : DWord) : VRes × DWord :=
  let l := cvtLanes src dst
  let from0 := if src.lanes > dst.lanes then part * l else 0
  let to0 := if dst.lanes > src.lanes then part * l else 0
  let ins := (List.range l).map fun i => lane src.width va (from0 + i)
  let r := cvtRun src dst (cvtMode dst rm fcsrRm) ins g
  let outs := r.1.map Rounded.bits
  let all := (List.range dst.lanes).map fun i =>
    if to0 ≤ i ∧ i < to0 + l then outs.getD (i - to0) 0 else lane dst.width vd i
  (⟨ofLanes dst.width all, r.1.foldl (fun a x => a ||| x.flags) 0⟩, r.2)

end Sys2Proof
end

