-- ==== Sys2Proof/Machine/ArrayMath.lean ====
section
/-! DEFINITION. The arithmetic of the matrix array (R94 to R97, R106, R108, R115, R121 to R128, R136, R138, R147 to
R151) over plain data: alignment of a stationary load, the contributions of a pass, promotion, the check lane and the
output path. -/

namespace Sys2Proof

/-- The array's modes, coded as in the bank tags (R145). -/
inductive AMode
  | narrow | twin | fp8 | bf16 | sparse
deriving DecidableEq, Repr

def AMode.ofCode : Nat → Option AMode
  | 0 => some .narrow | 1 => some .twin | 2 => some .fp8 | 3 => some .bf16 | 4 => some .sparse | _ => none
def AMode.code : AMode → Nat
  | .narrow => 0 | .twin => 1 | .fp8 => 2 | .bf16 => 3 | .sparse => 4

/-- The window P of a mode on an array of width w (R125, R138). -/
def AMode.window (md : AMode) (w : Nat) : Nat :=
  match md with
  | .narrow | .fp8 => w
  | .twin => 2 * w
  | .bf16 => w / 2
  | .sparse => 8 * w

/-- Elements per row that a load reads on an array of width w: the full-width row (R128, R138), and in sparse mode the 8w
that R147 states. DESIGN CHOICE on a narrow core (log 118): R138 would have a sparse load read the mode table's full row
too. -/
def AMode.rowElems (md : AMode) (w : Nat) : Nat := if md = .sparse then 8 * w else md.window 64
/-- Positions of an alignment group (R96): the w positions of one entry (R138), and in sparse mode the run of 64 that R147
states. DESIGN CHOICE on a narrow core (log 119): R138 would group the w positions of one entry in sparse mode too. -/
def AMode.group (md : AMode) (w : Nat) : Nat := if md = .sparse then 64 else max w 1

/-- Modes whose loads align 8-bit activations (R96). -/
def AMode.aligns : AMode → Bool
  | .narrow | .twin | .sparse => true
  | _ => false

/-- Whether an activation format may be loaded in a mode (R125, R130). -/
def stationaryOk (md : AMode) (b : Base) : Bool :=
  match md, b with
  | .bf16, .bf16 => true
  | .bf16, _ => false
  | _, .e4m3 | _, .e5m2 | _, .mxE4m3 | _, .mxE5m2 | _, .mxInt8 | _, .int8 => true
  | _, _ => false

/-- The mode a weight header selects (R125); none where the array does not take the tensor. -/
def Header.mode (h : Header) : Option AMode :=
  if h.sparse ≠ 0 then some .sparse
  else match h.base with
    | .q4b | .q3b | .mxE2m1 => some .narrow
    | .q2b | .tri5 => some .twin
    | .e4m3 | .e5m2 | .mxE4m3 | .mxE5m2 | .mxE3m2 | .mxE2m3 => some .fp8
    | .bf16 => some .bf16
    | _ => none

/-! ## Stationary loads -/

/-- One row of a stationary bank: the original codes and scale bytes, the aligned integers with the exponent of each
group's alignment unit (R96), and the row's loss mask (R97). -/
structure BankRow where
  codes : List Nat
  scales : List Nat
  aligned : List Int
  units : List Int
  loss : List Bool
deriving DecidableEq, Repr

/-- Row counts of a load: losses, zeroings, malformed events. -/
structure LoadCounts where
  loss : Nat
  zeroed : Nat
  malformed : Nat
deriving DecidableEq, Repr

def LoadCounts.zero : LoadCounts := ⟨0, 0, 0⟩
def LoadCounts.add (a b : LoadCounts) : LoadCounts := ⟨a.loss + b.loss, a.zeroed + b.zeroed, a.malformed + b.malformed⟩

/-- Bytes of an element of a stationary row. -/
def stationaryBytes (b : Base) : Nat := if b = .bf16 then 2 else 1

/-- Bytes a load reads per row: the elements and, for MX activations, a scale byte per 32 positions (R128). -/
def rowBytes (md : AMode) (b : Base) (w : Nat) : Nat :=
  md.rowElems w * stationaryBytes b + (if b.isMX then ceilDiv (md.rowElems w) 32 else 0)

/-- The exact value of the activation at position p of a row, MX scale included; NaN, infinity and MX blocks of
scale 0xFF are zero (R68, R71). -/
def rowValue (b : Base) (codes scales : List Nat) (p : Nat) : Dy :=
  let v := (b.element (codes.getD p 0)).dy
  if b.isMX then
    match e8m0 (scales.getD (p / 32) 0) with
    | some s => v.mul s
    | none => Dy.zero
  else v

/-- Malformed events of a loaded row of `p` positions (R68, R71, R102). -/
def rowMalformed (b : Base) (codes scales : List Nat) (p : Nat) : Nat :=
  let badScale (i : Nat) : Bool := b.isMX && (e8m0 (scales.getD (i / 32) 0)).isNone
  ((List.range p).filter fun i => !badScale i && !(b.element (codes.getD i 0)).isFinite).length +
  ((List.range (ceilDiv p 32)).filter fun s => badScale (32 * s)).length

/-- The group exponent E (R96). -/
def groupExp (vs : List Dy) : Int :=
  vs.foldl (fun acc v =>
    if v.isZero then acc
    else
      let r := v.ratio
      let k := floorLog2 r.1 r.2
      match acc with
      | none => some k
      | some a => some (max a k)) (none : Option Int) |>.getD 0

/-- Aligns activations on the unit 2^u in increasing position (R96, R112). -/
def alignRun (stoch : Bool) (u : Int) : List Dy → DWord → List Int × DWord
  | [], g => ([], g)
  | v :: vs, g =>
    let r := (v.scale (-u)).ratio
    let nd := stoch && intTakesDraw r.1 r.2 127
    let g' := if nd then rngStep g else g
    let md := if nd then RMode.stochastic (rngDraw g') else RMode.nearest
    let m := min 127 (roundMagInt md (v.m < 0) r.1 r.2)
    let t := alignRun stoch u vs g'
    ((if v.m < 0 then -(m : Int) else (m : Int)) :: t.1, t.2)

/-- Aligns the groups of `w` positions of a row. -/
def alignGroups (stoch : Bool) : List (List Dy) → DWord → List (Int × List Int) × DWord
  | [], g => ([], g)
  | grp :: rest, g =>
    let u := groupExp grp - 6
    let a := alignRun stoch u grp g
    let t := alignGroups stoch rest a.2
    ((u, a.1) :: t.1, t.2)

/-- Builds one row of a bank of width w from its bytes. -/
def loadRow (md : AMode) (b : Base) (w : Nat) (stoch : Bool) (bytes : List Nat) (g : DWord) :
    BankRow × LoadCounts × DWord :=
  let p := md.window w
  let eb := stationaryBytes b
  let codes := (List.range p).map fun i => leNat ((List.range eb).map fun j => bytes.getD (i * eb + j) 0)
  let scales := if b.isMX then (List.range (ceilDiv p 32)).map fun i => bytes.getD (md.rowElems w * eb + i) 0 else []
  let vals := (List.range p).map (rowValue b codes scales)
  let mal := rowMalformed b codes scales p
  if md.aligns && b != .int8 then
    let n := md.group w
    let groups := (List.range (ceilDiv p n)).map fun i => (vals.drop (i * n)).take n
    let r := alignGroups stoch groups g
    let al := r.1.flatMap fun x => x.2
    let us := r.1.map fun x => x.1
    let pairs := (List.range p).map fun i =>
      (vals.getD i Dy.zero, (⟨al.getD i 0, us.getD (i / n) 0⟩ : Dy))
    let loss := pairs.map fun x => !(x.1.eqv x.2)
    let zeroed := (pairs.filter fun x => !x.1.isZero && x.2.isZero).length
    (⟨codes, scales, al, us, loss⟩, ⟨(loss.filter id).length, zeroed, mal⟩, r.2)
  else
    let al := if b = .int8 then codes.map fun c => sext 8 c else []
    (⟨codes, scales, al, if b = .int8 then (List.range (ceilDiv p (md.group w))).map fun _ => 0 else [],
      (List.range p).map fun _ => false⟩, ⟨0, 0, mal⟩, g)

/-- The zero row that rows h to 31 become (R128). -/
def zeroRow (md : AMode) (_b : Base) (w : Nat) : BankRow :=
  let p := md.window w
  let z := (List.range p).map fun _ => 0
  ⟨z, (List.range (ceilDiv p 32)).map fun _ => 127, z.map fun _ => (0 : Int),
    (List.range (ceilDiv p (md.group w))).map fun _ => 0, z.map fun _ => false⟩

/-- Loads h rows from their bytes, in increasing row order. -/
def loadRows (md : AMode) (b : Base) (w : Nat) (stoch : Bool) :
    List (List Nat) → DWord → List BankRow × LoadCounts × DWord
  | [], g => ([], LoadCounts.zero, g)
  | r :: rs, g =>
    let x := loadRow md b w stoch r g
    let t := loadRows md b w stoch rs x.2.2
    (x.1 :: t.1, x.2.1.add t.2.1, t.2.2)

/-- The activation of a row as the narrow path multiplies it: the aligned integer times its group's unit. -/
def BankRow.narrow (row : BankRow) (group p : Nat) : Dy := ⟨row.aligned.getD p 0, row.units.getD (p / group) 0⟩
/-- The original activation of a row, MX scale included (R108, R115, R126). -/
def BankRow.original (row : BankRow) (b : Base) (p : Nat) : Dy := rowValue b row.codes row.scales p

/-! ## Accumulator entries -/

/-- An entry as the array reads it: NaN as +0 and infinity as the largest finite value, one malformed event each
(R95). -/
def accRead (w : Nat) : Nat × Nat :=
  match fp32.decode w with
  | .nan _ _ => (0, 1)
  | .inf s => (fp32.signBit s + fp32.maxCode, 1)
  | .num _ _ _ => (w, 0)

/-- One FP32 addition into an entry (R94, R95): the new bits, saturations and malformed events. -/
def accAdd (w : Nat) (v : Dy) : Nat × Nat × Nat :=
  let e := accRead w
  let x := fp32.decode e.1
  let r := fp32.roundSum .nearest x.sign (v.m < 0) (x.dy.add v)
  if fp32.infCode ≤ r.bits % 2 ^ 31 then
    (fp32.signBit (bit r.bits 31) + fp32.maxCode, 1, e.2)
  else (r.bits, 0, e.2)

/-- A value in an n-byte counter of a record, which stops at its maximum (R100). -/
def stopAt (n v : Nat) : Nat := min v (2 ^ (8 * n) - 1)

/-! ## Passes -/

/-- What a pass streams against a bank. -/
structure PassArgs where
  hdr : Header
  /-- Address of the header. -/
  at_ : Nat
  n0 : Nat
  c : Nat
  k0 : Nat
  mode : AMode
  width : Nat
  actBase : Base
  rows : List BankRow
  /-- Product of the weight and activation tensor scales. -/
  scale : Dy
  promote : Bool
  threshold : Nat
  budget : Nat

/-- One block of one column: its terms, promotion score and cost (R106). -/
structure ColBlock where
  b : Nat
  t : BlockTerms
  score : Nat
  promoted : Bool
  declined : Bool

/-- Exact sum over the terms of a block for one row, with the activation read by `act` (R94, R108, R126). -/
def blockSum (ts : List (Nat × Dy)) (k0 : Nat) (act : Nat → Dy) : Dy :=
  Dy.sum (ts.map fun t => t.2.mul (act (t.1 - k0)))

/-- The promotion score of the scored positions (R106). -/
def promoScore (rows : List BankRow) (k0 : Nat) (ps : List Nat) : Nat :=
  (ps.map fun p => (rows.filter fun r => r.loss.getD (p - k0) false).length).foldl (· + ·) 0

/-- The blocks of one column in increasing order, deciding promotion against the budget left (R106, R107). -/
def colBlocks (a : PassArgs) (rd : Nat → Nat) (n : Nat) : List Nat → Nat → List ColBlock × Nat
  | [], bl => ([], bl)
  | b :: bs, left =>
    let hi := a.k0 + a.mode.window a.width
    let t := a.hdr.terms rd a.at_ n b a.k0 hi
    let len := a.hdr.base.blockLen
    let score := if a.mode.aligns then promoScore a.rows a.k0 t.scored else 0
    let npos := if a.mode = .sparse then t.scored.length
      else ((List.range len).filter fun i => decide (a.k0 ≤ b * len + i ∧ b * len + i < hi)).length
    let cost := ceilDiv npos 16
    let wants := a.promote && a.mode.aligns && a.actBase != .int8 && decide (a.threshold < score)
    let takes := wants && decide (cost ≤ left)
    let r := colBlocks a rd n bs (if takes then left - cost else left)
    (⟨b, t, score, takes, wants && !takes⟩ :: r.1, r.2)

/-- The block numbers of a run that overlap the window. -/
def windowBlocks (a : PassArgs) : List Nat :=
  let len := a.hdr.base.blockLen
  let b0 := a.k0 / len
  let b1 := min (ceilDiv (a.k0 + a.mode.window a.width) len) a.hdr.blocks
  (List.range (b1 - b0)).map (b0 + ·)

/-- All columns of a pass, in the order they stream. -/
def passColumns (a : PassArgs) (rd : Nat → Nat) : Nat → Nat → Nat → List (List ColBlock)
  | 0, _, _ => []
  | fuel + 1, n, left =>
    let r := colBlocks a rd (a.n0 + n) (windowBlocks a) left
    r.1 :: passColumns a rd fuel (n + 1) r.2

/-- The contribution of a column to one row as it leaves the row's end: the narrow sums of the blocks that are not
withheld, or, in FP8 and BF16 modes, the exact sums of the originals (R123, R126). -/
def columnSum (a : PassArgs) (row : BankRow) (bs : List ColBlock) : Dy :=
  let act (p : Nat) : Dy := if a.mode.aligns then row.narrow (a.mode.group a.width) p else row.original a.actBase p
  (Dy.sum ((bs.filter fun x => !x.promoted).map fun x => blockSum x.t.terms a.k0 act)).mul a.scale

/-- A promoted block's sum for one row: original activations, unit 1 (R108). -/
def promotedSum (a : PassArgs) (row : BankRow) (x : ColBlock) : Dy :=
  (blockSum x.t.terms a.k0 (row.original a.actBase)).mul a.scale

/-- The check lane's reference additions for one row of one column, block by block (R115). -/
def checkAdds (a : PassArgs) (row : BankRow) (bs : List ColBlock) : List Dy :=
  bs.map fun x => promotedSum a row x

/-! ## Error and output -/

/-- |x| of an FP32 pattern. -/
def fp32Abs (w : Nat) : Nat := w % 2 ^ 31

/-- The relative error e of R115 from the sums A_n and C_n of the sampled row. -/
def checkError (as_ cs : List Nat) : Nat :=
  let maxC := (cs.map fp32Abs).foldl max 0
  let diffs := (List.range cs.length).map fun i =>
    fp32Abs (fp32.addSub .nearest true (as_.getD i 0) (cs.getD i 0)).bits
  let maxD := diffs.foldl max 0
  if maxC ≠ 0 then
    let x := (fp32.decode maxD).dy.ratio
    let y := (fp32.decode maxC).dy.ratio
    if (fp32.decode maxD).isFinite then (fp32.round .nearest false (x.1 * y.2) (x.2 * y.1)).bits else fp32.infCode
  else if (as_.map fp32Abs).all (· == 0) then 0
  else fp32.infCode

/-- Whether e breaches the limit (R116); a NaN limit always does. -/
def checkBreach (e limit : Nat) : Bool :=
  match fp32.decode limit with
  | .nan _ _ => true
  | l => l.lt (fp32.decode e)

/-- The output formats a close may write (R130). -/
def outputFmt : Nat → Option FloatFmt
  | 0x02 => some fp32 | 0x03 => some fp16 | 0x04 => some bf16 | 0x05 => some e4m3 | 0x06 => some e5m2 | _ => none

/-- Converts an entry as read under R95 to the output format: the bits, whether the conversion saturated, and the
stream after its draw. -/
def outConvert (f : FloatFmt) (stoch : Bool) (w : Nat) (g : DWord) : Nat × Bool × DWord :=
  let v := fp32.decode w
  match v with
  | .num s m e =>
    let r := (⟨m, e⟩ : Dy).ratio
    let nd := stoch && f.takesDraw r.1 r.2
    let g' := if nd then rngStep g else g
    let x := f.round (if nd then .stochastic (rngDraw g') else .nearest) s r.1 r.2
    (x.bits, f.saturates && (x.flags &&& FFlags.overflow) != 0, g')
  | _ => (0, false, g)

end Sys2Proof
end

