-- ==== Sys2Proof/Machine/Store.lean ====
section
/-! DEFINITION. The one sparse map every store of the model uses: a list of key and value pairs in canonical form
(keys strictly rising, no value equal to what an unlisted key reads as). Memories, register files, cores, fields and
tables are all kept this way, so that equal contents are equal data. -/

namespace Sys2Proof

/-- Key and value pairs in rising key order. -/
abbrev SMap (α : Type) := List (Nat × α)

namespace SMap

variable {α : Type}

/-- The value at a key; an unlisted key reads as `d` gives. -/
def get (d : Nat → α) : SMap α → Nat → α
  | [], k => d k
  | (a, v) :: t, k => if k = a then v else get d t k

/-- Places a value whatever it is, keeping the keys strictly rising. -/
def put : SMap α → Nat → α → SMap α
  | [], k, v => [(k, v)]
  | (a, w) :: t, k, v => if k < a then (k, v) :: (a, w) :: t else if k = a then (k, v) :: t else (a, w) :: put t k v

/-- Removes a key. -/
def del (m : SMap α) (k : Nat) : SMap α := m.filter fun e => e.1 != k

/-- Writes a value; writing what an unlisted key reads as removes the entry. -/
def set [DecidableEq α] (d : Nat → α) (m : SMap α) (k : Nat) (v : α) : SMap α :=
  if v = d k then del m k else put m k v

/-- The canonical form. -/
def wf [DecidableEq α] (d : Nat → α) : SMap α → Bool
  | [] => true
  | [(a, v)] => decide (v ≠ d a)
  | (a, v) :: (b, w) :: t => decide (v ≠ d a) && decide (a < b) && wf d ((b, w) :: t)

/-- Applies a function to every listed value, dropping those that become default. -/
def mapVals [DecidableEq α] (d : Nat → α) (f : Nat → α → α) (m : SMap α) : SMap α :=
  m.foldr (fun kv acc => set d acc kv.1 (f kv.1 kv.2)) []

/-- The listed keys. -/
def keys (m : SMap α) : List Nat := m.map Prod.fst

end SMap

end Sys2Proof
end

