-- ==== Sys2Proof/Names.lean ====
section
/-! DEFINITION. The names every other file uses: core sites and fields (R12 to R19), status codes (R538), error
severities, and the packets of the mesh (R331 to R333). -/

namespace Sys2Proof

/-- A router position of the wafer in global coordinates (R15). -/
structure Site where
  x : Fin 640
  y : Fin 504
deriving DecidableEq, Repr

namespace Site

/-- The number y · 640 + x, which is also the default local endpoint (R349). -/
def key (s : Site) : Nat := s.y.val * 640 + s.x.val
/-- The site of a number; numbers at or beyond 322,560 wrap. -/
def ofKey (k : Nat) : Site := ⟨Fin.ofNat 640 (k % 640), Fin.ofNat 504 (k / 640 % 504)⟩
/-- The site at coordinates that lie on the wafer. -/
def at? (x y : Nat) : Option Site :=
  if h : x < 640 ∧ y < 504 then some ⟨⟨x, h.1⟩, ⟨y, h.2⟩⟩ else none
/-- Field coordinates and field number (R12, R16). -/
def fx (s : Site) : Nat := s.x.val / 80
def fy (s : Site) : Nat := s.y.val / 84
def field (s : Site) : Nat := 8 * s.fy + s.fx
/-- Local coordinates within the field (R16). -/
def lx (s : Site) : Nat := s.x.val % 80
def ly (s : Site) : Nat := s.y.val % 84
/-- Positions of the foreman block, which are no core sites (R17). -/
def foremanBlock (s : Site) : Bool := decide (38 ≤ s.lx ∧ s.lx ≤ 41 ∧ 40 ≤ s.ly ∧ s.ly ≤ 43)
/-- Perimeter routers of a field (R19). -/
def gallery (s : Site) : Bool := s.lx == 0 || s.lx == 79 || s.ly == 0 || s.ly == 83

end Site

/-- A field number (R12). -/
abbrev FieldNo := Fin 48

def FieldNo.fx (f : FieldNo) : Nat := f.val % 8
def FieldNo.fy (f : FieldNo) : Nat := f.val / 8
/-- The ring of a field (R14). -/
def FieldNo.ring (f : FieldNo) : Nat := min (min f.fx (7 - f.fx)) (min f.fy (5 - f.fy))

/-- The status codes of R538. -/
inductive Status
  | ok | part | timeout | windowClosed | windowStale | windowPerm | bankParked | targetSealed | noRoute
  | pathLost | eccUncorrected | poisoned | addrRange | overrun | aborted | formatInvalid | busy | denied
deriving DecidableEq, Repr

def Status.code : Status → Nat
  | .ok => 0x00 | .part => 0x01 | .timeout => 0x02 | .windowClosed => 0x03 | .windowStale => 0x04
  | .windowPerm => 0x05 | .bankParked => 0x06 | .targetSealed => 0x07 | .noRoute => 0x08 | .pathLost => 0x09
  | .eccUncorrected => 0x0A | .poisoned => 0x0B | .addrRange => 0x0C | .overrun => 0x0D | .aborted => 0x0E
  | .formatInvalid => 0x0F | .busy => 0x10 | .denied => 0x11

/-- The status a code names; codes 0x12 and above are never reported. -/
def Status.ofCode : Nat → Status
  | 0x01 => .part | 0x02 => .timeout | 0x03 => .windowClosed | 0x04 => .windowStale | 0x05 => .windowPerm
  | 0x06 => .bankParked | 0x07 => .targetSealed | 0x08 => .noRoute | 0x09 => .pathLost | 0x0A => .eccUncorrected
  | 0x0B => .poisoned | 0x0C => .addrRange | 0x0D => .overrun | 0x0E => .aborted | 0x0F => .formatInvalid
  | 0x10 => .busy | 0x11 => .denied | _ => .ok

/-- Severities of ERRLOG entries (R476). -/
inductive Severity
  | corrected | contained | jobFatal | engineFatal
deriving DecidableEq, Repr

def Severity.code : Severity → Nat
  | .corrected => 0 | .contained => 1 | .jobFatal => 2 | .engineFatal => 3

/-- The packet types of R332, with the reserved ones. -/
inductive PType
  | read | readData | write | writeAcked | ack | signalledWrite | countedWrite | tallySignal | chuteData
  | chuteControl | privRead | privWrite | directory | heartbeat | barrier | lossNotice | reserved (code : Nat)
deriving DecidableEq, Repr

def PType.code : PType → Nat
  | .read => 0x01 | .readData => 0x02 | .write => 0x03 | .writeAcked => 0x04 | .ack => 0x05
  | .signalledWrite => 0x06 | .countedWrite => 0x07 | .tallySignal => 0x08 | .chuteData => 0x09
  | .chuteControl => 0x0A | .privRead => 0x0B | .privWrite => 0x0C | .directory => 0x0D | .heartbeat => 0x0E
  | .barrier => 0x0F | .lossNotice => 0x10 | .reserved c => c

/-- The outward side of a router or of a ring (R331). -/
inductive Side
  | n | e | s | w
deriving DecidableEq, Repr

/-- Exit ports (R331): local, or outward on a side. -/
inductive Port
  | local_ | side (d : Side)
deriving DecidableEq, Repr

def Port.code : Port → Nat
  | .local_ => 0 | .side .n => 1 | .side .e => 2 | .side .s => 3 | .side .w => 4
def Port.ofCode : Nat → Option Port
  | 0 => some .local_ | 1 => some (.side .n) | 2 => some (.side .e) | 3 => some (.side .s) | 4 => some (.side .w)
  | _ => none

/-- Ring travel of a head (R331, R338): whether it is blocked in Y, and the side taken. -/
structure RingMode where
  blockedY : Bool
  side : Side
deriving DecidableEq, Repr

/-- A packet: the head's fields (R331), its payload bytes, whether it is poisoned (R322) and the virtual channel it
travels on (R332). -/
structure Packet where
  ptype : PType
  vc : Nat
  escape : Bool
  ring : Option RingMode
  status : Status
  tx : Nat
  ty : Nat
  port : Port
  dst : Nat
  src : Nat
  tag : Nat
  job : Nat
  arg : Nat
  data : Nat
  payload : List Byte
  poisoned : Bool
deriving DecidableEq, Repr

/-- The virtual channel a type travels on (R332); an ACK that answers a SIGNALLED_WRITE uses VC0 instead. -/
def PType.vc : PType → Nat
  | .readData | .ack | .signalledWrite | .chuteData => 1
  | .read | .write | .writeAcked | .countedWrite | .privRead | .privWrite => 2
  | _ => 0

/-- Whether a packet of this type, with these data, expects a response (R332, R364, R366). -/
def Packet.expectsResponse (p : Packet) : Bool :=
  match p.ptype with
  | .read | .writeAcked | .privRead | .privWrite => true
  | .signalledWrite => bit p.data 7
  | .countedWrite => bit p.data 6
  | _ => false

/-- Fixed endpoints (R537). -/
def eidStackPort (n : Nat) : Nat := 0xFFE00 + n
def eidSeam (n : Nat) : Nat := 0xFFE40 + n
def eidForeman (f : Nat) : Nat := 0xFFF00 + f
def eidHostA : Nat := 0xFFFF0
def eidHostB : Nat := 0xFFFF1
def eidPithead : Nat := 0xFFFFE
/-- Chip number and local endpoint of an EID. -/
def eidChip (e : Nat) : Nat := bits e 31 20
def eidLocal (e : Nat) : Nat := bits e 19 0
/-- Whether an EID names a core endpoint (R348). -/
def eidIsCore (e : Nat) : Bool := eidLocal e < 0xFFE00

/-- Who accesses a register (R534, R535). -/
inductive Requester
  | hostA | hostB | pithead | foreman (f : FieldNo) | thread (site : Site) (t : Fin 4)
deriving DecidableEq, Repr

/-- A number for each requester, by which captured halves are kept apart (R534). -/
def Requester.num : Requester → Nat
  | .hostA => 0 | .hostB => 1 | .pithead => 2 | .foreman f => 3 + f.val | .thread s t => 64 + 4 * s.key + t.val

/-- The number of a host port: 0 for A, 1 for B. -/
def Requester.port? : Requester → Option Nat
  | .hostA => some 0 | .hostB => some 1 | _ => none

/-- The host of a port. -/
def hostOf (p : Nat) : Requester := if p = 0 then .hostA else .hostB

/-- Registers of a host port's configuration space (R401, R402, R421): identity, class code, subsystem, power state, payload and
read request sizes, MSI-X control, the errors AER has logged, ECRC, and the six BAR registers. -/
inductive CfgReg
  | id | classCode | subsystem | power | device | msix | aer | ecrc
  | bar (n : Fin 6)
deriving DecidableEq, Repr

/-- A register by the way it is reached: by register-space offset (R526), on a core's page (R62), by a configuration request of
a host to its port, or in the port's BAR4 (R402). -/
inductive RegAddr
  | space (off : Nat)
  | core (site : Site) (off : Nat)
  | config (r : CfgReg)
  | bar4 (off : Nat)
deriving DecidableEq, Repr

end Sys2Proof
end

