-- ==== Sys2Proof/Machine/CoreTypes.lean ====
section
/-! DEFINITION. The state of one core (*Anatomy of a Core* and the chapters it names) as plain data: threads, units and
their values after a core reset. Registers that no unit's own structure holds live in `Core.regs`, by page offset. -/

namespace Sys2Proof.Machine

/-! ## Threads (R170, R171, R180) -/

/-- What a thread does; WAIT_HOLD is how a RUNNING or WAIT_REMOTE thread reads while its field is frozen (R180). -/
inductive ThreadState
  | stopped | running | waitTally | waitChute | waitRemote | trapped
deriving DecidableEq, Repr

/-- A remote operation of a thread as R195 gives it: operands already read from the registers. -/
inductive RemoteOp
  /-- Remote read into gd. -/
  | rld (d addr : Nat)
  | rst (addr data : Nat)
  | rsta (addr data : Nat)
  | rsig (addr data tally : Nat)
  | rput (addr length loff mode tally : Nat)
  | rget (addr length loff : Nat) (signal : Bool) (tally : Nat)
  | rtsig (eid tally inc : Nat)
deriving DecidableEq, Repr

/-- The waiting instruction of a thread, with what completing it needs. -/
inductive Wait
  | none
  /-- TWAIT or TBAR on a tally, gd receiving the outcome. -/
  | tally (d i : Nat)
  /-- A TWAIT or TBAR that was released while the field is frozen: the thread leaves its wait at release (R180). -/
  | released (d : Nat) (st : Status)
  | cput (e d : Nat)
  | vcput (e d : Nat)
  | cget (e d : Nat)
  | vcget (e d : Nat)
  | cropen (e : Nat)
  /-- A remote operation waiting for a free tag (R54). -/
  | tag (op : RemoteOp)
  | rfence (d : Nat)
  /-- The next instruction needs registers that outstanding RLDs will write (R180), or the thread stops once they have
  ended (R560). -/
  | rldResult (need : List Nat) (stopAfter : Bool)
  /-- AFENCE, stalled at issue though RUNNING, until every command numbered below `upTo` has ended (R131, R191). -/
  | afence (d upTo : Nat)
  /-- VSWAIT, stalled at issue though RUNNING (R166, R189). -/
  | vswait (d : Nat)
deriving DecidableEq, Repr

/-- Where a hold of R203 stands: its ARRAY_CHECK is not yet taken; its handler runs; it has made the thread TRAPPED; or its
handler has been left in neither way that R203 names, so that nothing but a clearing of the array ends it. -/
inductive HoldStage
  | pending | handled | trapped | left
deriving DecidableEq, Repr

/-- An asynchronous exception not yet taken (R200): cause, status and EVAL. -/
structure AsyncExc where
  cause : Nat
  status : Nat
  eval : DWord
deriving DecidableEq, Repr

structure Thread where
  /-- g1 to g31; g0 is not stored (R41). -/
  g : SMap DWord
  /-- p1 to p7; p0 is not stored (R170). -/
  p : BitVec 8
  pc : Nat
  state : ThreadState
  wait : Wait
  handler : Bool
  epc : DWord
  ecause : DWord
  eval : DWord
  fcsr : DWord
  rstatus : DWord
  scratch : DWord
  /-- Asynchronous exceptions detected and not yet taken. -/
  async : List AsyncExc
  /-- Those detected while the thread waited for an RLD's result: the waiting instruction completes first (R200). -/
  late : List AsyncExc
  /-- Registers an outstanding RLD will write, with the tag that holds it (R179). -/
  pendingG : List (Nat × Nat)
  /-- First status other than OK of this thread's array commands since its last AFENCE (R191). -/
  firstArray : Status
deriving DecidableEq, Repr

def Thread.reset : Thread :=
  { g := [], p := 0, pc := 0, state := .stopped, wait := .none, handler := false, epc := 0, ecause := 0, eval := 0
    fcsr := 0, rstatus := 0, scratch := 0, async := [], late := [], pendingG := [], firstArray := .ok }

/-! ## Memory -/

/-- The state of a bank (R277); a closing bank may already have a wake waiting (R278). -/
inductive Bank
  | active | closing (wake : Bool) | parked | waking
deriving DecidableEq, Repr

/-- The SECDED state of a 128-bit word (R283, R284). An uncorrectable word remembers whether it has been reported,
and a correctable one whether a write-back waits (R286). -/
inductive Ecc
  | clean | single (writeBack : Bool) | double (reported : Bool)
deriving DecidableEq, Repr

/-- A window (R267, R287). -/
structure Win where
  open_ : Bool
  closing : Bool
  openPending : Bool
  peerMode : Nat
  generation : Nat
  write : Bool
  read : Bool
  base : Word
  size : Word
  peer : Word
deriving DecidableEq, Repr

def Win.reset : Win :=
  { open_ := false, closing := false, openPending := false, peerMode := 0, generation := 0, write := false
    read := false, base := 0, size := 0, peer := 0 }

/-! ## Tallies (R356) -/

/-- A thread blocked on a tally. -/
structure Waiter where
  thread : Nat
  next : Bool
  /-- Engine time of expiry; 0 when the wait has none (R363). -/
  deadline : Nat
  /-- A TBAR's wait, released by its round; otherwise a TWAIT's. -/
  barrier : Bool
deriving DecidableEq, Repr

/-- A remote party released when the tally fires or its round closes. -/
structure Reg where
  eid : Nat
  tally : Nat
  child : Bool
  next : Bool
deriving DecidableEq, Repr

structure Tally where
  value : Nat
  target : Nat
  barrier : Bool
  round : Nat
  early : Nat
  forwarded : Bool
  parentEn : Bool
  parentEid : Nat
  parentTally : Nat
  waiters : List Waiter
  regs : List Reg
  lastEid : Nat
  lastTime : Nat
  surplus : Bool
  saturated : Bool
deriving DecidableEq, Repr

def Tally.reset : Tally :=
  { value := 0, target := 0, barrier := false, round := 0, early := 0, forwarded := false, parentEn := false
    parentEid := 0, parentTally := 0, waiters := [], regs := [], lastEid := 0, lastTime := 0, surplus := false
    saturated := false }

/-! ## Chutes (R238 to R263) -/

inductive Role
  | unbound | producer | consumer
deriving DecidableEq, Repr

/-- What a producer's send buffer holds, in order: an entry, the length slot of a record it opens, or the mark that
closes the open record (R246, R252, R333). -/
inductive Pend
  | entry (v : DWord)
  | opened (seq : Nat)
  | closed (seq : Nat)
deriving DecidableEq, Repr

/-- What has arrived at a consumer and not yet landed. -/
inductive Landing
  | entry (v : DWord)
  | opened (seq : Nat)
  | closed (seq : Nat)
deriving DecidableEq, Repr

/-- A record in a consumer's ring (R251 to R254): the ring entries it holds, slot first. -/
structure RingRec where
  seq : Nat
  entries : Nat
  closed : Bool
  popped : Nat
  spoiled : Bool
deriving DecidableEq, Repr

/-- One chute endpoint. -/
structure Chute where
  role : Role
  record : Bool
  async : Bool
  size : Nat
  ready : Bool
  recOpen : Bool
  refusing : Bool
  underrun : Bool
  misuse : Bool
  bindError : Bool
  fault : Bool
  peerEp : Nat
  base : Nat
  peer : Word
  frame : Word
  lost : Nat
  /-- Producer: it still repeats its bind request (R241). -/
  requesting : Bool
  /-- Producer: entries pushed since binding. -/
  pushed : Nat
  /-- Producer: releases reported by the latest read-pointer update. -/
  released : Nat
  /-- Producer: the endpoint's part of the send buffer. -/
  pend : List Pend
  /-- Producer: entries sent since binding. -/
  sent : Nat
  /-- Producer: seq of the next record opened. -/
  nextSeq : Nat
  /-- Consumer: the producer's binding has been granted (R241). -/
  granted : Bool
  /-- Consumer: entries landed and entries released since binding. -/
  landed : Nat
  taken : Nat
  /-- Consumer: arrivals waiting for the stream port. -/
  waiting : List Landing
  /-- Consumer: records in the ring, oldest first (record chutes). -/
  recs : List RingRec
  /-- Consumer: last entry popped since binding (R257). -/
  lastPop : DWord
  /-- Consumer: releases reported in the last read-pointer update sent. -/
  reported : Nat
  /-- A discarded packet has been reported (R261); a spoiled record has been reported (R254). -/
  discardSeen : Bool
  spoilSeen : Bool
  /-- CORE_CLK cycle of the field at which the pointer it follows last changed (R244), and of its last push (R246). -/
  moved : Nat
  pushedAt : Nat
  /-- Producer: entries that a cursor has pushed and that wait for the send buffer, or for the producer to be ready. -/
  late : List DWord
deriving DecidableEq, Repr

def Chute.reset : Chute :=
  { role := .unbound, record := false, async := false, size := 0, ready := false, recOpen := false, refusing := false
    underrun := false, misuse := false, bindError := false, fault := false, peerEp := 0, base := 0, peer := 0
    frame := 0, lost := 0, requesting := false, pushed := 0, released := 0, pend := [], sent := 0, nextSeq := 0, granted := false
    landed := 0, taken := 0, waiting := [], recs := [], lastPop := 0, reported := 0, discardSeen := false
    spoilSeen := false, moved := 0, pushedAt := 0, late := [] }

/-! ## Address book and tags (R350 to R353, R54, R345) -/

/-- An address-book entry: the HI register as installed with the LO value then held, and the LO register (R353). -/
structure BookEntry where
  lo : Word
  eid : Word
  hi : Word
deriving DecidableEq, Repr

def BookEntry.reset : BookEntry := ⟨0, 0, 0⟩

/-- What holds a remote request tag. -/
inductive TagUse
  /-- A remote read whose data go to gd. -/
  | rld (d : Nat)
  | rsta
  /-- An RPUT from a remote offset. -/
  | rput (roff : Nat)
  /-- An RGET to a local offset from a remote one, with the tally it signals. -/
  | rget (loff roff : Nat) (signal : Option Nat)
  /-- An address-book miss for an EID (R55). -/
  | miss (eid : Nat)
deriving DecidableEq, Repr

/-- A packet that waits for the answer to its address-book miss: the tag of the miss, or none while the miss itself
waits for one (R54, R55). -/
structure Held where
  tag : Option Nat
  pkt : Packet
deriving DecidableEq, Repr

structure Tag where
  use : TagUse
  /-- The thread whose operation holds the tag, none for a unit of the core. -/
  thread : Option Nat
  /-- Engine time at issue. -/
  since : Nat
  /-- The operation's packets in order: bytes or answers still missing, and the status each has had. -/
  parts : List (Nat × Status)
  /-- The status the operation has met at the requester itself (R195, R281). -/
  own : Status
deriving DecidableEq, Repr

/-! ## Shifts and steering (R209 to R222) -/

/-- A scheduled flit: 32 bytes of data and the schedule's sideband bits (R215). -/
structure Flit where
  data : List Byte
  void : Bool
  tokValid : Bool
  token : Nat
deriving DecidableEq, Repr

def Flit.mkVoid : Flit := ⟨[], true, false, 0⟩

/-- A shift slot: the 2,048 descriptor bytes and whether they are a valid load (R208). -/
structure ShiftSlot where
  bytes : SMap Byte
  valid : Bool
deriving DecidableEq, Repr

def ShiftSlot.empty : ShiftSlot := ⟨[], false⟩

/-- A steering unit's queues: the token queue (R221), the waiting register (R220) and the pairing queues (R222). -/
structure Steer where
  tokens : List Nat
  /-- The waiting flit, the slot entry it fired in and, in merge mode, the candidate it stands on. -/
  waiting : Option (Flit × Nat × Nat)
  dataQ : List DWord
  tokenQ : List Nat
deriving DecidableEq, Repr

def Steer.reset : Steer := ⟨[], none, [], []⟩

/-! ## The matrix array (R121 to R145) -/

/-- A stationary bank's state (R129). A bank in use by a pass is held as ready: which passes use it says whether it reads
as in use. -/
inductive BankState
  | empty | loading | ready | inUse
deriving DecidableEq, Repr

structure ABank where
  state : BankState
  mode : AMode
  base : Base
  format : Nat
  src : Nat
  rowsM1 : Nat
  scale : Nat
  rows : List BankRow
  counts : LoadCounts
  /-- Number of the load that filled the bank, by which a tile counts each load once. -/
  loadNo : Nat
deriving DecidableEq, Repr

def ABank.reset : ABank :=
  { state := .empty, mode := .narrow, base := .e4m3, format := 0, src := 0, rowsM1 := 0, scale := 0, rows := []
    counts := LoadCounts.zero, loadNo := 0 }

/-- The counters of an assay record in the making (R99). -/
structure Counts where
  blocks : Nat
  worstScore : Nat
  worstBlock : Nat
  saturations : Nat
  alignLoss : Nat
  alignZeroed : Nat
  malformed : Nat
  exceptions : Nat
  excOverflow : Nat
  sparseRange : Nat
  promotions : Nat
  declined : Nat
deriving DecidableEq, Repr

def Counts.zero : Counts := ⟨0, 0, 0, 0, 0, 0, 0, 0, 0, 0, 0, 0⟩

/-- A tile slot (R132 to R136). -/
structure Tile where
  open_ : Bool
  closing : Bool
  poisoned : Bool
  mode : AMode
  a0 : Nat
  m : Nat
  number : Nat
  /-- The row the check lane recomputes, if the tile is sampled (R114). -/
  sampled : Option Nat
  counts : Counts
  /-- Weight format and sparse pattern of the tile's latest pass (R99). -/
  format : Nat
  pattern : Nat
  /-- The check lane's sums A_n and C_n, as FP32 patterns by accumulator column (R115). -/
  sumA : SMap Nat
  sumC : SMap Nat
  /-- Loads already counted into the record. -/
  fed : List Nat
  /-- An ERRLOG code is raised at most once per tile (R117). -/
  raised : List Nat
deriving DecidableEq, Repr

def Tile.reset : Tile :=
  { open_ := false, closing := false, poisoned := false, mode := .narrow, a0 := 0, m := 0, number := 0, sampled := none
    counts := Counts.zero, format := 0, pattern := 0, sumA := [], sumC := [], fed := [], raised := [] }

/-- The queued commands (R130, R190) with their operand words and issuer; none is the schedule (R132). -/
inductive ACmdKind
  | aload | aopen | apass | aclose
deriving DecidableEq, Repr

structure ACmd where
  no : Nat
  kind : ACmdKind
  ga : DWord
  gb : DWord
  issuer : Option Nat
deriving DecidableEq, Repr

/-- A close that has started: its command, the slot, whether it still waits for passes, and its status once run. -/
structure AClose where
  cmd : ACmd
  slot : Nat
  /-- Status with which it ends, once CLOSE_RUN has happened. -/
  ran : Option Status
deriving DecidableEq, Repr

/-- A pass that has started and not ended: its command, tile slot, bank, and the status it ends with. Cycles are the field's
unheld CORE_CLK cycles. -/
structure APassRun where
  cmd : ACmd
  slot : Nat
  bank : Nat
  status : Status
  /-- Cycle f(c − 1) of its last word (R122), the cycles by which the stages after it come later (R124, R126, R154), and its
  budget cycles (R107). -/
  lastWord : Nat
  lag : Nat
  budget : Nat
  /-- The banks its words are issued to, with their cycles (R52, R127). -/
  port : List (Nat × Nat)
deriving DecidableEq, Repr

/-- Its last budget cycle; the cycle from which its bank is no longer in use (R129); and the one at which it ends (R131). R124
raises the numbers of R122; DESIGN CHOICE (log 138): the quadrant of the last column's words raises these two as well. -/
def APassRun.budgetEnd (p : APassRun) : Nat := p.lastWord + p.budget
def APassRun.bankFree (p : APassRun) : Nat := p.lastWord + p.lag + 101 + p.budget
def APassRun.ends (p : APassRun) : Nat := p.lastWord + p.lag + 131 + p.budget

structure ArrayState where
  banks : SMap ABank
  tiles : SMap Tile
  /-- FP32 entries by number r · 256 + n. -/
  acc : SMap Nat
  queue : List ACmd
  /-- The running load: its command, bank and the status it ends with. -/
  load : Option (ACmd × Nat × Status)
  /-- The cycles in which the running load issues words, with their banks (R127, R128). -/
  loadPort : List (Nat × Nat)
  /-- Opens that have started and not ended, oldest first, each with its slot. -/
  opening : List (ACmd × Nat)
  /-- Passes that have started and not ended, oldest first. -/
  passes : List APassRun
  closes : List AClose
  /-- Number of the next command queued. -/
  nextNo : Nat
  lastStatus : Status
  loadNo : Nat
  /-- Sequence number of the next assay record (R98). -/
  seq : Nat
  /-- R203's holds: threads that must take an ARRAY_CHECK and return from it before a pass starts, each with whether it has
  taken it, oldest first. -/
  checkHold : List (Nat × HoldStage)
  /-- Place in the fixed pattern of tailings: idle cycles modulo 100 (R439). -/
  idle : Nat
  /-- The field's unheld cycle up to which BUSY_CYCLES is counted (R145). -/
  busyFrom : Nat
deriving DecidableEq, Repr

def ArrayState.reset : ArrayState :=
  { banks := [], tiles := [], acc := [], queue := [], load := none, loadPort := [], opening := [], passes := [], closes := []
    nextNo := 0, lastStatus := .ok, loadNo := 0, seq := 0, checkHold := [], idle := 0, busyFrom := 0 }

/-- A running SpMV operation (R157 to R167): descriptor offset and fields as read at its start, and its issuer. -/
structure Spmv where
  format : Nat
  accumulate : Bool
  blocked : Bool
  rows : Nat
  cols : Nat
  rowPtr : Nat
  colIdx : Nat
  values : Nat
  x : Nat
  y : Nat
  /-- row_ptr[0] and the last row_ptr entry, read before any row is dispatched. -/
  first : Nat
  last : Nat
  /-- The status of the checks made at its start, and the field's unheld cycle of it. -/
  start : Status
  since : Nat
deriving DecidableEq, Repr

/-! ## The core -/

structure Core where
  regs : SMap Word
  threads : SMap Thread
  v : SMap VWord
  /-- Instruction-buffer lines by line number (offset ÷ 64): the 64 bytes as fetched. -/
  ibuf : SMap (List Byte)
  /-- SRAM bytes by place in the banks: bank · 8,192 + byte in the bank (R46, R47). -/
  sram : SMap Byte
  /-- Check state of the words by bank · 512 + word. -/
  ecc : SMap Ecc
  banks : SMap Bank
  wins : SMap Win
  tallies : SMap Tally
  chutes : SMap Chute
  /-- Threads that wait on chutes, in the order in which they issued (R259). -/
  chuteWait : List Nat
  book : SMap BookEntry
  /-- Book entries from least to most recently used (R351). -/
  bookUse : List Nat
  tags : SMap (Option Tag)
  tagEpoch : SMap Nat
  /-- Packets that wait for the directory, oldest first. -/
  missWait : List Held
  shifts : SMap ShiftSlot
  /-- The active shift: its slot, and the descriptor as copied at the switch; none is the empty shift (R227). -/
  active : Option (Nat × SMap Byte)
  /-- Threads that beat 0 of the switch in progress starts (R228). -/
  entering : List Nat
  cursorPos : SMap Nat
  delay : List Flit
  /-- Flits received on inputs N, E, S and W in the previous beat. -/
  inputs : SMap (Option Flit)
  /-- Cursor reads on their way: beats still to wait and the flit (R213). -/
  reads : List (Nat × Flit)
  steer : SMap Steer
  shiftLoad : Option (Nat × Nat)
  array : ArrayState
  spmv : Option Spmv
  spmvLast : Status
  /-- Generator streams 0 to 4 (R111) and the low halves written and not yet loaded (R113). -/
  rng : SMap DWord
  seedLo : SMap Word
  /-- The field's unheld CORE_CLK cycles at the core's reset, from which CYCLES counts (R171). -/
  cycles : Nat
  /-- The local endpoint (R349); none is the default y · 640 + x. -/
  eidLocal : Option Nat
  /-- Codes already reported once for the current shift activation (R217, R219, R328). -/
  shiftRaised : List Nat
  /-- Latched _HI halves (R534): requester number, page offset and value. -/
  latch : SMap (Nat × Word)
  /-- The hold request of this core (R223): its cause, none while it raises none. -/
  holdReq : Option Nat
  /-- Consecutive scheduled beats seen on each output (R328), by port code 1 to 4. -/
  schedRun : SMap Nat
  /-- The field's CORE_CLK cycle in which each waking bank began to wake (R280). -/
  wakeAt : SMap Nat
  /-- The field's CORE_CLK time up to which CORE.HOLD_REQ is counted while the request stands (R236). -/
  holdFrom : Nat
  /-- The field's CORE_CLK cycle up to which CORE.SRAM_CONFLICT is counted (R50). -/
  conflictFrom : Nat
  /-- The field's CORE_CLK cycle of the scrubber's last read (R285). -/
  scrubAt : Nat
deriving DecidableEq, Repr

/-- The state of the generator streams after reset (R120). -/
def rngReset : DWord := 0x5D0EA1D57A11B0CE#64

/-- A core right after a core reset, with memory that reads zero. -/
def Core.reset : Core :=
  { regs := [], threads := [], v := [], ibuf := [], sram := [], ecc := [], banks := [], wins := [], tallies := []
    chutes := [], chuteWait := [], book := [], bookUse := [], tags := [], tagEpoch := [], missWait := [], shifts := [], active := none
    entering := [], cursorPos := [], delay := [], inputs := [], reads := [], steer := [], shiftLoad := none
    array := ArrayState.reset, spmv := none, spmvLast := .ok, rng := [], seedLo := [], cycles := 0, eidLocal := none
    shiftRaised := [], latch := [], holdReq := none, wakeAt := [], holdFrom := 0, schedRun := [], conflictFrom := 0, scrubAt := 0 }

end Sys2Proof.Machine
end

