-- ==== Sys2Proof/Machine/RegTables.lean ====
section
/-! DEFINITION. The register tables of every page, row by row as the chapters give them: offsets, what reset leaves,
and which bits a write stores (RW), clears (W1C) or a read clears (RC). Bits that no mask names are read-only, reserved
or act as their own rule says. A reset value the spec takes from elsewhere (flash, fuses, the harvest map) is 0 here and
comes from the state behind the register when it is read. -/

namespace Sys2Proof.Machine

/-- One row: a register, or `count` registers `stride` bytes apart. -/
structure RegSpec where
  base : Nat
  count : Nat
  stride : Nat
  reset : Nat
  rw : Nat
  w1c : Nat
  rc : Nat
deriving DecidableEq, Repr

/-- Whether an offset is one of the row's registers. -/
def RegSpec.has (r : RegSpec) (off : Nat) : Bool :=
  decide (r.base ≤ off) && decide (off < r.base + r.count * r.stride) && (off - r.base) % r.stride == 0

/-- The rows of R531. -/
def pageRegs : List RegSpec := [
  ⟨0x000, 1, 4, 0x1, 0x0, 0x0, 0x0⟩,  -- PAGE_ID
  ⟨0x004, 1, 4, 0x1, 0x0, 0x0, 0x0⟩,  -- PAGE_CAPS
  ⟨0x008, 1, 4, 0x0, 0x0, 0x0, 0x0⟩,  -- PAGE_STATUS
  ⟨0x00C, 1, 4, 0x0, 0x0, 0x0, 0x0⟩,  -- PAGE_CTRL
  ⟨0x010, 1, 4, 0x0, 0x0, 0xF, 0x0⟩,  -- PAGE_ERR
  ⟨0x014, 1, 4, 0x0, 0xF, 0x0, 0x0⟩,  -- PAGE_ERR_MASK
  ⟨0x018, 1, 4, 0x0, 0x0, 0x80000000, 0x0⟩,  -- PAGE_ERR_FIRST
  ⟨0x01C, 1, 4, 0x0, 0x0, 0x0, 0xFFFFFFFF⟩]  -- PAGE_EVENT_CNT

/-- The rows of R63, R64, R205, R236, R288. -/
def coreCtlRegs : List RegSpec := [
  ⟨0x040, 1, 4, 0x0, 0x0, 0x0, 0x0⟩,  -- CORE.SITE
  ⟨0x044, 1, 4, 0x0, 0xF, 0x80000000, 0x0⟩,  -- CORE.RUN
  ⟨0x048, 1, 4, 0x0, 0x0, 0x0, 0x0⟩,  -- CORE.THREAD_STATE
  ⟨0x04C, 1, 4, 0x0, 0x0, 0x0, 0x0⟩,  -- CORE.SHIFT_STATE
  ⟨0x050, 4, 4, 0x0, 0x1FFFC, 0x0, 0x0⟩,  -- CORE.PC0 to CORE.PC3
  ⟨0x060, 1, 4, 0x0, 0xF, 0x0, 0x0⟩,  -- CORE.SRAM_MAP
  ⟨0x064, 1, 4, 0x0, 0x0, 0x0, 0xFFFFFFFF⟩,  -- CORE.SRAM_CONFLICT
  ⟨0x068, 1, 4, 0x0, 0x0, 0x0, 0x0⟩,  -- CORE.TAGS
  ⟨0x070, 1, 4, 0x0, 0x1FFFD, 0x0, 0x0⟩,  -- CORE.TVEC
  ⟨0x080, 4, 4, 0x0, 0x0, 0x80000000, 0x0⟩,  -- CORE.TRAP0 to CORE.TRAP3
  ⟨0x090, 1, 4, 0x0, 0x7001FFFF, 0x0, 0x0⟩,  -- CORE.SHIFT_LOAD
  ⟨0x094, 1, 4, 0x0, 0x0, 0x0, 0x0⟩,  -- CORE.SHIFT_HOME
  ⟨0x098, 2, 4, 0x0, 0x0, 0x0, 0x0⟩,  -- CORE.STEER_TQ0 and CORE.STEER_TQ1
  ⟨0x0A0, 1, 4, 0x0, 0x0, 0x0, 0x0⟩,  -- CORE.STEER_STATUS
  ⟨0x0A4, 1, 4, 0x0, 0x0, 0x0, 0xFFFFFFFF⟩,  -- STEER_DISCARDS (0x0A4)
  ⟨0x0A8, 1, 4, 0x0, 0x0, 0x0, 0xFFFFFFFF⟩,  -- STEER_BAD_TOKEN (0x0A8)
  ⟨0x0AC, 1, 4, 0x0, 0x0, 0x0, 0xFFFFFFFF⟩,  -- STEER_EMPTY (0x0AC)
  ⟨0x0B0, 1, 4, 0x0, 0x0, 0x0, 0xFFFFFFFF⟩,  -- HOLD_REQ (0x0B0)
  ⟨0x0B4, 1, 4, 0x0, 0x0, 0x0, 0x0⟩,  -- CORE.DRAIN_STATE
  ⟨0x0B8, 1, 4, 0x0, 0x0, 0x0, 0x0⟩,  -- CORE.MEM_PARK
  ⟨0x0BC, 1, 4, 0x0, 0x0, 0x0, 0x0⟩,  -- CORE.MEM_PARK_STATE
  ⟨0x0C0, 1, 4, 0x80000400, 0x80000FFF, 0x0, 0x0⟩,  -- CORE.MEM_SCRUB
  ⟨0x0C4, 1, 4, 0x0, 0x0, 0x80000000, 0x0⟩,  -- CORE.MEM_ECC_FIRST
  ⟨0x0E8, 1, 4, 0x0, 0x0, 0x80000000, 0x0⟩,  -- CORE.MEM_REFUSE_LAST
  ⟨0x0EC, 1, 4, 0x0, 0x0, 0x0, 0x0⟩,  -- CORE.MEM_REFUSE_EID
  ⟨0x0C8, 1, 4, 0x0, 0x0, 0x0, 0xFFFFFFFF⟩,  -- MEM_ECC_CORRECTED (0x0C8)
  ⟨0x0CC, 1, 4, 0x0, 0x0, 0x0, 0xFFFFFFFF⟩,  -- MEM_ECC_UNCORR (0x0CC)
  ⟨0x0D0, 1, 4, 0x0, 0x0, 0x0, 0xFFFFFFFF⟩,  -- MEM_REFUSE_CLOSED (0x0D0)
  ⟨0x0D4, 1, 4, 0x0, 0x0, 0x0, 0xFFFFFFFF⟩,  -- MEM_REFUSE_STALE (0x0D4)
  ⟨0x0D8, 1, 4, 0x0, 0x0, 0x0, 0xFFFFFFFF⟩,  -- MEM_REFUSE_PERM (0x0D8)
  ⟨0x0DC, 1, 4, 0x0, 0x0, 0x0, 0xFFFFFFFF⟩,  -- MEM_REFUSE_RANGE (0x0DC)
  ⟨0x0E0, 1, 4, 0x0, 0x0, 0x0, 0xFFFFFFFF⟩,  -- MEM_REFUSE_PARKED (0x0E0)
  ⟨0x0E4, 1, 4, 0x0, 0x0, 0x0, 0xFFFFFFFF⟩]  -- MEM_SCHED_PARKED (0x0E4)

/-- The rows of R145. -/
def arrayRegs : List RegSpec := [
  ⟨0x100, 1, 4, 0x0, 0x17F, 0x0, 0x0⟩,  -- ARRAY.CTRL
  ⟨0x104, 1, 4, 0x0, 0x0, 0x0, 0x0⟩,  -- ARRAY.STATUS
  ⟨0x108, 1, 4, 0x0, 0x0, 0x0, 0x0⟩,  -- ARRAY.BANK0_TAG
  ⟨0x10C, 1, 4, 0x0, 0x0, 0x0, 0x0⟩,  -- ARRAY.BANK1_TAG
  ⟨0x110, 2, 4, 0x0, 0x0, 0x0, 0x0⟩,  -- ARRAY.TILE0 and ARRAY.TILE1
  ⟨0x118, 1, 4, 0x0, 0x0, 0x0, 0x0⟩,  -- ARRAY.WIDTH
  ⟨0x11C, 1, 4, 0x0, 0x0, 0x0, 0xFFFFFFFF⟩,  -- RESIDUE_ERRORS (0x11C)
  ⟨0x120, 1, 4, 0x0, 0x0, 0x0, 0xFFFFFFFF⟩,  -- PASSES (0x120)
  ⟨0x124, 1, 4, 0x0, 0x0, 0x0, 0xFFFFFFFF⟩,  -- BUSY_CYCLES (0x124)
  ⟨0x128, 1, 4, 0x0, 0x0, 0x0, 0xFFFFFFFF⟩,  -- BUBBLES (0x128)
  ⟨0x12C, 1, 4, 0x0, 0x0, 0x0, 0xFFFFFFFF⟩]  -- TAILINGS_CYCLES (0x12C)

/-- The rows of R120. -/
def assayRegs : List RegSpec := [
  ⟨0x140, 1, 4, 0xC08, 0x1F9F1E, 0x0, 0x0⟩,  -- ASSAY.CTRL
  ⟨0x144, 1, 4, 0x8, 0xFFFFFF, 0x0, 0x0⟩,  -- ASSAY.PROMOTE_THRESHOLD
  ⟨0x148, 1, 4, 0x3C000000, 0xFFFFFFFF, 0x0, 0x0⟩,  -- ASSAY.XCHECK_LIMIT
  ⟨0x14C, 1, 4, 0x0, 0xFFFF, 0x0, 0x0⟩,  -- ASSAY.XCHECK_PHASE
  ⟨0x150, 1, 4, 0x0, 0xFFFFFFFF, 0x0, 0x0⟩,  -- ASSAY.TILE_COUNT
  ⟨0x154, 1, 4, 0x0, 0x0, 0x3F, 0x0⟩,  -- ASSAY.STATUS
  ⟨0x158, 1, 4, 0x0, 0x0, 0x0, 0x0⟩,  -- ASSAY.XCHECK_LAST
  ⟨0x160, 5, 8, 0x7A11B0CE, 0xFFFFFFFF, 0x0, 0x0⟩,  -- ASSAY.SR_SEEDs_LO
  ⟨0x164, 5, 8, 0x5D0EA1D5, 0xFFFFFFFF, 0x0, 0x0⟩,  -- ASSAY.SR_SEEDs_HI
  ⟨0x188, 1, 4, 0x0, 0x0, 0x0, 0xFFFFFFFF⟩,  -- TOTAL_SAT (0x188)
  ⟨0x18C, 1, 4, 0x0, 0x0, 0x0, 0xFFFFFFFF⟩,  -- TOTAL_ALIGN_LOSS (0x18C)
  ⟨0x190, 1, 4, 0x0, 0x0, 0x0, 0xFFFFFFFF⟩,  -- TOTAL_ALIGN_ZERO (0x190)
  ⟨0x194, 1, 4, 0x0, 0x0, 0x0, 0xFFFFFFFF⟩,  -- TOTAL_MALFORMED (0x194)
  ⟨0x198, 1, 4, 0x0, 0x0, 0x0, 0xFFFFFFFF⟩,  -- TOTAL_EXC (0x198)
  ⟨0x19C, 1, 4, 0x0, 0x0, 0x0, 0xFFFFFFFF⟩,  -- TOTAL_PROMOTED (0x19C)
  ⟨0x1A0, 1, 4, 0x0, 0x0, 0x0, 0xFFFFFFFF⟩,  -- TOTAL_DECLINED (0x1A0)
  ⟨0x1A4, 1, 4, 0x0, 0x0, 0x0, 0xFFFFFFFF⟩,  -- XCHECK_SAMPLED (0x1A4)
  ⟨0x1A8, 1, 4, 0x0, 0x0, 0x0, 0xFFFFFFFF⟩,  -- XCHECK_BREACHES (0x1A8)
  ⟨0x1AC, 1, 4, 0x0, 0x0, 0x0, 0xFFFFFFFF⟩,  -- RECORDS_LOST (0x1AC)
  ⟨0x1B0, 1, 4, 0x0, 0x0, 0x0, 0xFFFFFFFF⟩]  -- TOTAL_SPARSE_RANGE (0x1B0)

/-- The rows of R168. -/
def spmvRegs : List RegSpec := [
  ⟨0x1C0, 1, 4, 0x40, 0x1FFF, 0x0, 0x0⟩,  -- SPMV.SPLIT_LEN
  ⟨0x1C4, 1, 4, 0x0, 0x0, 0xE, 0x0⟩,  -- SPMV.STATUS
  ⟨0x1C8, 1, 4, 0x0, 0x0, 0x0, 0x0⟩,  -- SPMV.FAIL_ROW
  ⟨0x1CC, 1, 4, 0x0, 0x0, 0x0, 0x1F⟩,  -- SPMV.QUEUE_PEAK
  ⟨0x1D0, 1, 4, 0x0, 0x0, 0x0, 0xFFFFFFFF⟩,  -- NNZ (0x1D0)
  ⟨0x1D4, 1, 4, 0x0, 0x0, 0x0, 0xFFFFFFFF⟩,  -- ENTRIES (0x1D4)
  ⟨0x1D8, 1, 4, 0x0, 0x0, 0x0, 0xFFFFFFFF⟩,  -- SPLIT_ROWS (0x1D8)
  ⟨0x1DC, 1, 4, 0x0, 0x0, 0x0, 0xFFFFFFFF⟩,  -- STALL_CYCLES (0x1DC)
  ⟨0x1E0, 1, 4, 0x0, 0x0, 0x0, 0xFFFFFFFF⟩,  -- RANGE (0x1E0)
  ⟨0x1E4, 1, 4, 0x0, 0x0, 0x0, 0xFFFFFFFF⟩]  -- MALFORMED_ROWS (0x1E4)

/-- The rows of R352, R353. -/
def routerRegs : List RegSpec := [
  ⟨0x200, 1, 4, 0x0, 0xFFFFF, 0x0, 0x0⟩,  -- ROUTER.EID
  ⟨0x204, 1, 4, 0x0, 0x0, 0x0, 0x0⟩,  -- ROUTER.PORTS
  ⟨0x208, 1, 4, 0x0, 0x0, 0x0, 0x0⟩,  -- ROUTER.RING_LO
  ⟨0x20C, 1, 4, 0x0, 0x0, 0x0, 0x0⟩,  -- ROUTER.RING_HI
  ⟨0x210, 1, 4, 0xFA, 0xFFFF, 0x0, 0x0⟩,  -- ROUTER.TIMEOUT
  ⟨0x214, 1, 4, 0x0, 0x0, 0x80000000, 0x0⟩,  -- ROUTER.NOTICE_LAST
  ⟨0x218, 1, 4, 0x0, 0x0, 0x0, 0x0⟩,  -- ROUTER.NOTICE_EID
  ⟨0x21C, 1, 4, 0x0, 0x3F, 0x0, 0x0⟩,  -- ROUTER.SLOT_SEL
  ⟨0x220, 1, 4, 0x0, 0x0, 0x0, 0x0⟩,  -- ROUTER.SLOT_LO
  ⟨0x224, 1, 4, 0x0, 0x0, 0x0, 0x0⟩,  -- ROUTER.SLOT_HI
  ⟨0x230, 1, 4, 0x0, 0x0, 0x0, 0xFFFFFFFF⟩,  -- FLITS_SCHED (0x230)
  ⟨0x234, 4, 4, 0x0, 0x0, 0x0, 0xFFFFFFFF⟩,  -- FLITS_VC0 to FLITS_VC3 (0x234 to 0x240)
  ⟨0x244, 1, 4, 0x0, 0x0, 0x0, 0xFFFFFFFF⟩,  -- ESCAPES (0x244)
  ⟨0x248, 1, 4, 0x0, 0x0, 0x0, 0xFFFFFFFF⟩,  -- RING_HOPS (0x248)
  ⟨0x24C, 1, 4, 0x0, 0x0, 0x0, 0xFFFFFFFF⟩,  -- CRC_ERRORS (0x24C)
  ⟨0x250, 1, 4, 0x0, 0x0, 0x0, 0xFFFFFFFF⟩,  -- BUDGET_BREACH (0x250)
  ⟨0x254, 1, 4, 0x0, 0x0, 0x0, 0xFFFFFFFF⟩,  -- NOTICES_IN (0x254)
  ⟨0x258, 1, 4, 0x0, 0x0, 0x0, 0xFFFFFFFF⟩,  -- TIMEOUTS (0x258)
  ⟨0x25C, 1, 4, 0x0, 0x0, 0x0, 0xFFFFFFFF⟩,  -- BOOK_MISSES (0x25C)
  ⟨0x800, 256, 8, 0x0, 0xFFFFFFFF, 0x0, 0x0⟩,  -- ROUTER.BOOKi_LO
  ⟨0x804, 256, 8, 0x0, 0xFFFFFF80, 0x0, 0x0⟩]  -- ROUTER.BOOKi_HI

/-- The rows of R287. -/
def winRegs : List RegSpec := [
  ⟨0x300, 16, 16, 0x0, 0x98000003, 0x0, 0x0⟩,  -- WIN.CTRLw
  ⟨0x304, 16, 16, 0x0, 0x1FFC0, 0x0, 0x0⟩,  -- WIN.BASEw
  ⟨0x308, 16, 16, 0x0, 0x3FFC0, 0x0, 0x0⟩,  -- WIN.SIZEw
  ⟨0x30C, 16, 16, 0x0, 0xFFFFFFFF, 0x0, 0x0⟩]  -- WIN.PEERw

/-- The rows of R379. -/
def tallyRegs : List RegSpec := [
  ⟨0x400, 64, 8, 0x0, 0xFFFFFFFF, 0x0, 0x0⟩,  -- TALLY.VALUEi
  ⟨0x404, 64, 8, 0x0, 0xFFFFFFFF, 0x0, 0x0⟩]  -- TALLY.TARGETi

/-- The rows of R263. -/
def chuteRegs : List RegSpec := [
  ⟨0x600, 32, 16, 0x0, 0xFF00FFFF, 0x180000, 0x0⟩,  -- CHUTE.CFGe
  ⟨0x604, 32, 16, 0x0, 0xFFFFFFFF, 0x0, 0x0⟩,  -- CHUTE.PEERe
  ⟨0x608, 32, 16, 0x0, 0xFFFFFFFF, 0x0, 0x0⟩,  -- CHUTE.FRAMEe
  ⟨0x60C, 32, 16, 0x0, 0x0, 0x0, 0xFFFF0000⟩]  -- CHUTE.STATEe

/-- The rows of R235, R490. -/
def fieldctlRegs : List RegSpec := [
  ⟨0x040, 1, 4, 0x0, 0x20000701, 0x4, 0x0⟩,  -- FIELDCTL.ROT_CTRL
  ⟨0x044, 1, 4, 0x0, 0x0, 0x0, 0x0⟩,  -- FIELDCTL.BEAT
  ⟨0x054, 1, 4, 0x0, 0x0, 0x0, 0x0⟩,  -- FIELDCTL.HOLD_FIRST
  ⟨0x058, 1, 4, 0x10000, 0xFFFFFFFF, 0x0, 0x0⟩,  -- FIELDCTL.DRAIN_LIMIT
  ⟨0x05C, 1, 4, 0x0, 0x0, 0xC0000000, 0x0⟩,  -- FIELDCTL.DRAIN_STATUS
  ⟨0x060, 8, 8, 0x0, 0xFFFFFFFF, 0x0, 0x0⟩,  -- FIELDCTL.ROT_STEPk_LO
  ⟨0x064, 8, 8, 0x0, 0x3F07, 0x0, 0x0⟩,  -- FIELDCTL.ROT_STEPk_HI
  ⟨0x048, 1, 4, 0x0, 0x0, 0x0, 0xFFFFFFFF⟩,  -- HOLD_CYCLES (0x048)
  ⟨0x04C, 1, 4, 0x0, 0x0, 0x0, 0xFFFFFFFF⟩,  -- HOLD_EVENTS (0x04C)
  ⟨0x050, 1, 4, 0x0, 0x0, 0x0, 0xFFFFFFFF⟩,  -- SWITCH_CYCLES (0x050)
  ⟨0x0A0, 1, 4, 0x0, 0x0, 0x0, 0x0⟩,  -- FIELDCTL.BRINGUP
  ⟨0x0A4, 1, 4, 0x30064, 0xFFFFF, 0x0, 0x0⟩,  -- FIELDCTL.HEARTBEAT
  ⟨0x0A8, 1, 4, 0x0, 0x1FFFFC00, 0x0, 0x0⟩,  -- FIELDCTL.CORE_RESET
  ⟨0x0AC, 1, 4, 0x0, 0x0, 0x0, 0xFFFFFFFF⟩]  -- FIELDCTL.SEALS

/-- The rows of R455. -/
def fieldpwrRegs : List RegSpec := [
  ⟨0x040, 1, 4, 0x0, 0x0, 0x0, 0x0⟩,  -- FIELDPWR.STATE
  ⟨0x044, 1, 4, 0xF, 0xF, 0x0, 0x0⟩,  -- FIELDPWR.STEP_REQ
  ⟨0x048, 1, 4, 0x0, 0x0, 0x0, 0x0⟩,  -- FIELDPWR.VOLT
  ⟨0x04C, 1, 4, 0x0, 0x0, 0x0, 0x0⟩,  -- FIELDPWR.TEMP
  ⟨0x050, 1, 4, 0x0, 0x0, 0x0, 0x0⟩,  -- FIELDPWR.POWER
  ⟨0x054, 1, 4, 0x32, 0xFF, 0x0, 0x0⟩,  -- FIELDPWR.DROOP
  ⟨0x058, 1, 4, 0x0, 0x0, 0x0, 0xFFFFFFFF⟩,  -- DROOP_EVENTS (0x058)
  ⟨0x05C, 1, 4, 0x0, 0x0, 0x0, 0xFFFFFFFF⟩,  -- STRETCH_CYCLES (0x05C)
  ⟨0x060, 1, 4, 0x0, 0x0, 0x0, 0xFFFFFFFF⟩,  -- STEP_CHANGES (0x060)
  ⟨0x064, 1, 4, 0x0, 0x0, 0x0, 0xFFFFFFFF⟩,  -- STEP_FAULTS (0x064)
  ⟨0x070, 1, 4, 0x8000000A, 0x8000007F, 0x0, 0x0⟩,  -- TAILINGS.FLOOR_PCT
  ⟨0x074, 1, 4, 0xA, 0xFF, 0x0, 0x0⟩,  -- TAILINGS.RAMP_US
  ⟨0x078, 1, 4, 0x40, 0x0, 0x0, 0x0⟩]  -- TAILINGS.STATE

/-- The rows of R456. -/
def throttleRegs : List RegSpec := [
  ⟨0x040, 10, 16, 0x0, 0x0, 0x0, 0x0⟩,  -- THROTTLE.USr_LO
  ⟨0x044, 10, 16, 0x0, 0x0, 0x0, 0x0⟩,  -- USr_HI
  ⟨0x048, 10, 16, 0x0, 0x0, 0x0, 0x0⟩,  -- LASTr_LO
  ⟨0x04C, 10, 16, 0x0, 0x0, 0x0, 0x0⟩,  -- LASTr_HI
  ⟨0x0E0, 1, 4, 0x0, 0x0, 0x0, 0x0⟩,  -- THROTTLE.WAIT_PACE_LO
  ⟨0x0E4, 1, 4, 0x0, 0x0, 0x0, 0x0⟩,  -- WAIT_PACE_HI
  ⟨0x0E8, 1, 4, 0x0, 0x0, 0x0, 0x0⟩,  -- WAIT_LAST_LO
  ⟨0x0EC, 1, 4, 0x0, 0x0, 0x0, 0x0⟩,  -- WAIT_LAST_HI
  ⟨0x0F0, 1, 4, 0x0, 0x0, 0x0, 0x0⟩]  -- THROTTLE.CLEAR

/-- The rows of R491. -/
def harvestRegs : List RegSpec := [
  ⟨0x040, 1, 4, 0x0, 0x0, 0x0, 0x0⟩,  -- HARVEST.COUNTS0
  ⟨0x044, 1, 4, 0x0, 0x0, 0x0, 0x0⟩,  -- COUNTS1
  ⟨0x048, 1, 4, 0x0, 0x0, 0x0, 0x0⟩,  -- HOLES
  ⟨0x04C, 1, 4, 0x0, 0x3FFF, 0x0, 0x0⟩,  -- HARVEST.SITE_SEL
  ⟨0x050, 1, 4, 0x0, 0x0, 0x0, 0x0⟩]  -- HARVEST.SITE_DATA

/-- The rows of R354. -/
def routeRegs : List RegSpec := [
  ⟨0x040, 1, 4, 0x0, 0x0, 0x0, 0x0⟩,  -- ROUTE.STATUS
  ⟨0x044, 1, 4, 0x1000, 0xFFFFFFFF, 0x0, 0x0⟩,  -- ROUTE.PARK_DRAIN
  ⟨0x048, 1, 4, 0x0, 0x0, 0x0, 0xFFFFFFFF⟩,  -- CRC_ERRORS (0x048)
  ⟨0x04C, 1, 4, 0x0, 0x0, 0x0, 0xFFFFFFFF⟩]  -- LINKS_DEAD (0x04C)

/-- The rows of R381. -/
def canaryRegs : List RegSpec := [
  ⟨0x040, 1, 4, 0x100000, 0xFFFFFFFF, 0x0, 0x0⟩,  -- CANARY.WINDOW
  ⟨0x044, 1, 4, 0x3, 0x3, 0x0, 0x0⟩,  -- CANARY.CTRL
  ⟨0x048, 1, 4, 0x0, 0x0, 0x20000000, 0x0⟩,  -- CANARY.STATUS
  ⟨0x04C, 1, 4, 0x0, 0xFFFFF0, 0x0, 0x0⟩,  -- CANARY.SNAP_OFF
  ⟨0x050, 1, 4, 0x1000, 0xFFFF, 0x0, 0x0⟩,  -- CANARY.SNAP_MAX
  ⟨0x054, 1, 4, 0x0, 0x0, 0x0, 0x0⟩,  -- CANARY.SNAP_COUNT
  ⟨0x058, 1, 4, 0x0, 0x0, 0x0, 0x0⟩,  -- WAKES (0x058)
  ⟨0x05C, 1, 4, 0x0, 0x0, 0x0, 0xFFFFFFFF⟩,  -- LONG_HOLDS (0x05C)
  ⟨0x060, 1, 4, 0x0, 0x0, 0x0, 0xFFFFFFFF⟩]  -- QUIET_CYCLES (0x060)

/-- The rows of R492. -/
def errlogRegs : List RegSpec := [
  ⟨0x040, 1, 4, 0x0, 0x0, 0x0, 0x0⟩,  -- ERRLOG.HEAD
  ⟨0x044, 1, 4, 0x0, 0x0, 0x0, 0xFFFFFFFF⟩,  -- ERRLOG.LOST
  ⟨0x048, 1, 4, 0x0, 0x0, 0x0, 0x0⟩]  -- ERRLOG.CLEAR

/-- The rows of R380. -/
def tallydbgRegs : List RegSpec := [
  ⟨0x040, 1, 4, 0x0, 0x5FFFFC3F, 0x0, 0x0⟩,  -- TALLYDBG.SEL
  ⟨0x044, 1, 4, 0x0, 0x0, 0x0, 0x0⟩,  -- value (0x044)
  ⟨0x048, 1, 4, 0x0, 0x0, 0x0, 0x0⟩,  -- target (0x048)
  ⟨0x04C, 1, 4, 0x0, 0xFFFF0000, 0x0, 0x0⟩,  -- TALLYDBG.ROUND
  ⟨0x050, 1, 4, 0x0, 0xC3F00000, 0x18000000, 0x0⟩,  -- TALLYDBG.CTRL
  ⟨0x054, 1, 4, 0x0, 0xFFFFFFFF, 0x0, 0x0⟩,  -- eid (0x054)
  ⟨0x058, 1, 4, 0x0, 0x0, 0x0, 0x0⟩,  -- eid (0x058)
  ⟨0x060, 1, 4, 0x0, 0x0, 0x0, 0x0⟩,  -- TALLYDBG.LAST_TIME_LO
  ⟨0x064, 1, 4, 0x0, 0x0, 0x0, 0x0⟩,  -- TALLYDBG.LAST_TIME_HI
  ⟨0x070, 4, 8, 0x0, 0x0, 0x0, 0x0⟩,  -- TALLYDBG.DEADLINEt_LO
  ⟨0x074, 4, 8, 0x0, 0x0, 0x0, 0x0⟩,  -- TALLYDBG.DEADLINEt_HI
  ⟨0x090, 8, 8, 0x0, 0x0, 0x0, 0x0⟩,  -- TALLYDBG.REGj_LO
  ⟨0x094, 8, 8, 0x0, 0x0, 0x0, 0x0⟩,  -- TALLYDBG.REGj_HI
  ⟨0x0D0, 1, 4, 0x0, 0x0, 0x0, 0x0⟩]  -- TALLYDBG.COMMIT

/-- The rows of R541. -/
def galleryRegs : List RegSpec := [
  ⟨0x040, 1, 4, 0x0, 0x0, 0x0, 0x0⟩,  -- GALLERY.STATE
  ⟨0x044, 1, 4, 0x0, 0x0, 0x0, 0xFFFFFFFF⟩,  -- CHANGEOVERS (0x044)
  ⟨0x048, 1, 4, 0x0, 0x0, 0x0, 0xFFFFFFFF⟩]  -- DETOUR_HEADS (0x048)

/-- The rows of R542. -/
def coreaccRegs : List RegSpec := [
  ⟨0x040, 1, 4, 0x0, 0x7FFFFFFE, 0x0, 0x0⟩,  -- COREACC.SEL
  ⟨0x044, 1, 4, 0x0, 0xFFFFFFFF, 0x0, 0x0⟩,  -- COREACC.DATA
  ⟨0x048, 1, 4, 0x0, 0x0, 0x0, 0x0⟩]  -- COREACC.STATUS

/-- The rows of R319. -/
def hoistRegs : List RegSpec := [
  ⟨0x040, 1, 4, 0x0, 0xFFFFFFC0, 0x0, 0x0⟩,  -- HOIST.RING_LO
  ⟨0x044, 1, 4, 0x0, 0xFFFF, 0x0, 0x0⟩,  -- HOIST.RING_HI
  ⟨0x048, 1, 4, 0x0, 0x1F, 0x0, 0x0⟩,  -- HOIST.RING_SIZE
  ⟨0x04C, 1, 4, 0x0, 0x0, 0x0, 0x0⟩,  -- HOIST.DOORBELL
  ⟨0x050, 1, 4, 0x0, 0x0, 0x0, 0x0⟩,  -- HOIST.HEAD
  ⟨0x054, 1, 4, 0x0, 0x3, 0x0, 0x0⟩,  -- HOIST.CTRL
  ⟨0x058, 1, 4, 0x0, 0x0, 0x8, 0x0⟩,  -- HOIST.STATUS
  ⟨0x05C, 1, 4, 0x0, 0x0, 0x0, 0xFFFFFFFF⟩,  -- HOIST.DONE
  ⟨0x060, 1, 4, 0x0, 0x0, 0xF, 0x0⟩,  -- HOIST.PACK_STATUS
  ⟨0x064, 1, 4, 0x0, 0x0, 0x0, 0xFFFFFFFF⟩,  -- PACK_SAT (0x064)
  ⟨0x068, 1, 4, 0x0, 0x0, 0x0, 0xFFFFFFFF⟩,  -- PACK_MALFORMED (0x068)
  ⟨0x06C, 1, 4, 0x0, 0x0, 0x0, 0xFFFFFFFF⟩,  -- PACK_EXC (0x06C)
  ⟨0x070, 1, 4, 0x0, 0x0, 0x0, 0xFFFFFFFF⟩,  -- PACK_EXC_OVERFLOW (0x070)
  ⟨0x074, 1, 4, 0x0, 0x0, 0x0, 0xFFFFFFFF⟩,  -- PACK_PRUNED (0x074)
  ⟨0x078, 1, 4, 0x0, 0x0, 0x0, 0xFFFFFFFF⟩,  -- PACK_RECORDS (0x078)
  ⟨0x07C, 1, 4, 0x0, 0x0, 0x0, 0xFFFFFFFF⟩]  -- PACK_PRUNED_MASS (0x07C)

/-- The rows of R318. -/
def stackportRegs : List RegSpec := [
  ⟨0x040, 1, 4, 0x0, 0x0, 0x80, 0x0⟩,  -- STACKPORT.STATE
  ⟨0x044, 1, 4, 0x0, 0x1, 0x2, 0x0⟩,  -- STACKPORT.INTERLEAVE
  ⟨0x048, 1, 4, 0x0, 0x0, 0x0, 0x0⟩,  -- STACKPORT.ECC_FIRST_LO
  ⟨0x04C, 1, 4, 0x0, 0x0, 0x80000000, 0x0⟩,  -- STACKPORT.ECC_FIRST_HI
  ⟨0x050, 1, 4, 0x80000018, 0x800000FF, 0x0, 0x0⟩,  -- STACKPORT.SCRUB
  ⟨0x054, 1, 4, 0x0, 0x0, 0x0, 0xFFFFFFFF⟩,  -- ECC_CORRECTED (0x054)
  ⟨0x058, 1, 4, 0x0, 0x0, 0x0, 0xFFFFFFFF⟩,  -- ECC_UNCORR (0x058)
  ⟨0x05C, 1, 4, 0x0, 0x0, 0x0, 0xFFFFFFFF⟩]  -- PARTS_FAILED (0x05C)

/-- The rows of R399. -/
def seamRegs : List RegSpec := [
  ⟨0x040, 1, 4, 0x0, 0x3F03, 0x0, 0x0⟩,  -- SEAM.CTRL
  ⟨0x044, 1, 4, 0x0, 0x0, 0x0, 0x0⟩,  -- SEAM.STATE
  ⟨0x048, 1, 4, 0x0, 0x0, 0x0, 0x0⟩,  -- SEAM.PEER
  ⟨0x050, 1, 4, 0x0, 0x0, 0x0, 0xFFFFFFFF⟩,  -- FRAMES_TX (0x050)
  ⟨0x054, 1, 4, 0x0, 0x0, 0x0, 0xFFFFFFFF⟩,  -- FRAMES_RX (0x054)
  ⟨0x058, 1, 4, 0x0, 0x0, 0x0, 0xFFFFFFFF⟩,  -- REPLAYS (0x058)
  ⟨0x05C, 1, 4, 0x0, 0x0, 0x0, 0xFFFFFFFF⟩,  -- CRC_ERRORS (0x05C)
  ⟨0x060, 1, 4, 0x0, 0x0, 0x0, 0xFFFFFFFF⟩,  -- FEC_CORRECTED (0x060)
  ⟨0x064, 1, 4, 0x0, 0x0, 0x0, 0xFFFFFFFF⟩,  -- FEC_UNCORR (0x064)
  ⟨0x068, 1, 4, 0x0, 0x0, 0x0, 0xFFFFFFFF⟩,  -- TRUNCATED (0x068)
  ⟨0x06C, 1, 4, 0x0, 0x0, 0x0, 0xFFFFFFFF⟩,  -- NO_ROUTE (0x06C)
  ⟨0x080, 1, 4, 0x0, 0xFFF, 0x80000000, 0x0⟩,  -- SEAM.CHIP
  ⟨0x084, 1, 4, 0x0, 0xFFF, 0x0, 0x0⟩,  -- SEAM.CRT_INDEX
  ⟨0x088, 1, 4, 0x0, 0xFFFFFFFF, 0x0, 0x0⟩]  -- SEAM.CRT_DATA

/-- The rows of R489, R540. -/
def pitheadRegs : List RegSpec := [
  ⟨0x040, 1, 4, 0x0, 0x0, 0x0, 0x0⟩,  -- PITHEAD.BOOT
  ⟨0x044, 1, 4, 0x0, 0x0, 0x0, 0x0⟩,  -- PITHEAD.HARVEST_CTRL
  ⟨0x048, 1, 4, 0x0, 0x0, 0x0, 0x0⟩,  -- PITHEAD.HARVEST_GEN
  ⟨0x04C, 1, 4, 0x0, 0x0, 0x0, 0x0⟩,  -- PITHEAD.ENABLED
  ⟨0x050, 1, 4, 0x0, 0x3F, 0x0, 0x0⟩,  -- PITHEAD.RESET
  ⟨0x054, 1, 4, 0x0, 0xFFFFF000, 0x0, 0x0⟩,  -- PITHEAD.FAULT_BASE_LO
  ⟨0x058, 1, 4, 0x0, 0xFFFF, 0x0, 0x0⟩,  -- FAULT_BASE_HI
  ⟨0x05C, 1, 4, 0x10, 0xFFFF, 0x0, 0x0⟩,  -- FAULT_SLOTS
  ⟨0x060, 1, 4, 0x0, 0x0, 0x0, 0x0⟩,  -- MODULE_SERIAL_LO (0x060)
  ⟨0x064, 1, 4, 0x0, 0x0, 0x0, 0x0⟩,  -- MODULE_SERIAL_HI (0x064)
  ⟨0x068, 1, 4, 0x0, 0x0, 0x0, 0x0⟩,  -- FW_SEQ (0x068)
  ⟨0x06C, 1, 4, 0x0, 0x0, 0x0, 0x0⟩,  -- BOOTS (0x06C)
  ⟨0x070, 1, 4, 0x0, 0x0, 0x0, 0x0⟩,  -- TIME_LO (0x070)
  ⟨0x074, 1, 4, 0x0, 0x0, 0x0, 0x0⟩]  -- TIME_HI (0x074)

/-- The rows of R425. -/
def jobRegs : List RegSpec := [
  ⟨0x040, 8, 4, 0x0, 0xFFFFFFFF, 0x0, 0x0⟩,  -- JOB.SLATE0 to JOB.SLATE7
  ⟨0x060, 1, 4, 0x0, 0x0, 0x0, 0x0⟩,  -- JOB.ARM
  ⟨0x064, 1, 4, 0x0, 0x0, 0x0, 0x0⟩,  -- JOB.CANCEL
  ⟨0x068, 1, 4, 0x0, 0x0, 0x80000000, 0x0⟩,  -- JOB.STATUS
  ⟨0x06C, 1, 4, 0x0, 0x0, 0x0, 0x0⟩,  -- JOB.IDS
  ⟨0x070, 1, 4, 0x0, 0x0, 0x0, 0x0⟩,  -- JOB.SEQ
  ⟨0x080, 8, 4, 0x0, 0x0, 0x0, 0x0⟩]  -- JOB.LAST0 to JOB.LAST7

/-- The rows of R458. -/
def envRegs : List RegSpec := [
  ⟨0x040, 1, 4, 0x1C2, 0xFFFF, 0x0, 0x0⟩,  -- ENV.INLET
  ⟨0x044, 1, 4, 0xC8, 0xFFFF, 0x0, 0x0⟩,  -- ENV.FLOW
  ⟨0x048, 1, 4, 0x61A8, 0xFFFF, 0x0, 0x0⟩,  -- ENV.BUDGET
  ⟨0x04C, 1, 4, 0x15E, 0xFFFF, 0x0, 0x0⟩,  -- ENV.AMBIENT
  ⟨0x050, 1, 4, 0x0, 0x0, 0x0, 0x0⟩,  -- ENV.STAMP
  ⟨0x054, 1, 4, 0x0, 0x0, 0x0, 0x0⟩,  -- ENV.STAMP_TIME_LO
  ⟨0x058, 1, 4, 0x0, 0x0, 0x0, 0x0⟩,  -- ENV.STAMP_TIME_HI
  ⟨0x05C, 1, 4, 0x1, 0x0, 0x0, 0x0⟩]  -- ENV.STATUS

/-- The rows of R457. -/
def modpwrRegs : List RegSpec := [
  ⟨0x040, 1, 4, 0x61A8, 0xFFFF, 0x0, 0x0⟩,  -- MODPWR.CAP
  ⟨0x044, 1, 4, 0xF, 0xF, 0x0, 0x0⟩,  -- MODPWR.HOST_STEP
  ⟨0x048, 1, 4, 0x5, 0x1FF, 0x0, 0x0⟩,  -- MODPWR.CTRL
  ⟨0x04C, 1, 4, 0x0, 0x0, 0x0, 0x0⟩,  -- MODPWR.PARK_REQ
  ⟨0x050, 1, 4, 0x0, 0x0, 0x0, 0x0⟩,  -- MODPWR.PARK_STATUS
  ⟨0x054, 1, 4, 0x0, 0x0, 0x10000000, 0x0⟩,  -- MODPWR.STOP
  ⟨0x058, 1, 4, 0x1, 0x0, 0x0, 0x0⟩,  -- MODPWR.STATUS
  ⟨0x05C, 1, 4, 0x0, 0x0, 0x0, 0x0⟩,  -- MODPWR.POWER
  ⟨0x060, 1, 4, 0x61A8, 0x0, 0x0, 0x0⟩]  -- MODPWR.BUDGET

/-- The rows of R522. -/
def securityRegs : List RegSpec := [
  ⟨0x040, 1, 4, 0x0, 0x0, 0x0, 0x0⟩,  -- SECURITY.LOCK
  ⟨0x044, 1, 4, 0x0, 0x0, 0x0, 0x0⟩,  -- SECURITY.FUSE
  ⟨0x048, 1, 4, 0x0, 0x0, 0x0, 0x0⟩,  -- SECURITY.ID_STATUS
  ⟨0x04C, 1, 4, 0x0, 0x0, 0x0, 0x0⟩,  -- SECURITY.DEBUG
  ⟨0x050, 1, 4, 0x0, 0xFFFF, 0x0, 0x0⟩,  -- SECURITY.MBOX_CMD
  ⟨0x054, 1, 4, 0x0, 0x0, 0x0, 0x0⟩,  -- SECURITY.MBOX_STATUS
  ⟨0x058, 1, 4, 0x0, 0xFFF, 0x0, 0x0⟩,  -- SECURITY.MBOX_LEN
  ⟨0x100, 64, 4, 0x0, 0x0, 0x0, 0x0⟩,  -- SECURITY.MEASUREi
  ⟨0x200, 896, 4, 0x0, 0xFFFFFFFF, 0x0, 0x0⟩]  -- SECURITY.MBOX_DATA

/-- The rows of R493. -/
def aditRegs : List RegSpec := [
  ⟨0x040, 1, 4, 0x0, 0x0, 0x0, 0x0⟩,  -- path (PATH_LO, 0x040)
  ⟨0x044, 1, 4, 0x0, 0x0, 0x0, 0x0⟩,  -- path (PATH_HI, 0x044)
  ⟨0x048, 1, 4, 0x0, 0x0, 0x0, 0x0⟩,  -- unreach (UNREACH_LO, 0x048)
  ⟨0x04C, 1, 4, 0x0, 0x0, 0x0, 0x0⟩,  -- unreach (UNREACH_HI, 0x04C)
  ⟨0x050, 1, 4, 0x0, 0x0, 0x0, 0xFFFFFFFF⟩,  -- CRC_ERRORS (0x050)
  ⟨0x054, 1, 4, 0x0, 0x0, 0x0, 0xFFFFFFFF⟩,  -- SWITCHES (0x054)
  ⟨0x058, 1, 4, 0x0, 0x0, 0x0, 0xFFFF⟩]  -- skew (SKEW, 0x058)

/-- The rows of R424. -/
def hostportRegs : List RegSpec := [
  ⟨0x040, 1, 4, 0x0, 0x0, 0x0, 0x0⟩,  -- HOSTPORT.LINK
  ⟨0x044, 1, 4, 0x0, 0x0, 0x3, 0x0⟩,  -- HOSTPORT.STATUS
  ⟨0x048, 1, 4, 0x0, 0x3FFFF, 0x0, 0x0⟩,  -- HOSTPORT.APERTURE
  ⟨0x050, 1, 4, 0x0, 0x0, 0x0, 0x0⟩,  -- HOSTPORT.APERTURE_ERR_LO
  ⟨0x054, 1, 4, 0x0, 0x0, 0x80000000, 0x0⟩,  -- HOSTPORT.APERTURE_ERR_HI
  ⟨0x058, 1, 4, 0x0, 0x0, 0x0, 0x0⟩,  -- HOSTPORT.KEEPER
  ⟨0x05C, 1, 4, 0x0, 0x0, 0x0, 0x0⟩,  -- HOSTPORT.HEARTBEAT
  ⟨0x060, 1, 4, 0x3E8, 0xFFFF, 0x0, 0x0⟩,  -- HOSTPORT.HEARTBEAT_LIMIT
  ⟨0x064, 1, 4, 0x0, 0xFFFF, 0x0, 0x0⟩,  -- HOSTPORT.HOIST_DIR
  ⟨0x068, 1, 4, 0x0, 0x3, 0x0, 0x0⟩]  -- HOSTPORT.ATTR

/-- The registers of a core page (R62). -/
def corePageRegs : List RegSpec :=
  pageRegs ++ coreCtlRegs ++ arrayRegs ++ assayRegs ++ spmvRegs ++ routerRegs ++ winRegs ++ tallyRegs ++ chuteRegs

/-- The registers of a page by its block type code (R527 to R529). -/
def blockRegs (code : Nat) : List RegSpec :=
  pageRegs ++
  match code with
  | 0x01 => pitheadRegs
  | 0x02 => jobRegs
  | 0x03 => envRegs
  | 0x04 => modpwrRegs
  | 0x05 => securityRegs
  | 0x06 => aditRegs
  | 0x07 => hostportRegs
  | 0x10 => fieldctlRegs
  | 0x11 => fieldpwrRegs
  | 0x12 => throttleRegs
  | 0x13 => harvestRegs
  | 0x14 => routeRegs
  | 0x15 => canaryRegs
  | 0x16 => errlogRegs
  | 0x17 => coreaccRegs
  | 0x18 => galleryRegs
  | 0x19 => tallydbgRegs
  | 0x20 => stackportRegs
  | 0x21 => hoistRegs
  | 0x30 => seamRegs
  | 0x40 => corePageRegs
  | _ => []

/-- The row of an offset in a table. -/
def findReg : List RegSpec → Nat → Option RegSpec
  | [], _ => none
  | r :: rs, off => if r.has off then some r else findReg rs off

/-- What a stored register holds after reset. -/
def regReset (rs : List RegSpec) (off : Nat) : Word :=
  match findReg rs off with
  | some r => BitVec.ofNat 32 r.reset
  | none => 0

/-- The stored value a write leaves by the row's masks (R533). -/
def RegSpec.write (r : RegSpec) (old v : Word) : Word :=
  let rw := BitVec.ofNat 32 r.rw
  let w1c := BitVec.ofNat 32 r.w1c
  ((old &&& ~~~rw) ||| (v &&& rw)) &&& ~~~(v &&& w1c)

end Sys2Proof.Machine
end

