-- ==== Sys2Proof/Machine/CoreOps.lean ====
section
/-! DEFINITION. Named operations on one core's state: its registers, threads, banks and SRAM bytes. -/

namespace Sys2Proof.Machine

/-! ## Registers of the core page -/

/-- A stored register of the page, by offset. -/
def Core.reg (c : Core) (off : Nat) : Word := c.regs.get (regReset corePageRegs) off
def Core.setReg (c : Core) (off : Nat) (v : Word) : Core :=
  { c with regs := c.regs.set (regReset corePageRegs) off v }
/-- Field [hi:lo] of a stored register. -/
def Core.regBits (c : Core) (off hi lo : Nat) : Nat := bits (c.reg off).toNat hi lo
def Core.regBit (c : Core) (off i : Nat) : Bool := bit (c.reg off).toNat i
def Core.setRegBits (c : Core) (off hi lo v : Nat) : Core :=
  c.setReg off (BitVec.ofNat 32 (putBits (c.reg off).toNat hi lo v))
/-- Sets bit `i` of a stored register. -/
def Core.setFlag (c : Core) (off i : Nat) : Core := c.setRegBits off i i 1

/-- Adds to a counter that stops at its maximum (R101). -/
def satAdd (w : Word) (n : Nat) : Word := BitVec.ofNat 32 (min (w.toNat + n) 0xFFFFFFFF)
def Core.count (c : Core) (off n : Nat) : Core := if n = 0 then c else c.setReg off (satAdd (c.reg off) n)

/-- Sets CORE.RUN.write_refused (R63). -/
def Core.refuse (c : Core) : Core := c.setFlag 0x044 31

/-! ## Threads -/

def Core.thread (c : Core) (t : Nat) : Thread := c.threads.get (fun _ => Thread.reset) t
def Core.setThread (c : Core) (t : Nat) (th : Thread) : Core :=
  { c with threads := c.threads.set (fun _ => Thread.reset) t th }

/-- A general register; g0 reads zero (R41). -/
def Thread.get (th : Thread) (r : Nat) : DWord := if r = 0 then 0 else th.g.get (fun _ => 0) r
/-- Writes a general register; a write of g0 is discarded (R41). -/
def Thread.put (th : Thread) (r : Nat) (v : DWord) : Thread :=
  if r = 0 then th else { th with g := th.g.set (fun _ => 0) r v }
/-- A predicate; p0 reads true (R170). -/
def Thread.pred (th : Thread) (q : Nat) : Bool := q == 0 || th.p.getLsbD q
/-- Writes a predicate; a write of p0 is discarded (R170). -/
def Thread.putPred (th : Thread) (q : Nat) (v : Bool) : Thread :=
  if q = 0 then th else { th with p := BitVec.ofNat 8 (putBits th.p.toNat q q v.toNat) }
/-- The address after the present instruction, within core SRAM (R170, R183). -/
def Thread.nextPc (th : Thread) : Nat := (th.pc + 4) % 0x20000
def Thread.advance (th : Thread) : Thread := { th with pc := th.nextPc }

/-- A vector register (R43). -/
def Core.vreg (c : Core) (r : Nat) : VWord := c.v.get (fun _ => 0) r
def Core.setVreg (c : Core) (r : Nat) (v : VWord) : Core := { c with v := c.v.set (fun _ => 0) r v }

def Core.runBit (c : Core) (t : Nat) : Bool := c.regBit 0x044 t
def Core.setRunBit (c : Core) (t : Nat) (v : Bool) : Core := c.setRegBits 0x044 t t v.toNat

/-- The code of CORE.THREAD_STATE for a thread, given whether its field is frozen (R180). -/
def Thread.stateCode (th : Thread) (frozen : Bool) : Nat :=
  match th.state with
  | .stopped => 0
  | .running => if frozen then 4 else 1
  | .waitTally => 2
  | .waitChute => 3
  | .waitRemote => if frozen then 4 else 5
  | .trapped => 6

/-! ## Tallies, windows, chutes, tags -/

def Core.tally (c : Core) (i : Nat) : Tally := c.tallies.get (fun _ => Tally.reset) i
def Core.setTally (c : Core) (i : Nat) (v : Tally) : Core :=
  { c with tallies := c.tallies.set (fun _ => Tally.reset) i v }
def Core.win (c : Core) (i : Nat) : Win := c.wins.get (fun _ => Win.reset) i
def Core.setWin (c : Core) (i : Nat) (v : Win) : Core := { c with wins := c.wins.set (fun _ => Win.reset) i v }
def Core.chute (c : Core) (e : Nat) : Chute := c.chutes.get (fun _ => Chute.reset) e
def Core.setChute (c : Core) (e : Nat) (v : Chute) : Core :=
  { c with chutes := c.chutes.set (fun _ => Chute.reset) e v }
def Core.tag (c : Core) (i : Nat) : Option Tag := c.tags.get (fun _ => none) i
def Core.setTag (c : Core) (i : Nat) (v : Option Tag) : Core := { c with tags := c.tags.set (fun _ => none) i v }
/-- Remote request tags held (R54). -/
def Core.tagsInUse (c : Core) : Nat := (c.tags.filter fun t => t.2.isSome).length
/-- The lowest free tag. -/
def Core.freeTag (c : Core) : Option Nat := (List.range 64).find? fun i => (c.tag i).isNone
def Core.epoch (c : Core) (i : Nat) : Nat := c.tagEpoch.get (fun _ => 0) i
def Core.bookEntry (c : Core) (i : Nat) : BookEntry := c.book.get (fun _ => BookEntry.reset) i
def Core.shiftSlot (c : Core) (i : Nat) : ShiftSlot := c.shifts.get (fun _ => ShiftSlot.empty) i
def Core.setShift (c : Core) (i : Nat) (v : ShiftSlot) : Core :=
  { c with shifts := c.shifts.set (fun _ => ShiftSlot.empty) i v }
def Core.steerUnit (c : Core) (u : Nat) : Steer := c.steer.get (fun _ => Steer.reset) u
def Core.setSteer (c : Core) (u : Nat) (v : Steer) : Core := { c with steer := c.steer.set (fun _ => Steer.reset) u v }
/-- A generator stream; all five hold the reset state after reset (R111, R120). -/
def Core.stream (c : Core) (i : Nat) : DWord := c.rng.get (fun _ => rngReset) i
def Core.setStream (c : Core) (i : Nat) (v : DWord) : Core := { c with rng := c.rng.set (fun _ => rngReset) i v }
def Core.abank (c : Core) (b : Nat) : ABank := c.array.banks.get (fun _ => ABank.reset) b
def Core.tile (c : Core) (i : Nat) : Tile := c.array.tiles.get (fun _ => Tile.reset) i
def Core.setAbank (c : Core) (b : Nat) (v : ABank) : Core :=
  { c with array := { c.array with banks := c.array.banks.set (fun _ => ABank.reset) b v } }
def Core.setTile (c : Core) (i : Nat) (v : Tile) : Core :=
  { c with array := { c.array with tiles := c.array.tiles.set (fun _ => Tile.reset) i v } }
/-- An accumulator entry by number r · 256 + n (R59). -/
def Core.accEntry (c : Core) (i : Nat) : Nat := c.array.acc.get (fun _ => 0) i
def Core.setAcc (c : Core) (i v : Nat) : Core :=
  { c with array := { c.array with acc := c.array.acc.set (fun _ => 0) i (v % 2 ^ 32) } }

/-! ## Banks and bytes (R45, R46, R277) -/

def Core.bank (c : Core) (b : Nat) : Bank := c.banks.get (fun _ => .active) b
def Core.setBank (c : Core) (b : Nat) (v : Bank) : Core := { c with banks := c.banks.set (fun _ => .active) b v }
/-- Whether quadrant q is linear. -/
def Core.linear (c : Core) (q : Nat) : Bool := c.regBit 0x060 q

/-- Bank of an SRAM offset (R45, R46). -/
def Core.bankOf (c : Core) (a : Nat) : Nat :=
  let q := bits a 16 15
  4 * q + (if c.linear q then bits a 14 13 else bits a 5 4)
/-- Word within its bank (R46). -/
def Core.wordIn (c : Core) (a : Nat) : Nat := if c.linear (bits a 16 15) then bits a 12 4 else bits a 14 6
/-- The place of an offset's byte in the banks. -/
def Core.place (c : Core) (a : Nat) : Nat := c.bankOf a * 8192 + c.wordIn a * 16 + a % 16
/-- The number of an offset's word in the banks. -/
def Core.placeWord (c : Core) (a : Nat) : Nat := c.bankOf a * 512 + c.wordIn a

/-- The byte at an offset; bytes nothing has written read zero. -/
def Core.byte (c : Core) (a : Nat) : Byte := c.sram.get (fun _ => 0) (c.place a)
def Core.setByte (c : Core) (a : Nat) (v : Byte) : Core := { c with sram := c.sram.set (fun _ => 0) (c.place a) v }
def Core.bytes (c : Core) (a n : Nat) : List Nat := (List.range n).map fun i => (c.byte (a + i)).toNat
/-- Stores bytes from an offset on. -/
def Core.setBytes (c : Core) : Nat → List Nat → Core
  | _, [] => c
  | a, b :: bs => (c.setByte a (BitVec.ofNat 8 b)).setBytes (a + 1) bs
def Core.eccAt (c : Core) (a : Nat) : Ecc := c.ecc.get (fun _ => .clean) (c.placeWord a)
def Core.setEcc (c : Core) (a : Nat) (v : Ecc) : Core := { c with ecc := c.ecc.set (fun _ => .clean) (c.placeWord a) v }

def Core.activeAt (c : Core) (a : Nat) : Bool := decide (c.bank (c.bankOf a) = .active)
/-- Word-aligned offsets of the words a range of bytes touches. -/
def wordsOf (a n : Nat) : List Nat :=
  if n = 0 then [] else (List.range ((a + n - 1) / 16 - a / 16 + 1)).map fun i => (a / 16 + i) * 16
/-- Whether every byte of a range lies in an active bank. -/
def Core.rangeActive (c : Core) (a n : Nat) : Bool := (wordsOf a n).all c.activeAt

/-! ## Stopping threads (R63, R560, R372) -/

/-- Takes a thread out of a tally's waiters (R372). -/
def Tally.leave (ty : Tally) (t : Nat) : Tally := { ty with waiters := ty.waiters.filter fun w => w.thread != t }

/-- What was detected while the thread waited for an RLD's result is due now (R200). -/
def Thread.dueNow (th : Thread) : Thread := { th with async := th.late ++ th.async, late := [] }

def Core.setHolds (c : Core) (l : List (Nat × HoldStage)) : Core := { c with array := { c.array with checkHold := l } }
/-- The holds of a thread at a stage end (R203). -/
def Core.endHolds (c : Core) (t : Nat) (how : HoldStage) : Core := c.setHolds (c.array.checkHold.filter (· != (t, how)))
/-- The thread leaves handler mode otherwise than by RTE. -/
def Core.leaveHandler (c : Core) (t : Nat) : Core :=
  c.setHolds (c.array.checkHold.map fun h => if h = (t, .handled) then (t, .left) else h)

/-- A thread whose waiting instruction has completed or is abandoned stops, once the RLDs it issued before have ended
(R560). -/
def Thread.halt (th : Thread) : Thread :=
  if th.pendingG = [] then { th with state := .stopped, wait := .none }
  else { th with state := .waitRemote, wait := .rldResult [] true }

/-- What clearing a thread's run bit does to the thread (R560, R372): a waiter on a tally completes with ABORTED, other
waits are abandoned, a thread with an RLD outstanding stops when it ends, and one that reads WAIT_HOLD stops at the
release of the hold. -/
def Core.stopThread (c : Core) (frozen : Bool) (t : Nat) : Core :=
  let c := c.setRunBit t false
  let th := (c.thread t).dueNow
  if frozen ∧ (th.state = .running ∨ th.state = .waitRemote) then c.setThread t { th with wait := .rldResult [] true }
  else match th.state with
  | .stopped => c
  | .trapped => c.setThread t { th with state := .stopped }
  | .waitTally =>
    match th.wait with
    | .tally d i =>
      (c.setTally i ((c.tally i).leave t)).setThread t (th.put d (BitVec.ofNat 64 Status.aborted.code)).advance.halt
    | .released d st => c.setThread t (th.put d (BitVec.ofNat 64 st.code)).advance.halt
    | _ => c.setThread t th.halt
  | .waitChute => { c.setThread t th.halt with chuteWait := c.chuteWait.filter (· != t) }
  | .waitRemote =>
    match th.wait with
    | .rldResult need _ =>
      if th.pendingG = [] then c.setThread t th.halt else c.setThread t { th with wait := .rldResult need true }
    | _ => c.setThread t th.halt
  | .running =>
    if th.pendingG = [] then c.setThread t th.halt else c.setThread t { th with wait := .rldResult [] true }

/-- Whether the array has a command queued or running (R145). -/
def ArrayState.busy (a : ArrayState) : Bool :=
  !a.queue.isEmpty || a.load.isSome || !a.opening.isEmpty || !a.passes.isEmpty || !a.closes.isEmpty

/-- A drain frees both tile slots once no command runs: no records (R142). -/
def Core.freeTiles (c : Core) : Core :=
  if c.array.busy then c else { c with array := { c.array with tiles := [] } }

end Sys2Proof.Machine
end

