-- ==== Sys2Proof/Machine/Flits.lean ====
section
/-! DEFINITION. Flits as a mesh link carries them (R215, R321, R322, R331): the head's 256 data bits, the sideband word and
its CRC-16; and the frames of a seam link (R384): their 536 bytes and their CRC-32. -/

namespace Sys2Proof

/-- Payload flits of 32 bytes (R331). -/
def Packet.flits (p : Packet) : Nat := ceilDiv p.payload.length 32

def PType.ofCode : Nat → PType
  | 0x01 => .read | 0x02 => .readData | 0x03 => .write | 0x04 => .writeAcked | 0x05 => .ack
  | 0x06 => .signalledWrite | 0x07 => .countedWrite | 0x08 => .tallySignal | 0x09 => .chuteData
  | 0x0A => .chuteControl | 0x0B => .privRead | 0x0C => .privWrite | 0x0D => .directory | 0x0E => .heartbeat
  | 0x0F => .barrier | 0x10 => .lossNotice | c => .reserved c

/-- Number of a side in ring and port fields. -/
def Side.num : Side → Nat
  | .n => 0 | .e => 1 | .s => 2 | .w => 3
def Side.ofNum : Nat → Side
  | 0 => .n | 1 => .e | 2 => .s | _ => .w

/-- The ring byte of a head. -/
def RingMode.byte : Option RingMode → Nat
  | none => 0
  | some m => 1 + 2 * m.blockedY.toNat + 4 * m.side.num

/-- The 256 data bits of a head flit (R331). -/
def Packet.headBits (p : Packet) : Nat :=
  p.ptype.code % 2 ^ 8 + (p.flits % 2 ^ 5 + p.escape.toNat * 2 ^ 5) * 2 ^ 8 + RingMode.byte p.ring * 2 ^ 16 +
    p.status.code * 2 ^ 24 + (p.tx % 2 ^ 10 + p.ty % 2 ^ 9 * 2 ^ 10 + p.port.code * 2 ^ 19) * 2 ^ 32 + p.dst % 2 ^ 32 * 2 ^ 64 +
    p.src % 2 ^ 32 * 2 ^ 96 + p.tag % 2 ^ 16 * 2 ^ 128 + p.job % 2 ^ 16 * 2 ^ 144 + p.arg % 2 ^ 32 * 2 ^ 160 +
    p.data % 2 ^ 64 * 2 ^ 192
/-- A packet from its head's data bits, on a virtual channel, with no payload yet. -/
def Packet.ofHead (w vc : Nat) : Packet :=
  { ptype := PType.ofCode (bits w 7 0), vc := vc, escape := bit w 13
    ring := if bit w 16 then some ⟨bit w 17, Side.ofNum (bits w 19 18)⟩ else none
    status := Status.ofCode (bits w 31 24), tx := bits w 41 32, ty := bits w 50 42
    port := (Port.ofCode (bits w 53 51)).getD .local_, dst := bits w 95 64, src := bits w 127 96, tag := bits w 143 128
    job := bits w 159 144, arg := bits w 191 160, data := bits w 255 192, payload := [], poisoned := false }

namespace Machine

/-- The CRC-16 over a flit's data bits and the sideband bits [31:22] and [5:0]. -/
def flitCrc (data side : Nat) : Nat := crcBits 16 0x1021 0xFFFF (bitsDown data 255 0 ++ bitsDown side 31 22 ++ bitsDown side 5 0)
/-- A sideband word (R322): kind, the four credit counters by channel, and the five bits each kind defines. -/
def sideband (kind : Nat) (credit : Nat → Nat) (low data : Nat) : Nat :=
  let w := kind * 2 ^ 30 + ((List.range 4).map fun v => credit v % 4 * 2 ^ (22 + 2 * v)).foldl (· + ·) 0 + low % 2 ^ 5
  w + flitCrc data w * 2 ^ 6
/-- Whether a received flit passes its CRC. -/
def flitPasses (data side : Nat) : Bool := flitCrc data side == bits side 21 6

/-- The low bits of a packet flit's sideband. -/
def packetLow (vc : Nat) (head tail poisoned : Bool) : Nat := vc % 4 * 8 + head.toNat * 4 + tail.toNat * 2 + poisoned.toNat

/-! ## Seam frames (R384) -/

/-- A valid flit slot of a seam frame: a head slot carries the head's 256 bits, any other 32 bytes. -/
structure SeamFlit where
  vc : Nat
  head : Option Nat
  data : List Byte
  tail : Bool
  poisoned : Bool
deriving DecidableEq, Repr

/-- What a seam frame says; chip and link of the sender are an identity frame's. -/
structure SeamFrame where
  kind : Nat
  seq : Nat
  ack : Nat
  nak : Bool
  enabled : Bool
  credits : List Nat
  flits : List SeamFlit
  chip : Nat
  link : Nat
deriving DecidableEq, Repr

/-- The six bits that describe a valid slot. -/
def SeamFlit.slotBits (f : SeamFlit) : Nat :=
  32 + f.vc % 4 * 8 + f.head.isSome.toNat * 4 + f.tail.toNat * 2 + f.poisoned.toNat
/-- Its 32 data bytes. -/
def SeamFlit.bytes (f : SeamFlit) : List Nat :=
  match f.head with
  | some w => leBytes 32 w
  | none => ((f.data.map BitVec.toNat) ++ List.replicate 32 0).take 32
/-- The slot at number i of a frame's slot word and data bytes; none where it is not valid. -/
def SeamFlit.at? (word : Nat) (data : List Nat) (i : Nat) : Option SeamFlit :=
  let b := bits word (6 * i + 5) (6 * i)
  let d := (data.drop (32 * i)).take 32
  let vc := bits b 4 3
  if bit b 5 then
    some ⟨vc, if bit b 2 then some (leNat d) else none, if bit b 2 then [] else d.map (BitVec.ofNat 8), bit b 1, bit b 0⟩
  else none

/-- CRC-32 of bytes, each from its most significant bit on. -/
def crc32 (bs : List Nat) : Nat := crcBits 32 0x04C11DB7 0xFFFFFFFF (bs.flatMap fun b => bitsDown b 7 0)

/-- The slot word of the slots of a frame, the first at number k. -/
def slotWord : Nat → List SeamFlit → Nat
  | _, [] => 0
  | k, f :: fs => f.slotBits * 2 ^ (6 * k) + slotWord (k + 1) fs
/-- Bytes 24 to 535. -/
def SeamFrame.dataBytes (fr : SeamFrame) : List Nat :=
  let d := if fr.kind = 3 then leBytes 2 (fr.chip % 2 ^ 12) ++ [fr.link] else fr.flits.flatMap SeamFlit.bytes
  (d ++ List.replicate 512 0).take 512
/-- Bytes 0 to 19. -/
def SeamFrame.headBytes (fr : SeamFrame) : List Nat :=
  [fr.kind, fr.seq, fr.ack, fr.nak.toNat + 2 * fr.enabled.toNat] ++ (List.range 4).map (fun v => fr.credits.getD v 0) ++
    leBytes 12 (slotWord 0 fr.flits)
/-- The frame's 536 bytes. -/
def SeamFrame.bytes (fr : SeamFrame) : List Byte :=
  (fr.headBytes ++ leBytes 4 (crc32 (fr.headBytes ++ fr.dataBytes)) ++ fr.dataBytes).map (BitVec.ofNat 8)

/-- What the bytes of a frame say. -/
def SeamFrame.ofBytes (bs : List Byte) : SeamFrame :=
  let b := bs.map BitVec.toNat
  let at_ (i : Nat) : Nat := b.getD i 0
  let data := b.drop 24
  let word := leNat ((b.drop 8).take 12)
  { kind := at_ 0, seq := at_ 1, ack := at_ 2, nak := bit (at_ 3) 0, enabled := bit (at_ 3) 1
    credits := (List.range 4).map fun v => at_ (4 + v)
    flits := (List.range 16).filterMap (SeamFlit.at? word data)
    chip := if at_ 0 = 3 then leNat (data.take 2) % 2 ^ 12 else 0, link := if at_ 0 = 3 then data.getD 2 0 else 0 }
/-- Whether a received frame passes its CRC. -/
def framePasses (bs : List Byte) : Bool :=
  let b := bs.map BitVec.toNat
  crc32 (b.take 20 ++ b.drop 24) == leNat ((b.drop 20).take 4)

/-- Payload bytes that a head says its packet carries; where it says nothing, all that its flits hold. -/
def Packet.saidBytes (p : Packet) : Nat :=
  match p.ptype with
  | .readData | .write | .writeAcked => bits p.data 31 0
  | .chuteData => 8 * bits p.data 15 0
  | .privWrite => bits p.arg 31 0
  | .signalledWrite => bits p.data 24 8 + bits p.data 63 32 - bits p.arg 16 0
  | _ => p.payload.length

end Machine

end Sys2Proof
end

