-- ==== Sys2Proof/Syntax.lean ====
section
/-! DEFINITION. The commands: one constructor per row of the table of operations and events. An instruction of a core
carries who issues it, its guard and its operand fields; a register write carries its requester and the value; a packet
event carries the packet; an event of the engine names the unit it happens in, and what the engine measures at that
moment where its rule depends on it. -/

namespace Sys2Proof

abbrev GReg := Fin 32
abbrev PReg := Fin 8
abbrev VReg := Fin 32
/-- A host port: 0 is A, 1 is B (R401). -/
abbrev Port2 := Fin 2

/-- Who issues an instruction, and under which guard (R173, R175). -/
structure Iss where
  site : Site
  thread : Fin 4
  neg : Bool
  pred : PReg
deriving DecidableEq, Repr

/-- Why a stack port goes OFFLINE (R317). -/
inductive OfflineCause
  | fatal | silent
deriving DecidableEq, Repr

/-- A flit that fails its CRC, as the receiver takes it (R324); of payload flits the one with number k. -/
inductive BadFlit
  | idle | scheduled | head (p : Packet) | payload (p : Packet) (k : Nat)
deriving DecidableEq, Repr

/-- What the pithead reads of one field for a period of the capping loop (R444, R548): its hottest working sensor in
0.1 °C, which of its 16 sensors fail their self-check, and its mean VCORE current and power. -/
structure FieldReading where
  temp : Int
  failed : BitVec 16
  amps : Nat
  watts : Nat
deriving DecidableEq, Repr

/-- The readings of a period: the fields in increasing number (a field not listed reads zero), and the power of the
rails other than VCORE. -/
structure Readings where
  fields : List FieldReading
  other : Nat
deriving DecidableEq, Repr

/-- What the hardware finds in a bring-up stage (R464): the stacks that train. -/
structure StageResult where
  stackPorts : BitVec 32
  mapWritten : Bool
deriving DecidableEq, Repr

/-- What a site's tests show (R467): a router fault, another fault, or its bad array columns. -/
inductive SiteFault
  | router
  | control
  | columns (bad : List (Fin 64))
deriving DecidableEq, Repr

/-- What the tests of a field's bring-up show (R465): its supply and PLL, its foreman, the sites with a fault, the
boundary links that fail stitch by router and side, and the entry routers whose outward port fails. -/
structure FieldTest where
  powerOk : Bool
  foremanOk : Bool
  sites : List (Site × SiteFault)
  stitch : List (Site × Side)
  entries : List Site
deriving DecidableEq, Repr

/-- A seam frame as a link receives it (R384): its 536 bytes after the FEC, and the codewords the FEC under it corrected and
could not correct (R399). -/
structure WireFrame where
  bytes : List Byte
  fecCorrected : Nat
  fecUncorr : Nat
deriving DecidableEq, Repr

/-- One constructor per row of the table. An adit command names the bits of its frame that arrive inverted (`errs`); of a
broadcast, the nodes that find a CRC error (`bad`). A hoist's command names the host memory, address and bytes, whose reads
complete with an error, not at all, or poisoned (`bad`); a register access its length in bytes. -/
inductive Instr
  /-- ADD (R181): ALU func 0x00: gd := ga + gb. -/
  | add (i : Iss) (d a b : GReg)
  /-- SUB (R181): ALU func 0x01: gd := ga - gb. -/
  | sub (i : Iss) (d a b : GReg)
  /-- AND (R181): ALU func 0x02: bitwise AND of ga and gb. -/
  | and (i : Iss) (d a b : GReg)
  /-- OR (R181): ALU func 0x03: bitwise OR of ga and gb. -/
  | or (i : Iss) (d a b : GReg)
  /-- XOR (R181): ALU func 0x04: bitwise XOR of ga and gb. -/
  | xor (i : Iss) (d a b : GReg)
  /-- SLL (R181): ALU func 0x05: shift ga left by gb[5:0]. -/
  | sll (i : Iss) (d a b : GReg)
  /-- SRL (R181): ALU func 0x06: logical right shift of ga by gb[5:0]. -/
  | srl (i : Iss) (d a b : GReg)
  /-- SRA (R181): ALU func 0x07: arithmetic right shift of ga by gb[5:0]. -/
  | sra (i : Iss) (d a b : GReg)
  /-- MUL (R181): ALU func 0x08: low 64 bits of the product. -/
  | mul (i : Iss) (d a b : GReg)
  /-- MULH (R181): ALU func 0x09: signed high half of the product. -/
  | mulh (i : Iss) (d a b : GReg)
  /-- MULHU (R181): ALU func 0x0A: unsigned high half of the product. -/
  | mulhu (i : Iss) (d a b : GReg)
  /-- DIV (R181): ALU func 0x0B: signed division toward zero, never trapping. -/
  | div (i : Iss) (d a b : GReg)
  /-- DIVU (R181): ALU func 0x0C: unsigned division, never trapping. -/
  | divu (i : Iss) (d a b : GReg)
  /-- REM (R181): ALU func 0x0D: signed remainder with the sign of the dividend. -/
  | rem (i : Iss) (d a b : GReg)
  /-- REMU (R181): ALU func 0x0E: unsigned remainder. -/
  | remu (i : Iss) (d a b : GReg)
  /-- MIN (R181): ALU func 0x0F: signed minimum. -/
  | min (i : Iss) (d a b : GReg)
  /-- MAX (R181): ALU func 0x10: signed maximum. -/
  | max (i : Iss) (d a b : GReg)
  /-- MINU (R181): ALU func 0x11: unsigned minimum. -/
  | minu (i : Iss) (d a b : GReg)
  /-- MAXU (R181): ALU func 0x12: unsigned maximum. -/
  | maxu (i : Iss) (d a b : GReg)
  /-- CLZ (R181): ALU func 0x13: count of leading zeros of ga. -/
  | clz (i : Iss) (d a : GReg)
  /-- POPC (R181): ALU func 0x14: population count of ga. -/
  | popc (i : Iss) (d a : GReg)
  /-- ADDI (R182): Adds sign-extended imm12 to ga. -/
  | addi (i : Iss) (d a : GReg) (imm : BitVec 12)
  /-- ANDI (R182): ANDs ga with sign-extended imm12. -/
  | andi (i : Iss) (d a : GReg) (imm : BitVec 12)
  /-- ORI (R182): ORs ga with sign-extended imm12. -/
  | ori (i : Iss) (d a : GReg) (imm : BitVec 12)
  /-- XORI (R182): XORs ga with sign-extended imm12. -/
  | xori (i : Iss) (d a : GReg) (imm : BitVec 12)
  /-- SHI (R182): Shifts ga by imm12[5:0] in the kind that imm12[11:10] selects. -/
  | shi (i : Iss) (d a : GReg) (kind : Fin 3) (amount : Fin 64)
  /-- CMPI (R182): Sets pd from ga compared with sign-extended imm9 under cond. -/
  | cmpi (i : Iss) (pd : PReg) (a : GReg) (cond : Fin 7) (imm : BitVec 9)
  /-- CMP (R182): Sets pd from ga compared with gb under cond. -/
  | cmp (i : Iss) (pd : PReg) (a b : GReg) (cond : Fin 7)
  /-- MOVI (R182): Sets gd to sign-extended imm21; unguarded. -/
  | movi (site : Site) (t : Fin 4) (d : GReg) (imm : BitVec 21)
  /-- MOVSH (R182): Replaces 16-bit slice h of gd with imm16; unguarded. -/
  | movsh (site : Site) (t : Fin 4) (d : GReg) (h : Fin 4) (imm : BitVec 16)
  /-- PAND (R182): Predicate func 0: pd := pa AND pb. -/
  | pand (i : Iss) (pd pa pb : PReg)
  /-- POR (R182): Predicate func 1: pd := pa OR pb. -/
  | por (i : Iss) (pd pa pb : PReg)
  /-- PXOR (R182): Predicate func 2: pd := pa XOR pb. -/
  | pxor (i : Iss) (pd pa pb : PReg)
  /-- PANDN (R182): Predicate func 3: pd := pa AND NOT pb. -/
  | pandn (i : Iss) (pd pa pb : PReg)
  /-- PNOT (R182): Predicate func 4: pd := NOT pa. -/
  | pnot (i : Iss) (pd pa : PReg)
  /-- BR (R183): Relative branch by 4 x offset22, wrapping within core SRAM. -/
  | br (i : Iss) (off : BitVec 22)
  /-- BRL (R183): Branch and link: gd := pc + 4, then relative branch by offset17. -/
  | brl (i : Iss) (d : GReg) (off : BitVec 17)
  /-- JR (R183): Jumps to ga, raising ALIGN if ga[1:0] is not zero. -/
  | jr (i : Iss) (a : GReg)
  /-- JRL (R183): Jumps to ga and writes the return address to gd. -/
  | jrl (i : Iss) (d a : GReg)
  /-- LD (R184): Loads a sized value from local core space, with ALIGN, ADDR and PARKED checks at issue. -/
  | ld (i : Iss) (size : Fin 7) (d a : GReg) (imm : BitVec 9)
  /-- ST (R184): Stores a sized value to local core space, with ACC_BUSY for a busy accumulator. -/
  | st (i : Iss) (size : Fin 4) (d a : GReg) (imm : BitVec 9)
  /-- LDX (R184): Indexed load at ga + gb, size in func. -/
  | ldx (i : Iss) (size : Fin 7) (d a b : GReg)
  /-- STX (R184): Indexed store at ga + gb, size in func. -/
  | stx (i : Iss) (size : Fin 4) (d a b : GReg)
  /-- VLD (R188): Loads 64 bytes into a vector register. -/
  | vld (i : Iss) (v : VReg) (a : GReg) (imm : BitVec 9)
  /-- VST (R188): Stores 64 bytes from a vector register. -/
  | vst (i : Iss) (v : VReg) (a : GReg) (imm : BitVec 9)
  /-- VADD (R186): Lane-wise IEEE addition in the format fmt selects. -/
  | vadd (i : Iss) (fmt : Fin 6) (d a b : VReg)
  /-- VSUB (R186): Lane-wise IEEE subtraction. -/
  | vsub (i : Iss) (fmt : Fin 6) (d a b : VReg)
  /-- VMUL (R186): Lane-wise IEEE multiplication. -/
  | vmul (i : Iss) (fmt : Fin 6) (d a b : VReg)
  /-- VFMA (R186): Lane-wise fused multiply-add vd := va x vb + vd. -/
  | vfma (i : Iss) (fmt : Fin 6) (d a b : VReg)
  /-- VFNMA (R186): Lane-wise fused vd := vd - va x vb. -/
  | vfnma (i : Iss) (fmt : Fin 6) (d a b : VReg)
  /-- VMIN (R186): Lane-wise minimum, preferring the non-NaN operand. -/
  | vmin (i : Iss) (fmt : Fin 6) (d a b : VReg)
  /-- VMAX (R186): Lane-wise maximum, preferring the non-NaN operand. -/
  | vmax (i : Iss) (fmt : Fin 6) (d a b : VReg)
  /-- VABS (R186): Lane-wise absolute value. -/
  | vabs (i : Iss) (fmt : Fin 6) (d a : VReg)
  /-- VNEG (R186): Lane-wise negation. -/
  | vneg (i : Iss) (fmt : Fin 6) (d a : VReg)
  /-- VCVT (R187): Converts a part of va between formats under the selected rounding, stochastic included. -/
  | vcvt (i : Iss) (d a : VReg) (src dst : Fin 8) (rm : Fin 6) (part : Fin 8)
  /-- VMOV (R188): Copies va to vd. -/
  | vmov (i : Iss) (d a : VReg)
  /-- VSPLAT (R188): Copies the low bits of a general register into every lane. -/
  | vsplat (i : Iss) (fmt : Fin 6) (d : VReg) (a : GReg)
  /-- VEXT (R188): Extracts one lane into gd, zero-extended. -/
  | vext (i : Iss) (fmt : Fin 6) (d : GReg) (a : VReg) (b : GReg)
  /-- VINS (R188): Inserts the low bits of ga into one lane of vd. -/
  | vins (i : Iss) (fmt : Fin 6) (d : VReg) (a b : GReg)
  /-- VRSUM (R188): Pairwise-tree sum of the lanes of va into gd. -/
  | vrsum (i : Iss) (fmt : Fin 6) (d : GReg) (a : VReg)
  /-- VRMAX (R188): Pairwise-tree maximum of the lanes of va into gd. -/
  | vrmax (i : Iss) (fmt : Fin 6) (d : GReg) (a : VReg)
  /-- VSPMV (R189): Starts a sparse matrix-vector operation from a descriptor. -/
  | vspmv (i : Iss) (a : GReg)
  /-- VSWAIT (R189): Waits until no SpMV operation runs, then returns its last status. -/
  | vswait (i : Iss) (d : GReg)
  /-- VUNPK (R189): Decodes 16 positions of a packed tensor run into FP32 lanes. -/
  | vunpk (i : Iss) (d : VReg) (a b : GReg)
  /-- VPACK (R189): Packs FP32 lanes into one Q4B, Q3B, Q2B or TRI5 block and its scale. -/
  | vpack (i : Iss) (stochastic : Bool) (fmt : Fin 4) (d : VReg) (a b : GReg)
  /-- ALOAD (R190): Queues a stationary bank load command. -/
  | aload (i : Iss) (a b : GReg)
  /-- AOPEN (R190): Queues a tile open command. -/
  | aopen (i : Iss) (a : GReg)
  /-- APASS (R190): Queues a weight pass command. -/
  | apass (i : Iss) (a b : GReg)
  /-- ACLOSE (R190): Queues a tile close command. -/
  | aclose (i : Iss) (a b : GReg)
  /-- AFENCE (R191): Waits until every queued array command has ended and returns the first non-OK status. -/
  | afence (i : Iss) (d : GReg)
  /-- CPUT (R256): Pushes one entry to a producer endpoint, waiting for room. -/
  | cput (i : Iss) (d : GReg) (e : Fin 32)
  /-- CGET (R256): Pops one entry from a consumer endpoint, waiting for data. -/
  | cget (i : Iss) (d : GReg) (e : Fin 32)
  /-- CGETN (R257): Pops without waiting, returning the last entry and setting underrun when empty. -/
  | cgetn (i : Iss) (d : GReg) (e : Fin 32)
  /-- VCPUT (R256): Pushes 64 bytes as 8 entries in one push. -/
  | vcput (i : Iss) (v : VReg) (e : Fin 32)
  /-- VCGET (R256): Pops 8 entries into a vector register. -/
  | vcget (i : Iss) (v : VReg) (e : Fin 32)
  /-- CROPEN (R252): Opens a record on a record producer, closing any open one. -/
  | cropen (i : Iss) (e : Fin 32)
  /-- CRCLOSE (R252): Closes the open record and marks its length. -/
  | crclose (i : Iss) (e : Fin 32)
  /-- CLEVEL (R256): Returns the endpoint's seen level. -/
  | clevel (i : Iss) (d : GReg) (e : Fin 32)
  /-- TADD (R357): Adds ga[31:0] to a tally as a local signal. -/
  | tadd (i : Iss) (a : GReg) (tally : Fin 64)
  /-- TTGT (R357): Sets a tally's target, by instruction or by write of TALLY.TARGETi. -/
  | ttgt (i : Iss) (a : GReg) (tally : Fin 64)
  /-- TSET (R357): Sets a tally's value, by instruction or by write of TALLY.VALUEi. -/
  | tset (i : Iss) (a : GReg) (tally : Fin 64)
  /-- TWAIT (R359): Waits on a tally until it fires or a deadline passes. -/
  | twait (i : Iss) (d a : GReg) (tally : Fin 64)
  /-- TBAR (R368): Arrives at a barrier tally for a round and waits for the round to close. -/
  | tbar (i : Iss) (d a : GReg) (tally : Fin 64)
  /-- TRD (R357): Reads a tally's value. -/
  | trd (i : Iss) (d : GReg) (tally : Fin 64)
  /-- TNOTE (R360): Registers an EID for notification when the tally fires, or returns BUSY. -/
  | tnote (i : Iss) (d a : GReg) (tally : Fin 64)
  /-- RLD (R195): Tagged remote read of 8 bytes. -/
  | rld (i : Iss) (d a : GReg)
  /-- RST (R195): Posted remote write on VC2. -/
  | rst (i : Iss) (d a : GReg)
  /-- RSTA (R195): Remote write that awaits acceptance. -/
  | rsta (i : Iss) (d a : GReg)
  /-- RSIG (R364): Signalled remote write that increments the owner's tally. -/
  | rsig (i : Iss) (d a b : GReg)
  /-- RPUT (R195): Tagged multi-packet copy of local bytes to a remote window in plain, signalled or counted mode. -/
  | rput (i : Iss) (d a b : GReg)
  /-- RGET (R195): Tagged copy of remote bytes into local SRAM. -/
  | rget (i : Iss) (d a b : GReg)
  /-- RTSIG (R195): Sends a TALLY_SIGNAL increment to an endpoint's tally on VC0. -/
  | rtsig (i : Iss) (d a b : GReg)
  /-- RFENCE (R195): Waits for every tagged operation of the thread, then returns and clears RSTATUS. -/
  | rfence (i : Iss) (d : GReg)
  /-- RDSYS (R171): Reads a per-thread system register. -/
  | rdsys (i : Iss) (d : GReg) (num : Fin 10)
  /-- WRSYS (R171): Writes a per-thread system register. -/
  | wrsys (i : Iss) (a : GReg) (num : Fin 10)
  /-- IFLUSH (R197): Waits for earlier stores, then empties the instruction buffer. -/
  | iflush (i : Iss)
  /-- FENCE (R197): Waits for earlier local loads, stores and chute operations. -/
  | fence (i : Iss)
  /-- HALT (R197): Stops the thread after earlier instructions complete. -/
  | halt (i : Iss)
  /-- TRAP (R197): Raises the TRAP exception with a code. -/
  | trap (i : Iss) (code : Fin 32)
  /-- RTE (R197): Returns from a handler to EPC and clears handler mode. -/
  | rte (i : Iss)
  /-- NOP (R197): Does nothing. -/
  | nop (i : Iss)
  /-- RDREG (R197): Reads a register of the core's own register page. -/
  | rdreg (i : Iss) (d a : GReg) (imm : BitVec 12)
  /-- WRREG (R197): Writes a register of the core's own register page. -/
  | wrreg (i : Iss) (d a : GReg) (imm : BitVec 12)
  /-- EXCEPTION_TAKE (R200): A thread takes a pending asynchronous exception (ECC or ARRAY_CHECK) at its next
  boundary. -/
  | exceptionTake (site : Site) (t : Fin 4)
  /-- IBUF_REFILL (R179): A 64-byte instruction line arrives in the instruction buffer, or fails with a fetch
  exception. -/
  | ibufRefill (site : Site) (t : Fin 4)
  /-- CORE_RUN (R560): A write of CORE.RUN starts threads or stops running, waiting or trapped threads. -/
  | coreRun (w : Requester) (site : Site) (v : Word)
  /-- ALOAD_START (R128): A queued load starts when its bank and the load unit are free. -/
  | aloadStart (site : Site)
  /-- LOAD_END (R129): A load completes and its bank becomes ready with a tag, or empty on failure. -/
  | loadEnd (site : Site)
  /-- AOPEN_START (R134): A queued open starts, records the tile and begins any clear. -/
  | aopenStart (site : Site)
  /-- OPEN_END (R134): A tile open ends after its clear. -/
  | openEnd (site : Site)
  /-- APASS_START (R122): A queued pass starts streaming columns when the previous budget ended and its bank is ready.
  -/
  | apassStart (site : Site) (residues : List (Fin 32 × Fin 256))
  /-- PASS_END (R131): A pass ends after its last column and budget cycles. -/
  | passEnd (site : Site)
  /-- ACLOSE_START (R136): A queued close starts and marks its slot closing. -/
  | acloseStart (site : Site)
  /-- CLOSE_RUN (R136): After its passes end, a close scans, cross-checks, writes out and completes the assay record.
  -/
  | closeRun (site : Site) (slot : Fin 2)
  /-- CLOSE_END (R136): A close frees its slot and ends with its status. -/
  | closeEnd (site : Site) (slot : Fin 2)
  /-- TAILINGS (R143): An idle array runs dummy work while tailings are requested. -/
  | tailings (site : Site) (cycles : Nat)
  /-- SR_SEED_LOAD (R113): A write of ASSAY.SR_SEEDs_HI loads a generator stream's state. -/
  | srSeedLoad (w : Requester) (site : Site) (stream : Fin 5) (hi : Word)
  /-- SPMV_END (R165): An SpMV operation ends after its rows are written and merged. -/
  | spmvEnd (site : Site)
  /-- SHIFT_LOAD (R208): A write of CORE.SHIFT_LOAD with go starts copying a descriptor into a shift slot, or is
  refused. -/
  | shiftLoad (w : Requester) (site : Site) (v : Word)
  /-- SHIFT_LOAD_END (R208): A shift load ends with its status and sets or clears the slot's valid bit. -/
  | shiftLoadEnd (site : Site)
  /-- ROT_RUN (R227): Setting ROT_CTRL.run starts a switch into step 0. -/
  | rotRun (w : Requester) (f : FieldNo) (v : Word)
  /-- ROT_ADVANCE (R227): Setting ROT_CTRL.advance asks for a switch at the end of the frame. -/
  | rotAdvance (w : Requester) (f : FieldNo) (v : Word)
  /-- ROT_STOP (R227): Clearing ROT_CTRL.run switches to the empty shift at the end of the frame. -/
  | rotStop (w : Requester) (f : FieldNo) (v : Word)
  /-- BEAT (R212): The field runs one schedule beat: slot entries, cursors, steering and scheduled commands. -/
  | beat (f : FieldNo) (residues : List (Site × Fin 32 × Fin 256))
  /-- SHIFT_SWITCH (R228): At a rotation step the field leaves the old shift and copies, binds and loads the next. -/
  | shiftSwitch (f : FieldNo)
  /-- SWITCH_BEAT0 (R228): The switch ends at beat 0, entering threads start and the command table begins. -/
  | switchBeat0 (f : FieldNo)
  /-- HOLD_REQUEST (R223): A core compares elastic demand with seen levels and raises or drops a hold request. -/
  | holdRequest (site : Site) (switchLeft : Nat)
  /-- FIELD_FREEZE (R224): The field freezes 8 cycles after a hold request. -/
  | fieldFreeze (f : FieldNo)
  /-- FIELD_RESUME (R224): The field resumes 8 cycles after requests drop. -/
  | fieldResume (f : FieldNo)
  /-- STEER_TOKEN_PUSH (R221): A write of CORE.STEER_TQu pushes a token, or is refused when full. -/
  | steerTokenPush (w : Requester) (site : Site) (u : Fin 2) (v : Word)
  /-- ELASTIC_STEER (R222): An elastic steering unit pairs a data item with a token and forwards or discards it. -/
  | elasticSteer (site : Site) (u : Fin 2)
  /-- ELASTIC_MERGE (R222): An elastic merge unit moves the next item from the input its token names. -/
  | elasticMerge (site : Site) (u : Fin 2)
  /-- STEER_TIMEOUT (R220): A steering unit waits through 4,096 frozen cycles and the job fails. -/
  | steerTimeout (site : Site) (u : Fin 2)
  /-- DRAIN_START (R233): Setting DRAIN_STATUS.start stops inputs, ignores hold and stops threads. -/
  | drainStart (w : Requester) (f : FieldNo) (v : Word)
  /-- DRAIN_SCHEDULE_STOP (R233): After drain_beats beats the schedule stops. -/
  | drainScheduleStop (f : FieldNo)
  /-- DRAIN_END (R234): When every core is drained the field's drain ends and job-bound hoists abort. -/
  | drainEnd (f : FieldNo)
  /-- DRAIN_LIMIT_EXPIRY (R233): DRAIN_LIMIT expires and everything not drained is discarded. -/
  | drainLimitExpiry (f : FieldNo)
  /-- CHUTE_BIND (R240): A write of CHUTE.CFGe with a role binds the endpoint, or is refused. -/
  | chuteBind (w : Requester) (site : Site) (e : Fin 32) (v : Word)
  /-- CHUTE_UNBIND (R261): Writing role 0 unbinds an endpoint and discards its pending data. -/
  | chuteUnbind (w : Requester) (site : Site) (e : Fin 32) (v : Word)
  /-- BIND_REQUEST_RETRY (R241): An unready producer repeats its bind request every 1 us. -/
  | bindRequestRetry (site : Site) (e : Fin 32)
  /-- BIND_REQUEST (R241): A consumer answers a bind request with grant, not yet or mismatch. -/
  | bindRequest (p : Packet)
  /-- GRANT (R241): A producer receiving a grant becomes ready. -/
  | grant (p : Packet)
  /-- NOT_YET (R241): A producer receiving not yet keeps repeating. -/
  | notYet (p : Packet)
  /-- MISMATCH (R241): A producer receiving mismatch sets bind_error and stops. -/
  | mismatch (p : Packet)
  /-- READ_POINTER_UPDATE (R247): A producer receives the consumer's absolute read pointer and updates free seen. -/
  | readPointerUpdate (p : Packet)
  /-- UNBIND_NOTICE (R261): A producer receiving an unbind notice clears ready. -/
  | unbindNotice (p : Packet)
  /-- CHUTE_DATA_SEND (R246): A producer sends pending entries when 32 are pending or 4 cycles have passed. -/
  | chuteDataSend (site : Site) (e : Fin 32)
  /-- POINTER_UPDATE_SEND (R247): A consumer sends a read-pointer update at most once per 16 cycles. -/
  | pointerUpdateSend (site : Site) (e : Fin 32)
  /-- CHUTE_DATA (R261): A CHUTE_DATA packet arrives at a consumer endpoint, or is discarded if unbound. -/
  | chuteData (p : Packet)
  /-- CHUTE_LANDING (R254): Entries land in the ring through the stream port, dropping or spoiling records when full.
  -/
  | chuteLanding (site : Site) (e : Fin 32)
  /-- READ (R269): A READ request is checked at the owner's window arbiter and served or refused. -/
  | read (p : Packet)
  /-- WRITE (R269): A posted WRITE is checked and committed or dropped. -/
  | write (p : Packet)
  /-- WRITE_ACKED (R274): A WRITE_ACKED is checked, committed and answered with an ACK. -/
  | writeAcked (p : Packet)
  /-- SIGNALLED_WRITE (R365): A SIGNALLED_WRITE is checked, committed and its signal applied in order. -/
  | signalledWrite (p : Packet)
  /-- COUNTED_WRITE (R366): A COUNTED_WRITE is committed and its bytes added to the named tally. -/
  | countedWrite (p : Packet)
  /-- PRIV_READ (R275): A privileged read skips window checks and returns data. -/
  | privRead (p : Packet)
  /-- PRIV_WRITE (R275): A privileged write skips window checks and is acknowledged. -/
  | privWrite (p : Packet)
  /-- READ_DATA (R196): A read response reaches the requester and ends or advances its tagged operation. -/
  | readData (p : Packet)
  /-- ACK (R196): An acknowledgement reaches the requester and ends or advances its tagged operation. -/
  | ack (p : Packet)
  /-- LOSS_NOTICE (R345): A loss notice reaches a source and ends its operation or is recorded. -/
  | lossNotice (p : Packet)
  /-- TAG_TIMEOUT (R345): A tag held beyond ROUTER.TIMEOUT ends its operation with TIMEOUT. -/
  | tagTimeout (site : Site) (tag : Fin 64)
  /-- WINDOW_OPEN (R267): Writing open 1 to WIN.CTRLw opens a window or sets open_pending. -/
  | windowOpen (w : Requester) (site : Site) (win : Fin 16) (v : Word)
  /-- WINDOW_CLOSE (R267): Writing open 0 starts a close and increments the generation. -/
  | windowClose (w : Requester) (site : Site) (win : Fin 16) (v : Word)
  /-- WINDOW_CLOSED (R267): A closing window becomes closed after its accepted accesses, reopening if pending. -/
  | windowClosed (site : Site) (win : Fin 16)
  /-- BANK_PARK (R278): A write of CORE.MEM_PARK park bits makes banks closing. -/
  | bankPark (w : Requester) (site : Site) (v : Word)
  /-- BANK_WAKE (R278): A write of CORE.MEM_PARK wake bits starts banks waking. -/
  | bankWake (w : Requester) (site : Site) (v : Word)
  /-- BANK_PARKED_DONE (R279): A closing bank becomes parked after its accepted accesses commit. -/
  | bankParkedDone (site : Site) (bank : Fin 16)
  /-- BANK_ACTIVE (R280): A waking bank becomes active 544 cycles after waking starts. -/
  | bankActive (site : Site) (bank : Fin 16)
  /-- SCRUB_READ (R285): The scrubber reads the next SRAM word each interval. -/
  | scrubRead (site : Site)
  /-- ECC_WRITEBACK (R286): A corrected word is written back in the next free bank cycle. -/
  | eccWriteback (site : Site) (word : Fin 8192)
  /-- HOIST_DOORBELL (R297): A write of HOIST.DOORBELL adds pending units, or is discarded on overflow. -/
  | hoistDoorbell (w : Requester) (h : Fin 208) (v : Word)
  /-- DOORBELL_RTSIG (R297): A TALLY_SIGNAL to a stack port adds pending units to a hoist, or sets bad_doorbell. -/
  | doorbellRtsig (p : Packet)
  /-- DESCRIPTOR_START (R300): A hoist with pending units fetches and checks its next descriptor. -/
  | descriptorStart (h : Fin 208)
  /-- COPY (R301): Hoist op 0 copies bytes in stream order. -/
  | copy (h : Fin 208) (bad : List (Nat × Nat))
  /-- FILL (R301): Hoist op 1 fills destination rows with a pattern. -/
  | fill (h : Fin 208)
  /-- TURN (R302): Hoist op 2 transposes elements of a given width. -/
  | turn (h : Fin 208) (bad : List (Nat × Nat))
  /-- PACK (R306): Hoist op 3 packs wide input into a narrow packed tensor with records. -/
  | pack (h : Fin 208) (bad : List (Nat × Nat))
  /-- HOIST_COMPLETION (R310): When all parts end the hoist writes the completion record. -/
  | hoistCompletion (h : Fin 208)
  /-- HOIST_SIGNAL (R310): After the record write is acknowledged the hoist signals the named tally. -/
  | hoistSignal (h : Fin 208)
  /-- HOIST_ENABLE (R319): Writing HOIST.CTRL.en starts or stops descriptor fetching. -/
  | hoistEnable (w : Requester) (h : Fin 208) (v : Word)
  /-- HOIST_PAUSE (R312): Writing HOIST.CTRL.pause pauses or resumes a hoist. -/
  | hoistPause (w : Requester) (h : Fin 208) (v : Word)
  /-- HOIST_ABORT (R313): Writing HOIST.CTRL.abort ends the running descriptor with ABORTED and clears pending. -/
  | hoistAbort (w : Requester) (h : Fin 208) (v : Word)
  /-- INTERLEAVE_WRITE (R293): A write of STACKPORT.INTERLEAVE.mode changes the HBM mapping, or is refused. -/
  | interleaveWrite (w : Requester) (v : Word)
  /-- PATROL_SCRUB (R316): The patrol scrubber reads the next HBM burst. -/
  | patrolScrub (stack : Fin 32)
  /-- STACK_OFFLINE (R317): A stack port goes OFFLINE on a fatal condition or a 10 us silence. -/
  | stackOffline (stack : Fin 32) (cause : OfflineCause)
  /-- HEAD_ROUTE (R337): A router routes an arriving head by dimension order, ring mode or exit, or ends it. -/
  | headRoute (site : Site) (p : Packet)
  /-- VC2_ESCAPE (R339): A VC2 head waiting 32 cycles without credit escapes to VC3. -/
  | vc2Escape (site : Site) (p : Packet)
  /-- LINK_CRC_ERROR (R324): A flit failing its CRC is ignored, voided, discarded with its packet or poisoned. -/
  | linkCrcError (site : Site) (side : Side) (flit : BadFlit) (errs : BitVec 288)
  /-- LINK_DEAD (R325): 16 cycles without a good flit declare a link dead. -/
  | linkDead (site : Site) (side : Side)
  /-- ROUTER_DEATH (R341): A router dies during a run, becomes a HOLE and nearby routers are fenced. -/
  | routerDeath (site : Site)
  /-- ROUTE_MAP_UPDATE (R342): The pithead rewrites route registers through the adit. -/
  | routeMapUpdate (x : Option Site)
  /-- EID_WRITE (R349): A write of ROUTER.EID assigns a core endpoint, refused for duplicates or own threads. -/
  | eidWrite (w : Requester) (site : Site) (v : Word)
  /-- ADDRESS_BOOK_WRITE (R353): A write of ROUTER.BOOKi_HI installs an address-book entry with the held LO. -/
  | addressBookWrite (w : Requester) (site : Site) (entry : Fin 256) (v : Word)
  /-- DIRECTORY (R55): A foreman answers a directory request for an EID. -/
  | directory (p : Packet)
  /-- DIRECTORY_ANSWER (R351): A core installs a directory answer and resumes the waiting operation. -/
  | directoryAnswer (p : Packet)
  /-- TALLY_SIGNAL (R359): A TALLY_SIGNAL increments a tally, which may fire. -/
  | tallySignal (p : Packet)
  /-- BARRIER_ARRIVAL (R368): A child's barrier arrival is counted for a round or answered with OVERRUN or BUSY. -/
  | barrierArrival (p : Packet)
  /-- BARRIER_RELEASE (R370): A parent's release closes a forwarded round or is discarded. -/
  | barrierRelease (p : Packet)
  /-- TALLY_TIMEOUT (R363): A TWAIT deadline passes and the waiter is released with TIMEOUT. -/
  | tallyTimeout (site : Site) (t : Fin 4)
  /-- TALLY_CAPTURE (R380): A write of TALLYDBG.SEL captures a tally's whole state. -/
  | tallyCapture (w : Requester) (f : FieldNo) (v : Word)
  /-- TALLY_COMMIT (R380): A write of TALLYDBG.COMMIT applies mode, parent and round, or is refused. -/
  | tallyCommit (w : Requester) (f : FieldNo) (v : Word)
  /-- CANARY_WINDOW (R374): A field still for CANARY.WINDOW cycles becomes quiet or idle. -/
  | canaryWindow (f : FieldNo)
  /-- CANARY_POLL (R375): The pithead reads every field's canary at least every 50 us. -/
  | canaryPoll
  /-- JOB_WATCHDOG (R378): A job exceeding its watchdog limit is snapshotted and drained. -/
  | jobWatchdog
  /-- LINK_ENABLE (R387): Writing SEAM.CTRL.enable 1 starts training. -/
  | linkEnable (w : Requester) (n : Fin 96) (v : Word)
  /-- LINK_DISABLE (R387): Writing SEAM.CTRL.enable 0 takes a link to OFF, sending going-down if UP. -/
  | linkDisable (w : Requester) (n : Fin 96) (v : Word)
  /-- TRAINING_DONE (R388): Training and identity exchange end, the link becoming READY or DOWN. -/
  | trainingDone (n : Fin 96)
  /-- TRAINING_TIMEOUT (R387): Training fails within 100 ms and the link goes DOWN. -/
  | trainingTimeout (n : Fin 96)
  /-- FRAME_SEND (R385): A seam link sends its next frame with the ready flits. -/
  | frameSend (n : Fin 96)
  /-- DATA_FRAME (R386): A data frame is accepted in order or discarded with nak. -/
  | dataFrame (n : Fin 96) (frame : WireFrame)
  /-- IDLE_FRAME (R387): An idle frame delivers acks, credits and the enabled flag. -/
  | idleFrame (n : Fin 96) (frame : WireFrame)
  /-- IDENTITY_FRAME (R388): An identity frame records the peer's chip and link. -/
  | identityFrame (n : Fin 96) (frame : WireFrame)
  /-- GOING_DOWN_FRAME (R389): A going-down frame takes the link DOWN with cause peer. -/
  | goingDownFrame (n : Fin 96) (frame : WireFrame)
  /-- REPLAY_TIMEOUT (R386): Ack not advancing for 2 us resends every unacknowledged frame. -/
  | replayTimeout (n : Fin 96)
  /-- SIGNAL_LOSS (R389): Frame lock or signal lost for 1 us takes the link DOWN. -/
  | signalLoss (n : Fin 96)
  /-- SEAM_EGRESS (R394): A head at a seam outward port leaves, is re-targeted or ends NO_ROUTE. -/
  | seamEgress (n : Fin 96) (p : Packet)
  /-- SEAM_INGRESS (R395): A head from the peer is injected locally or treated as transit. -/
  | seamIngress (n : Fin 96) (p : Packet)
  /-- TRANSLATION_FILL (R395): A translation-cache miss is filled from the foreman directory and the packet proceeds.
  -/
  | translationFill (n : Fin 96) (p : Packet)
  /-- OCCUPANCY_PUBLISH (R394): Each link publishes its occupancy every 100 ns. -/
  | occupancyPublish (n : Fin 96)
  /-- CRT_DATA_WRITE (R392): A write of SEAM.CRT_DATA replaces a chip route table entry. -/
  | crtDataWrite (w : Requester) (v : Word)
  /-- BAR2_READ (R405): A host read through the aperture returns engine data or 0xFF with an error recorded. -/
  | bar2Read (port : Port2) (off length : Nat)
  /-- BAR2_WRITE (R405): A host write through the aperture commits or is dropped with an error recorded. -/
  | bar2Write (port : Port2) (off : Nat) (data : List Byte)
  /-- KEEPER_HEARTBEAT (R409): A keeper write of HOSTPORT.HEARTBEAT restarts the lapse timer. -/
  | keeperHeartbeat (port : Port2)
  /-- KEEPER_LAPSED (R409): No heartbeat for HEARTBEAT_LIMIT ms sets lapsed. -/
  | keeperLapsed
  /-- TAKEOVER (R410): The other port takes the keeper role while lapsed, or is refused. -/
  | takeover (port : Port2)
  /-- HANDOVER (R410): The keeper hands the role to the other port, or is refused. -/
  | handover (port : Port2)
  /-- JOB_ARM (R412): A write of JOB.ARM.go checks and arms the staged slate. -/
  | jobArm (port : Port2) (v : Word)
  /-- CANCEL_CURRENT (R419): JOB.CANCEL.current aborts or removes the current slate. -/
  | cancelCurrent (port : Port2)
  /-- CANCEL_NEXT (R419): JOB.CANCEL.next removes the next slate. -/
  | cancelNext (port : Port2)
  /-- JOB_LOADING (R417): With no job running the pithead starts loading the first current slate. -/
  | jobLoading
  /-- JOB_RUNNING (R417): After the last rotation start is acknowledged the slate becomes RUNNING. -/
  | jobRunning
  /-- JOB_DONE (R418): An RTSIG with tally 0 to the pithead ends the running job DONE. -/
  | jobDone (p : Packet)
  /-- JOB_COMPLETION (R420): After the drain and hoist aborts the pithead writes the records and sends MSI-X. -/
  | jobCompletion
  /-- PORT_RESET (R423): PERST, Function Level Reset or link down resets one host port. -/
  | portReset (port : Port2)
  /-- CAPPING_LOOP (R444): Every 100 us the pithead sets each running field's step from its limits. -/
  | cappingLoop (m : Readings)
  /-- AVSBUS_WRITE (R432): A voltage write goes to a regulator instance when the instance is free. -/
  | avsbusWrite
  /-- STEP_UP_CONFIRM (R432): Sensors confirm a raised voltage and the clock glides up. -/
  | stepUpConfirm (f : FieldNo)
  /-- STEP_FAULT (R433): A raised voltage unconfirmed after 1.8 us restores the old step. -/
  | stepFault (f : FieldNo)
  /-- DROOP_STRETCH (R437): A droop sensor below threshold stretches the clock. -/
  | droopStretch (f : FieldNo) (mv : Nat)
  /-- STRETCH_END (R437): The stretch ends after 64 good stretched cycles. -/
  | stretchEnd (f : FieldNo) (mv : Nat)
  /-- ENVELOPE_UPDATE (R438): Every 100 ns a field updates its envelope, tailings duty and gate. -/
  | envelopeUpdate (f : FieldNo) (rise : Bool)
  /-- LEDGER_TICK (R446): Each microsecond is charged to one throttle reason and WAIT_PACE. -/
  | ledgerTick (f : FieldNo)
  /-- THROTTLE_CLEAR (R456): THROTTLE.CLEAR clears the ledger. -/
  | throttleClear (w : Requester) (f : FieldNo) (v : Word)
  /-- ENV_STAMP (R442): A write of ENV.STAMP applies the staged environment. -/
  | envStamp (w : Requester) (v : Word)
  /-- ENV_STALE (R442): 10 s without a stamp makes ENV stale. -/
  | envStale
  /-- PARK (R448): A park request starts the park sequence, or is refused. -/
  | park (w : Requester) (v : Word)
  /-- UNPARK (R449): An unpark request powers and resets a parked field, or is refused. -/
  | unpark (w : Requester) (v : Word)
  /-- PARK_INTERIOR_DRAINED (R347): The interior empties or PARK_DRAIN expires; leftovers are truncated and power goes
  off. -/
  | parkInteriorDrained (f : FieldNo)
  /-- UNPARK_VOLTAGE_TIMEOUT (R449): VCORE unconfirmed within 20 us leaves the field parked. -/
  | unparkVoltageTimeout (f : FieldNo)
  /-- AUTO_PARK (R450): With auto_park the pithead parks unused fields and unparks those a slate needs. -/
  | autoPark
  /-- COOLANT_STOP (R451): COOLANT_OK low for 1 us stops the engine. -/
  | coolantStop
  /-- THERMAL_STOP (R451): A junction at 115 C stops the engine. -/
  | thermalStop (f : FieldNo)
  /-- STOP_CLOCK_GATE (R453): At the end of the stop sequence interior clocks gate and the job ends FAULTED. -/
  | stopClockGate
  /-- STOP_CLEAR (R454): MODPWR.STOP.clear is accepted or refused. -/
  | stopClear (w : Requester) (v : Word) (coolantOk : Bool) (hottest : Int)
  /-- FIELD_PLL_UNLOCK (R430): A field PLL losing lock stops the field and faults its job. -/
  | fieldPllUnlock (f : FieldNo)
  /-- MODULE_COLD_RESET (R553): MOD_RESET_N low for 10 us or power-on begins module cold reset. -/
  | moduleColdReset
  /-- RESET_RELEASE (R553): 100 us after MOD_RESET_N rises bring-up stage 1 begins. -/
  | resetRelease (coolantOk : Bool)
  /-- BRINGUP_STAGE (R464): A bring-up stage runs once the previous ends. -/
  | bringupStage (r : StageResult)
  /-- FIELD_BRINGUP (R465): A field is powered, tested and merged into the harvest map. -/
  | fieldBringup (f : FieldNo) (r : FieldTest)
  /-- ADIT_READ (R461): Adit op 0x1 reads a field register. -/
  | aditRead (f : FieldNo) (addr : Nat) (errs : BitVec 72)
  /-- ADIT_WRITE (R461): Adit op 0x2 writes a field register. -/
  | aditWrite (f : FieldNo) (addr : Nat) (data : Word) (errs : BitVec 72)
  /-- ADIT_TIME_HI (R461): Adit op 0x3 stages engine time high bits. -/
  | aditTimeHi (f : FieldNo) (data : Word) (errs : BitVec 72)
  /-- ADIT_TIME_LO (R463): Adit op 0x4 applies engine time with slew or step. -/
  | aditTimeLo (f : FieldNo) (data : Word) (errs : BitVec 72)
  /-- ADIT_LOOP (R461): Adit op 0x5 responds at once. -/
  | aditLoop (f : FieldNo) (errs : BitVec 72)
  /-- ADIT_TEST (R461): Adit op 0x6 starts a self-test. -/
  | aditTest (f : FieldNo) (data : Word) (errs : BitVec 72)
  /-- ADIT_SCAN (R461): Adit op 0x7 scan access, denied while debug locked. -/
  | aditScan (f : FieldNo) (data : Word) (errs : BitVec 72)
  /-- ADIT_POWER (R461): Adit op 0x8 switches VCORE, isolation and PLL. -/
  | aditPower (f : FieldNo) (data : Word) (errs : BitVec 72)
  /-- FOREMAN_RESET (R461): Adit op 0x9 resets the foreman and clears its memory. -/
  | foremanReset (f : FieldNo) (errs : BitVec 72)
  /-- FIELD_RESET (R485): Adit op 0xA performs a field reset. -/
  | fieldReset (f : FieldNo) (errs : BitVec 72)
  /-- ADIT_RESPONSE (R462): A good response frame ends an adit access. -/
  | aditResponse (f : FieldNo) (errs : BitVec 72)
  /-- ADIT_TIMEOUT (R462): An access without response in 3 us is retried, switched or the node declared unreachable.
  -/
  | aditTimeout (f : FieldNo) (errs : BitVec 72)
  /-- TIME_BROADCAST (R463): Every 1 ms the pithead broadcasts engine time. -/
  | timeBroadcast (bad : BitVec 48)
  /-- FULL_HARVEST (R471): HARVEST_CTRL.full starts a full harvest, or is refused. -/
  | fullHarvest (w : Requester) (v : Word)
  /-- JOURNAL_WRITE (R470): The pithead appends a harvest change to flash. -/
  | journalWrite (ok mapOk : Bool)
  /-- HEARTBEAT_SEND (R474): Each period the foreman sends heartbeats to its sites. -/
  | heartbeatSend (f : FieldNo)
  /-- HEARTBEAT (R474): A core's control logic answers a heartbeat. -/
  | heartbeat (p : Packet)
  /-- HEARTBEAT_ANSWER (R474): A heartbeat answer reaches the foreman. -/
  | heartbeatAnswer (p : Packet)
  /-- HEARTBEAT_MISS (R474): A beat unanswered after 10 us is missed; enough misses send an echo. -/
  | heartbeatMiss (site : Site)
  /-- ECHO_RETURN (R474): A returned echo seals the core as SEALED. -/
  | echoReturn (p : Packet)
  /-- ECHO_TIMEOUT (R474): An echo unreturned in 10 us makes the site HOLE. -/
  | echoTimeout (site : Site)
  /-- FOREMAN_HEARTBEAT (R483): A foreman's heartbeat reaches the pithead. -/
  | foremanHeartbeat (f : FieldNo)
  /-- FOREMAN_LOST (R484): No foreman heartbeat for 300 us leads to drain and field reset. -/
  | foremanLost (f : FieldNo) (stopped : Bool)
  /-- ENGINE_WARM_RESET (R485): PITHEAD.RESET.warm resets every field. -/
  | engineWarmReset (w : Requester) (v : Word)
  /-- FIELD_RESET_REQUEST (R487): PITHEAD.RESET.field_go requests a field reset, or is refused. -/
  | fieldResetRequest (w : Requester) (v : Word)
  /-- CORE_RESET (R486): FIELDCTL.CORE_RESET resets a core, or is refused. -/
  | coreReset (w : Requester) (f : FieldNo) (v : Word)
  /-- ERRLOG_CLEAR (R492): ERRLOG.CLEAR empties the field's error ring. -/
  | errlogClear (w : Requester) (f : FieldNo) (v : Word)
  /-- QUOTE (R517): Mailbox command returns a signed quote of the engine's state. -/
  | quote (port : Port2) (flashOk : Bool)
  /-- READ_CERT (R521): Mailbox command returns identity certificate k. -/
  | readCert (port : Port2)
  /-- EXTEND (R510): Mailbox command extends M5 to M7. -/
  | extend (port : Port2)
  /-- INSTALL (R509): Mailbox command installs a release into the inactive slot. -/
  | install (port : Port2)
  /-- COMMIT_SVN (R508): Mailbox command blows anti-rollback fuse steps. -/
  | commitSvn (port : Port2)
  /-- SET_OWNER (R518): Mailbox command sets the owner digest. -/
  | setOwner (port : Port2)
  /-- ENROL_SUCCESSOR (R515): Mailbox command generates and activates a successor identity key. -/
  | enrolSuccessor (port : Port2) (flashOk : Bool)
  /-- DEBUG_CHALLENGE (R519): Mailbox command returns a fresh debug challenge. -/
  | debugChallenge (port : Port2)
  /-- DEBUG_UNLOCK (R519): Mailbox command stages parts and decides a debug unlock. -/
  | debugUnlock (port : Port2)
  /-- DEBUG_LOCK (R519): Mailbox command locks debug. -/
  | debugLock (port : Port2)
  /-- LOCK (R518): Setting SECURITY.LOCK.lock fixes the owner digest. -/
  | lock (w : Requester) (v : Word)
  /-- COREACC_READ (R542): A COREACC.SEL go with write 0 reads a core register. -/
  | coreaccRead (w : Requester) (f : FieldNo) (v : Word)
  /-- COREACC_WRITE (R542): A COREACC.SEL go with write 1 writes a core register. -/
  | coreaccWrite (w : Requester) (f : FieldNo) (v : Word)
  /-- COREACC_END (R542): A COREACC access ends with its status and data. -/
  | coreaccEnd (f : FieldNo)
  /-- SMBUS_STATUS (R550): SMBus command 0x01 returns the status byte. -/
  | smbusStatus
  /-- BOOT_STATE (R550): SMBus command 0x02 returns the boot state. -/
  | bootState
  /-- SMBUS_POWER (R550): SMBus command 0x03 returns module power. -/
  | smbusPower
  /-- TEMP (R550): SMBus command 0x04 returns the hottest junction. -/
  | temp
  /-- RAIL_FAULT (R550): SMBus command 0x05 returns the rail fault bits. -/
  | railFault
  /-- SERIAL (R550): SMBus command 0x06 returns the module serial. -/
  | serial
  /-- STOP_CAUSE (R550): SMBus command 0x07 returns the stop cause. -/
  | stopCause
  /-- ALERT_ACK (R550): SMBus command 0x10 clears recovered rail fault bits. -/
  | alertAck (good : BitVec 55) (pec : Option Byte)
  /-- VCORE_RAIL_FAULT (R548): A silent or faulty regulator, or a 10 us sag, faults the field and rail. -/
  | vcoreRailFault (f : FieldNo)
  /-- RIM_RAIL_FAULT (R552): A rim rail out of tolerance for 10 us takes its blocks down. -/
  | rimRailFault (rail : Fin 7)
  /-- READ_CLEAR (R101): A read of an RC register returns and clears it. -/
  | readClear (w : Requester) (a : RegAddr) (n : Nat)
  /-- REGISTER_WRITE (R533): A write to a register with no row of its own stores, sets, clears or is refused. -/
  | registerWrite (w : Requester) (a : RegAddr) (v : DWord) (n : Nat)
  /-- ILLEGAL (R174): A thread issues a word whose major opcode or function is unassigned and takes the precise
  ILLEGAL exception. -/
  | illegal (site : Site) (t : Fin 4) (word : Word)
  /-- SLATE_REJECTED (R414): A LOADING slate fails a header, digest, section, shift-load or write check and ends
  REJECTED, leaving its fields in the empty shift and writing its record. -/
  | slateRejected
  /-- UNPARK_VOLTAGE_CONFIRM (R449): The sensors confirm VCORE at the step-0 set point within 20 us, after which the
  PLL locks, cores reset, routing unparks and the field enters RUN. -/
  | unparkVoltageConfirm (f : FieldNo)
  /-- HOST_LINK_UP (R424): A host port's PCIe link reaches the data link active state and HOSTPORT.LINK.dl_active
  sets, enabling handovers to that port and the writing of completion records. -/
  | hostLinkUp (port : Port2)
deriving DecidableEq, Repr

end Sys2Proof
end

