-- ==== Sys2Proof/Machine/EngineTypes.lean ====
section
/-! DEFINITION. The state of everything outside the cores as plain data: fields and foremen, routes, stack ports and
hoists, seam links, host ports and jobs, power, the adit, and the pithead with its flash. Plain registers live in one
register file by register-space offset (R526); what is here is the state behind them. -/

namespace Sys2Proof.Machine

/-- An ERRLOG entry (R478). -/
structure ErrEntry where
  code : Nat
  severity : Severity
  source : Nat
  site : Nat
  job : Nat
  repeats : Nat
  info : Nat
  time : Nat
  info2 : Nat
deriving DecidableEq, Repr

/-- A non-negative fraction, for the envelope and gate of R438. -/
structure Frac where
  n : Nat
  d : Nat
deriving DecidableEq, Repr

/-- FIELDPWR.STATE.state (R455). -/
inductive PowerState
  | run | stepping | parking | parked | unparking | stopped
deriving DecidableEq, Repr

/-- FIELDCTL.BRINGUP.state (R490). -/
inductive Bringup
  | down | testing | up | lost | foremanStopped
deriving DecidableEq, Repr

/-- Where a field's schedule stands (R227, R228). -/
inductive Sched
  /-- The empty shift: no beats run. -/
  | idle
  /-- Beats run in the current rotation step. -/
  | beats
  /-- A switch is in progress toward a rotation step, or, with none, toward the empty shift. -/
  | switching (tgt : Option Nat)
  /-- The rotation step has come: the switch toward a step, or toward the empty shift, is due. -/
  | due (tgt : Option Nat)
deriving DecidableEq, Repr

/-- A drain in progress (R233): its start by the field's clock and the beats left before the schedule stops. -/
structure Drain where
  since : Nat
  beatsLeft : Nat
  schedStopped : Bool
deriving DecidableEq, Repr

/-- A running COREACC access (R542): the fields of SEL as written with go. -/
structure CoreAcc where
  write : Bool
  x : Nat
  y : Nat
  word : Nat
  /-- Who asked for it: the requester whose captured halves it meets (R534). -/
  who : Requester
deriving DecidableEq, Repr

/-- One field with its foreman and adit node. -/
structure Field where
  power : PowerState
  bringup : Bringup
  vcoreOn : Bool
  isolated : Bool
  pllLocked : Bool
  step : Nat
  /-- The ceiling the last loop set (R444). -/
  ceiling : Nat
  /-- An upward step change whose voltage is not yet confirmed: the new step, and the start of its voltage write (R432). -/
  stepUp : Option (Nat × Option Nat)
  /-- A step change that waits for the end of a stretch (R437), and whether its voltage is confirmed. -/
  stepDue : Option Nat
  stepReady : Bool
  /-- VCORE's set point in mV as last written, 0 off. -/
  setMv : Nat
  envelope : Frac
  duty : Frac
  gate : Frac
  stretched : Bool
  /-- The field's clock when the stretch began, and up to which its cycles are counted. -/
  stretchAt : Nat
  stretchFrom : Nat
  /-- The field is frozen by the slew gate and not by a hold request (R440). -/
  gateFrozen : Bool
  sched : Sched
  rotStep : Nat
  /-- P and F of the current step, as the switch found them. -/
  period : Nat
  frames : Nat
  frame : Nat
  beat : Nat
  /-- The field's unheld clock at which its next beat runs. -/
  beatAt : Nat
  frozen : Bool
  /-- CORE_CLK time in twentieths of a cycle: all of it, the held part, and its value when the freeze began. -/
  clk : Nat
  held : Nat
  freezeAt : Nat
  /-- Unheld CORE_CLK cycles of the field when all its cores were last reset together (R171). -/
  base : Nat
  /-- Changes of the field's hold request by its clock, oldest first: the hold follows them by 8 cycles (R224); and the
  clock up to which held cycles are counted (R235). -/
  holdLog : List (Nat × Bool)
  /-- The unheld clock up to which SWITCH_CYCLES counts the switch in progress (R235). -/
  switchFrom : Nat
  heldFrom : Nat
  drain : Option Drain
  /-- The field's clock when its interior closed to new heads (R347). -/
  parkAt : Nat
  clockGated : Bool
  onGalClk : Bool
  foremanUp : Bool
  foremanTallies : SMap Tally
  foremanMem : SMap Byte
  /-- The field is lost (R466); sites are tested again at its next bring-up: 0 not, 1 quick re-check, 2 in full; a field
  reset waits for the end of the job (R484). -/
  lost : Bool
  testMode : Nat
  resetDue : Bool
  /-- Number of the next heartbeat and the time of the last round, beats not yet answered (site, number, time sent), misses in
  a row by site, echoes outstanding (site, time sent). -/
  beatNo : Nat
  beatSent : Nat
  unanswered : List (Nat × Nat × Nat)
  misses : SMap Nat
  echoes : List (Nat × Nat)
  /-- Engine time of the foreman's last heartbeat that reached the pithead; number of the next one it sends, and the time of the
  last one sent (R483). -/
  foremanSeen : Nat
  pitBeat : Nat
  pitSent : Nat
  /-- Residue mismatches and uncorrectable words lately reported, by site, with their times (R475). -/
  residues : List (Nat × Nat)
  eccWords : List (Nat × Nat × Nat)
  errlog : SMap (Option ErrEntry)
  errNext : Nat
  errWritten : Nat
  ledger : SMap Nat
  ledgerLast : SMap Nat
  /-- Reason charged to the last microsecond, none before the first; the loop's reason, and the one the field held last
  at its ceiling (R446). -/
  lastReason : Option Nat
  loopReason : Nat
  heldReason : Nat
  waitPace : Nat
  waitLast : Nat
  waiting : Bool
  /-- The field's clock at its latest activity, and, while it is quiet, up to which its quiet cycles are counted (R374). -/
  stillSince : Nat
  quietFrom : Nat
  /-- The hold in progress has been counted as long (R374). -/
  longHold : Bool
  /-- The clock was stretched, the slew gate shut for part of a window, and a hold froze the field, in the microsecond now
  running (R436, R446). -/
  droopIn : Bool
  slewIn : Bool
  holdIn : Bool
  /-- Most of its cores were blocked at some time in the microsecond now running (R436). -/
  blockedIn : Bool
  coreAcc : Option CoreAcc
  /-- Bits 28 and 27 of TALLYDBG.CTRL that a write has cleared since the last capture (R380). -/
  tallyClr : Nat
  /-- Sensors that fail their self-check, by bit (R444). -/
  failedSensors : Nat
  /-- FIELDCTL.BRINGUP: links that failed stitch, and the status of the last TEST op (R490). -/
  stitchFailed : Nat
  testStatus : Nat
  /-- The adit node: how far its copy of engine time is ahead of the pithead's (R429), the staged high half, whether
  TIME_LO has set it, and whether it uses its alternate parent (R29). -/
  skew : Int
  /-- What the node still has to slew away, whether at half rate, and the thousandths of a nanosecond slewed so far. -/
  slewLeft : Int
  slewFast : Bool
  slewFrac : Nat
  nodeHi : Nat
  nodeSet : Bool
  altParent : Bool
  unreachable : Bool
  delay : Nat
deriving DecidableEq, Repr

def Field.reset : Field :=
  { power := .parked, bringup := .down, vcoreOn := false, isolated := true, pllLocked := false, step := 0
    ceiling := 0, stepUp := none, stepDue := none, stepReady := false, setMv := 0, envelope := ⟨0, 1⟩, duty := ⟨0, 1⟩, gate := ⟨1, 1⟩
    stretched := false, stretchAt := 0, stretchFrom := 0, gateFrozen := false, holdLog := [], heldFrom := 0, parkAt := 0
    sched := .idle, rotStep := 0, period := 1, frames := 0, frame := 0, beat := 0, beatAt := 0, switchFrom := 0, frozen := false, clk := 0, held := 0, freezeAt := 0, base := 0, drain := none
    clockGated := false, onGalClk := false, foremanUp := false, lost := false, testMode := 0, resetDue := false, foremanTallies := [], foremanMem := [], beatNo := 0, beatSent := 0
    unanswered := [], misses := [], echoes := [], foremanSeen := 0, pitBeat := 0, pitSent := 0, residues := [], eccWords := [], errlog := []
    errNext := 0, errWritten := 0, ledger := [], ledgerLast := [], lastReason := none, loopReason := 0, heldReason := 0, waitPace := 0
    waitLast := 0, waiting := false, stillSince := 0, quietFrom := 0, longHold := false, droopIn := false, slewIn := false, holdIn := false, blockedIn := false, coreAcc := none, tallyClr := 0, failedSensors := 0, stitchFailed := 0, testStatus := 0
    skew := 0, slewLeft := 0, slewFast := false, slewFrac := 0, nodeHi := 0, nodeSet := false, altParent := false, unreachable := false, delay := 0 }

/-! ## Routes (R340) -/

/-- A route hole: a rectangle of routers, and whether it is a parked interior. -/
structure Hole where
  x0 : Nat
  x1 : Nat
  y0 : Nat
  y1 : Nat
  parked : Bool
deriving DecidableEq, Repr

/-- What of a packet stands behind its head: a router, the input whose buffer holds flits of the packet, that buffer's
virtual channel and whether it is the ring lane (R338), the flits in it, and the output that the packet holds there until its
tail has passed (R330). -/
structure Seg where
  at_ : Nat
  inp : Nat
  vc : Nat
  lane : Bool
  flits : Nat
  out : Side
deriving DecidableEq, Repr

/-- A packet on the wafer: the router its head stands at, and whether the packet has left on its exit port. Until then its
flits stand in the head's buffer — the input (0 for a port of the router's own, then N, E, S, W), virtual channel and lane —
and, nearest first, in the buffers of `trail`. -/
structure Flight where
  at_ : Nat
  exited : Bool
  pkt : Packet
  inp : Nat
  vc : Nat
  lane : Bool
  here : Nat
  /-- The hole it travels round (R342). -/
  around : Option Hole
  trail : List Seg
deriving DecidableEq, Repr

/-- A packet as it enters the wafer at a router, and one that has left on its exit port. -/
def Flight.fresh (x : Nat) (p : Packet) : Flight := ⟨x, false, p, 0, p.vc, false, 1 + p.flits, none, []⟩
def Flight.landed (x : Nat) (p : Packet) : Flight := ⟨x, true, p, 0, p.vc, false, 0, none, []⟩

/-- One direction of a mesh link. -/
structure Link where
  /-- The sender: credits in use by channel and lane (2 · VC + lane), and the returned counters as last received by VC. -/
  used : SMap Nat
  seen : SMap Nat
  /-- The receiver: credits returned by VC, counted modulo 4 (R323). -/
  returned : SMap Nat
  /-- Input served last by VC, and whether VC3 goes before VC2 next (R326). -/
  served : SMap Nat
  turn3 : Bool
deriving DecidableEq, Repr

def Link.reset : Link := ⟨[], [], [], [], false⟩

/-! ## Hoists (R295 to R313) -/

/-- A descriptor as read from the ring (R299), 64 bytes, and the pack extension (R304) where it has one. -/
structure HoistRun where
  desc : List Byte
  ext : List Byte
  seq : Nat
  /-- Where it stands: fetched and valid, moved, or recorded with its signal still to send. -/
  moved : Bool
  recorded : Bool
  status : Status
  cause : Status
  bytesDone : Nat
  firstFail : Option Nat
  failStacks : Nat
deriving DecidableEq, Repr

structure Hoist where
  pending : Nat
  head : Nat
  run : Option HoistRun
  /-- Job that binds the hoist, 0 for none (R312, R414). -/
  job : Nat
  /-- Sequence number of the next packer record (R99). -/
  recSeq : Nat
deriving DecidableEq, Repr

def Hoist.reset : Hoist := ⟨0, 0, none, 0, 0⟩

/-! ## Seam links (R383 to R397) -/

inductive SeamState
  | off | training | ready | up | down
deriving DecidableEq, Repr

structure Seam where
  state : SeamState
  /-- Cause of the last DOWN, and the occupancy last published (R394, R399). -/
  cause : Nat
  occupancy : Nat
  /-- An identity frame has come since training began, whether it showed the peer enabled, and what the peer's frames
  show last. -/
  peerSeen : Bool
  idEnabled : Bool
  peerEnabled : Bool
  /-- Sequence number of the next data frame, that of the last accepted, and that of the last acknowledged. -/
  txSeq : Nat
  rxSeq : Nat
  lastAck : Nat
  nakOut : Bool
  /-- The replay buffer, oldest first, and what of it a resend in progress has still to send. -/
  unacked : List SeamFrame
  resend : List SeamFrame
  /-- Resends in a row that began at the same frame, and the time of the last SEAM_REPLAY. -/
  resends : Nat
  replayAt : Option Nat
  /-- Packets that leave: the entry router each came to, and how many of its flits have been sent. -/
  egress : List (Nat × Packet × Nat)
  /-- VC3 goes before VC2 next (R326). -/
  turn3 : Bool
  /-- Flits sent by VC, and the peer's freed counters as last received, modulo 256. -/
  sentFlits : SMap Nat
  peerFreed : SMap Nat
  /-- The receive buffer: packets partly received by VC, whole packets, those that wait for a translation (R395), the
  freed counters, and how many packets of each VC were left from before the link last trained. -/
  partial_ : SMap (Option Packet)
  arrived : List Packet
  waiting : List Packet
  freed : SMap Nat
  old : SMap Nat
  /-- Translation cache: local endpoint to site number plus one. -/
  cache : SMap Nat
  /-- The bytes of the frame last sent: what the peer is given. -/
  out : Option (List Byte)
deriving DecidableEq, Repr

def Seam.reset : Seam :=
  { state := .off, cause := 0, occupancy := 0, peerSeen := false, idEnabled := false, peerEnabled := false, txSeq := 0
    rxSeq := 255, lastAck := 255, nakOut := false, unacked := [], resend := [], resends := 0, replayAt := none
    egress := [], turn3 := false, sentFlits := [], peerFreed := [], partial_ := [], arrived := [], waiting := []
    freed := [], old := [], cache := [], out := none }

/-- The going-down frame of a link that is shut (R384, R396). -/
def Seam.goingDown (l : Seam) : List Byte :=
  SeamFrame.bytes ⟨4, 0, l.rxSeq, l.nakOut, false, (List.range 4).map fun v => l.freed.get (fun _ => 0) v, [], 0, 0⟩

/-! ## Host ports and jobs (R401 to R425) -/

inductive SlateState
  | empty | waiting | loading | running | draining
deriving DecidableEq, Repr

/-- An armed slate (R411, R412). -/
structure Slate where
  state : SlateState
  image : Nat
  cmpl : Nat
  watchdog : Nat
  vector : Nat
  noIrq : Bool
  hoistBind : Nat
  id : Nat
  seq : Nat
deriving DecidableEq, Repr

/-- How a job ended (R418, R420). -/
inductive JobEnd
  | done (exitCode : Nat) | aborted (cause : Nat) | faulted (cause : Nat) | rejected (st : Status)
deriving DecidableEq, Repr

/-- The job in progress: its port, fields and history. -/
structure Job where
  port : Nat
  id : Nat
  fields : Nat
  startTime : Nat
  running : Bool
  genStart : Nat
  ended : Option JobEnd
  limitExpired : Bool
  snapshots : Bool
  truncated : Bool
  /-- Fault record entries gathered so far, 16 bytes each (R482). -/
  faults : List (List Byte)
  sealed_ : Nat
  fenced : Nat
  undrained : Nat
  /-- The aborts of its hoists have been made (R313). -/
  hoistsEnded : Bool
  /-- A flash write of a harvest change failed during the job (R482). -/
  journalFail : Bool
  /-- A forced park waits for the job's end: the field to park (R447). -/
  thenPark : Option Nat
deriving DecidableEq, Repr

/-- The configuration space of a host port's function, as far as the spec names it, with the MSI-X table in BAR4 (R401, R402).
The places of bits within a register are PCI Express's. -/
structure PciConfig where
  /-- Power state: 0 D0, 3 D3hot. -/
  power : Nat
  /-- Device control: [7:5] payload size, [14:12] read request size. -/
  device : Word
  /-- MSI-X control: [31] enable, [30] all vectors masked. -/
  msix : Word
  /-- Errors logged through AER: [20] unsupported request. -/
  aer : Word
  /-- ECRC: [6] generation, [8] checking. -/
  ecrc : Word
  /-- Addresses of the BARs by register, as the host assigns them. -/
  bars : SMap Word
  /-- Table words by number, four a vector: address, upper address, data, control with the mask in bit 0. -/
  table : SMap Word
  /-- The pending bit array: vectors raised while masked. -/
  pend : List Nat
deriving DecidableEq, Repr

def PciConfig.reset : PciConfig := { power := 0, device := 0x2000, msix := 0, aer := 0, ecrc := 0, bars := [], table := [], pend := [] }

/-- A table word after reset: every vector is masked. -/
def tableReset (k : Nat) : Word := if k % 4 = 3 then 1 else 0
def PciConfig.tableWord (c : PciConfig) (k : Nat) : Word := c.table.get tableReset k
/-- Whether a vector is masked, by itself or with all others. -/
def PciConfig.masked (c : PciConfig) (v : Nat) : Bool := bit c.msix.toNat 30 || bit (c.tableWord (4 * v + 3)).toNat 0

structure HostPort where
  cur : Option Slate
  next : Option Slate
  armSeq : Nat
  /-- MSI-X messages sent, by vector, and not yet taken by the host (R421). -/
  msix : List Nat
  cfg : PciConfig
  /-- The mailbox: whether a command is queued or running (R521). -/
  mboxBusy : Bool
deriving DecidableEq, Repr

def HostPort.reset : HostPort :=
  { cur := none, next := none, armSeq := 0, msix := [], cfg := PciConfig.reset, mboxBusy := false }

def HostPort.d3hot (p : HostPort) : Bool := p.cfg.power == 3
/-- An interrupt: its message is sent, or stays pending while its vector is masked; none where MSI-X is off (R421). -/
def HostPort.raised (p : HostPort) (v : Nat) : HostPort :=
  if !bit p.cfg.msix.toNat 31 then p
  else if p.cfg.masked v then { p with cfg := { p.cfg with pend := if p.cfg.pend.contains v then p.cfg.pend else p.cfg.pend ++ [v] } }
  else { p with msix := p.msix ++ [v] }
/-- Pending messages whose vectors are masked no more are sent. -/
def HostPort.unmask (p : HostPort) : HostPort :=
  if !bit p.cfg.msix.toNat 31 then p
  else
    let go := (List.range 64).filter fun v => p.cfg.pend.contains v && !p.cfg.masked v
    { p with msix := p.msix ++ go, cfg := { p.cfg with pend := p.cfg.pend.filter fun v => !go.contains v } }

/-! ## Pithead -/

/-- PITHEAD.BOOT.state (R489). -/
inductive BootState
  | rom | bringup | ready | halted | failed | harvesting
deriving DecidableEq, Repr

/-- An adit frame (R460) without its CRC: op 0xF marks a response, whose address field carries the status. -/
structure AditFrame where
  op : Nat
  node : Nat
  seq : Nat
  addr : Nat
  data : Nat
deriving DecidableEq, Repr

/-- An adit access in flight (R460, R462): the request as sent last, how often it has been sent on this path, and whether
the node has moved to its other parent for it. -/
structure AditAcc where
  request : AditFrame
  tries : Nat
  switched : Bool
  /-- Engine time of the request, and the response frame that a node has sent for it. -/
  sent : Nat
  answer : Option AditFrame
deriving DecidableEq, Repr

/-- A release slot of module flash (R506): its bytes, absent when the slot is empty or invalid. -/
structure Release where
  bytes : List Byte
deriving DecidableEq, Repr

/-- A copy of the harvest map in flash (R470): its generation, its entries, and whether its CRC is good. -/
structure MapCopy where
  gen : Nat
  sites : SMap (BitVec 16)
  valid : Bool
deriving DecidableEq, Repr

/-- A copy of the reservation end in flash (R513): its value, its sequence number, and whether its CRC-32 is good. -/
structure ReserveCopy where
  value : Nat
  seq : Nat
  valid : Bool
deriving DecidableEq, Repr

/-- What module flash and the fuses hold (R470, R454, R508 to R518, R540). -/
structure Flash where
  serial : Nat
  boots : Nat
  fuseSteps : Nat
  /-- The fused voltage offsets by field, in mV (R431). -/
  voltOffset : SMap Int
  vendorDigest : List Byte
  slot0 : Option Release
  slot1 : Option Release
  owner : List Byte
  /-- The two copies of the map, and the journal of changes: site, entry, generation. A number of 322,560 or more
  stands for a field lost or restored, which changes the generation alone. -/
  map0 : MapCopy
  map1 : MapCopy
  journal : List (Nat × Nat × Nat)
  journalDirty : List (Nat × Nat × Nat)
  stopped : Bool
  stopCleared : Bool
  stopCause : Nat
  stopField : Nat
  /-- Identity (R512 to R516): the fused device secret, the active key's private key sealed under it, the certificates, the
  key's serial, the reservation end in two copies, and the marks of ID_STATUS. -/
  deviceSecret : List Byte
  sealedKey : List Byte
  certs : List (List Byte)
  keySerial : Nat
  reserve0 : ReserveCopy
  reserve1 : ReserveCopy
  low : Bool
  exhausted : Bool
deriving DecidableEq, Repr

def Flash.reset : Flash :=
  { serial := 0, boots := 0, fuseSteps := 0, voltOffset := [], vendorDigest := [], slot0 := none, slot1 := none, owner := []
    map0 := ⟨0, [], true⟩, map1 := ⟨0, [], true⟩, journal := [], journalDirty := [], stopped := false, stopCleared := false, stopCause := 0, stopField := 0
    deviceSecret := [], sealedKey := [], certs := [], keySerial := 0, reserve0 := ⟨0, 0, true⟩, reserve1 := ⟨0, 0, true⟩
    low := false, exhausted := false }

/-- The environment values the keeper stages (R442), and what is applied. -/
structure EnvVals where
  inlet : Nat
  flow : Nat
  budget : Nat
  ambient : Nat
deriving DecidableEq, Repr

structure Pithead where
  boot : BootState
  stage : Nat
  /-- What the bring-up in progress does (R485): 0 quick re-check, 1 none after a warm reset, 2 full harvest. -/
  mode : Nat
  inReset : Bool
  /-- MOD_RESET_N is low, or its 100 µs tail runs. -/
  resetLow : Bool
  /-- Port B is keeper. -/
  keeperB : Bool
  lapsed : Bool
  heartbeat : Nat
  jobCtr : Nat
  /-- Ports in the order of their armed slates (R412): (port, slate sequence). -/
  runOrder : List (Nat × Nat)
  job : Option Job
  harvestGen : Nat
  staged : EnvVals
  applied : EnvVals
  stampTime : Nat
  stamped : Bool
  stale : Bool
  stopSince : Option Nat
  coolantOk : Bool
  capUnmet : Bool
  /-- Voltage writes waiting, as field and millivolts (0 turns the rail off), and when each instance is free. -/
  avsQueue : List (Nat × Nat)
  avsFree : SMap Nat
  /-- The RAIL_FAULT bits (R550). -/
  railFault : Nat
  /-- The last reading of the canaries of the running job: field, WAKES, quiet, idle (R375). -/
  canary : List (Nat × Nat × Bool × Bool)
  /-- Engine time of that reading. -/
  canaryAt : Nat
  adit : List AditAcc
  aditSeq : Nat
  svn : Nat
  fwSeq : Nat
  /-- The slot the running release came from. -/
  slot : Nat
  measures : SMap Nat
  lock : Bool
  debugUnlocked : Bool
  challenge : Option (List Byte × Nat)
  parts : List Byte
  nextPart : Nat
  nextLeaf : Nat
  /-- Mailbox commands in the order their go writes were applied: port, op, arg. -/
  mailbox : List (Nat × Nat × Nat)
  timeHi : Nat
deriving DecidableEq, Repr

def Pithead.reset : Pithead :=
  { boot := .rom, stage := 0, mode := 0, inReset := true, resetLow := true, keeperB := false, lapsed := false, heartbeat := 0
    jobCtr := 0, runOrder := [], job := none, harvestGen := 0, staged := ⟨450, 200, 25000, 350⟩
    applied := ⟨450, 200, 25000, 350⟩, stampTime := 0, stamped := false, stale := true, stopSince := none
    coolantOk := false, capUnmet := false, avsQueue := [], avsFree := [], railFault := 0, canary := [], canaryAt := 0
    adit := [], aditSeq := 0, svn := 0, fwSeq := 0, slot := 0, measures := [], lock := false, debugUnlocked := false
    challenge := none, parts := [], nextPart := 0, nextLeaf := 0
    mailbox := [], timeHi := 0 }

end Sys2Proof.Machine
end

