-- ==== Sys2Proof/Machine/State.lean ====
section
/-! DEFINITION. The whole engine as plain data, and the engine right after a module cold reset. -/

namespace Sys2Proof.Machine

/-- How PCIe completes a request (R402, R464). -/
inductive Completion
  | served | unsupportedRequest | requestRetry
deriving DecidableEq, Repr

/-- The answer of the latest access made from outside the mesh (BAR0, BAR2, SMBus, adit, mailbox): its status and
bytes, and how PCIe completed it. The model's own field: what the reader was given. -/
structure Reply where
  status : Status
  bytes : List Byte
  completion : Completion
deriving DecidableEq, Repr

def Reply.none : Reply := ⟨.ok, [], .served⟩

structure State where
  /-- Commands waiting, first in first out. -/
  pending : List Instr
  /-- The model's own counter, applied to the free values of `Config`. -/
  freeCtr : Nat
  reply : Reply
  /-- Engine time in nanoseconds (R10). -/
  time : Nat
  /-- Plain registers of register space by offset (R526). -/
  regs : SMap Word
  /-- Captured _HI halves of register space (R534) by requester number and page: the offset captured and its value. -/
  latch : SMap (Nat × Word)
  cores : SMap Core
  fields : SMap Field
  /-- The live harvest map by site (R468). -/
  harvest : SMap (BitVec 16)
  /-- Route holes other than the foreman blocks, as the routers hold them (R340). -/
  holes : List Hole
  /-- The map a route update is writing (R342), and the sites R341 fences. -/
  routePending : Option (List Hole)
  fenced : List Nat
  /-- Routers that route updates in progress have rewritten, with the map each holds (R342). -/
  rewritten : List (Nat × List Hole)
  /-- Packets on the wafer, in the order in which they came to the buffers they stand in. -/
  net : List Flight
  /-- Mesh links by sending router and side (4 · router + side). -/
  links : SMap Link
  /-- HBM by stack, channel and location (R291, R292), and the check state of its 32-byte bursts (R290, R314). -/
  hbm : SMap Byte
  hbmEcc : SMap Ecc
  /-- Memory of host A and of host B by PCIe address. -/
  hostA : SMap Byte
  hostB : SMap Byte
  hoists : SMap Hoist
  /-- Stack ports OFFLINE or not yet UP by number: the state code of STACKPORT.STATE (R318). -/
  stackPorts : SMap Nat
  /-- The patrol scrubber's next burst by stack (R316). -/
  patrol : SMap Nat
  seams : SMap Seam
  /-- Chip route table (R392). -/
  crt : SMap Word
  ports : SMap HostPort
  pithead : Pithead
  flash : Flash
deriving DecidableEq, Repr

/-- Why the engine stops. -/
inductive Fault
  /-- VGAL or VAUX is lost: R552 says that traffic through galleries and rim blocks is then undefined. Raised by HEAD_ROUTE at a
  gallery router, and by the commands that move traffic through a rim block: seam frames, heads at a seam link, the operations of
  a hoist and accesses through BAR2. Safe: the model stops where the spec gives no effect. -/
  | galleryRailLost
deriving DecidableEq, Repr

/-- Why a command is refused. -/
inductive Refusal
  /-- Raised by the dispatch of a command with no meaning yet. Safe: the model stops. -/
  | notModelled (mnemonic : String)
deriving DecidableEq, Repr

/-- The engine right after a module cold reset (R553, R485, R488): the pithead waits for MOD_RESET_N, every field is
down and nothing has run. -/
def State.reset : State :=
  { pending := [], freeCtr := 0, reply := Reply.none, time := 0, regs := [], latch := [], cores := [], fields := []
    harvest := [], holes := [], routePending := none, fenced := [], rewritten := [], net := [], links := [], hbm := [], hbmEcc := [], hostA := []
    hostB := [], hoists := [], stackPorts := [], patrol := [], seams := [], crt := [], ports := []
    pithead := Pithead.reset, flash := Flash.reset }

end Sys2Proof.Machine
end

