-- ==== Sys2Proof/Machine/Ops.lean ====
section
/-! DEFINITION. Named operations on the whole engine that every family uses: access to cores, fields and registers, free
values, packets, the error log with its effects (R476 to R479), core SRAM with its check bits (R283, R284), sealing a
core (R480), and taking an exception and returning from it (R199 to R204). -/

namespace Sys2Proof.Machine

abbrev Out := Host.Outcome State Fault Refusal

/-! ## Access -/

def State.core (s : State) (x : Site) : Core := s.cores.get (fun _ => Core.reset) x.key
def State.setCore (s : State) (x : Site) (c : Core) : State :=
  { s with cores := s.cores.set (fun _ => Core.reset) x.key c }
def State.onCore (s : State) (x : Site) (f : Core → Core) : State := s.setCore x (f (s.core x))
def State.thread (s : State) (x : Site) (t : Nat) : Thread := (s.core x).thread t
def State.setThread (s : State) (x : Site) (t : Nat) (th : Thread) : State := s.onCore x fun c => c.setThread t th
def State.onThread (s : State) (x : Site) (t : Nat) (f : Thread → Thread) : State :=
  s.setThread x t (f (s.thread x t))
def State.field (s : State) (f : Nat) : Field := s.fields.get (fun _ => Field.reset) f
def State.setField (s : State) (f : Nat) (v : Field) : State :=
  { s with fields := s.fields.set (fun _ => Field.reset) f v }
def State.onField (s : State) (f : Nat) (g : Field → Field) : State := s.setField f (g (s.field f))
def State.hoist (s : State) (h : Nat) : Hoist := s.hoists.get (fun _ => Hoist.reset) h
def State.setHoist (s : State) (h : Nat) (v : Hoist) : State :=
  { s with hoists := s.hoists.set (fun _ => Hoist.reset) h v }
def State.seam (s : State) (n : Nat) : Seam := s.seams.get (fun _ => Seam.reset) n
def State.setSeam (s : State) (n : Nat) (v : Seam) : State :=
  { s with seams := s.seams.set (fun _ => Seam.reset) n v }
def State.port (s : State) (p : Nat) : HostPort := s.ports.get (fun _ => HostPort.reset) p
def State.setPort (s : State) (p : Nat) (v : HostPort) : State :=
  { s with ports := s.ports.set (fun _ => HostPort.reset) p v }
def State.onPithead (s : State) (f : Pithead → Pithead) : State := { s with pithead := f s.pithead }
/-- The state code of a stack port (R318); 0 until bring-up. -/
def State.stackState (s : State) (n : Nat) : Nat := s.stackPorts.get (fun _ => 0) n

/-- A value the spec leaves open is drawn at this point; the counter advances. -/
def State.fresh (s : State) : Nat × State := (s.freeCtr, { s with freeCtr := s.freeCtr + 1 })

/-- Engine time as a field's adit node keeps it (R429). -/
def State.now (s : State) (f : Nat) : Nat := ((s.time : Int) + (s.field f).skew).toNat

/-- Twentieths of a CORE_CLK cycle that a nanosecond holds: step s runs at 1.0 + 0.1·s GHz (R431), half while stretched
(R437), none while the field's clocks stand. -/
def Field.rate (fl : Field) : Nat :=
  if fl.vcoreOn && fl.pllLocked && !fl.clockGated then (if fl.stretched then 1 else 2) * (10 + fl.step) else 0

/-- A node slews its copy of engine time: 1 ns per µs, or at half rate where it is 64 ns or more ahead (R463). -/
def Field.slewed (fl : Field) (ns : Nat) : Field :=
  if fl.slewLeft = 0 then fl
  else
    let t := fl.slewFrac + ns * (if fl.slewFast then 500 else 1)
    let k : Nat := min (t / 1000) fl.slewLeft.natAbs
    let d : Int := if fl.slewLeft < 0 then -(k : Int) else k
    if k = fl.slewLeft.natAbs then { fl with skew := fl.skew - d, slewLeft := 0, slewFast := false, slewFrac := 0 }
    else { fl with skew := fl.skew - d, slewLeft := fl.slewLeft - d, slewFrac := t % 1000 }

/-- Applies a function to every listed core of a field. Cores not listed are as after a reset. -/
def State.mapCores (s : State) (f : Nat) (g : Site → Core → Core) : State :=
  { s with cores := s.cores.mapVals (fun _ => Core.reset) fun k c =>
      if (Site.ofKey k).field = f then g (Site.ofKey k) c else c }
/-- The listed core sites of a field. -/
def State.coreSites (s : State) (f : Nat) : List Site :=
  (s.cores.keys.map Site.ofKey).filter fun x => x.field == f

/-! ## Sites (R33, R44) -/

/-- The harvest map's entry of a site; sites not listed are ENABLED. -/
def State.siteEntry (s : State) (x : Site) : BitVec 16 := s.harvest.get (fun _ => 0) x.key
def State.siteCode (s : State) (x : Site) : Nat := bits (s.siteEntry x).toNat 15 13
/-- Array width of a site (R44). -/
def State.width (s : State) (x : Site) : Nat :=
  match s.siteCode x with
  | 0 => 64 | 1 => 63 | 2 => 62 | _ => 0
/-- A site whose core has power and is neither sealed, a hole, fenced nor in the foreman block (R33, R341, R536). -/
def State.coreOn (s : State) (x : Site) : Bool :=
  (s.field x.field).vcoreOn && decide (s.siteCode x ≤ 3) && !x.foremanBlock && !s.fenced.contains x.key

/-- Core sites of a field (R17). -/
def fieldSites (f : Nat) : List Site :=
  ((List.range 84).flatMap fun j => (List.range 80).map fun i =>
    (⟨Fin.ofNat 640 (f % 8 * 80 + i), Fin.ofNat 504 (f / 8 * 84 + j)⟩ : Site)).filter fun x => !x.foremanBlock
/-- The job in progress that has not yet ended. -/
def State.liveJob (s : State) : Option Job := s.pithead.job.filter fun j => j.ended.isNone
/-- Whether the job in progress uses a field. -/
def State.jobUses (s : State) (f : Nat) : Bool := (s.pithead.job.map fun j => bit j.fields f).getD false

/-! ## Whether a field stands still (R374) -/

def Thread.blocked (th : Thread) (frozen : Bool) : Bool :=
  match th.state with
  | .stopped | .trapped | .waitTally | .waitChute => true
  | .running | .waitRemote => frozen
/-- A blocked core. -/
def Core.blocked (c : Core) (frozen : Bool) : Bool :=
  ((List.range 4).all fun t => (c.thread t).blocked frozen) && !c.array.busy && c.spmv.isNone && c.shiftLoad.isNone &&
    c.tagsInUse == 0
/-- Whether a chute of the core has data to send, or released entries to report (R246, R247). -/
def Core.chutesSend (c : Core) : Bool :=
  c.chutes.any fun kv =>
    (kv.2.role == .producer && !kv.2.pend.isEmpty) ||
      (kv.2.role == .consumer && !kv.2.record && !kv.2.fault && kv.2.taken != kv.2.reported)
/-- Whether something of the job goes on in a field without a command: a thread runs, a unit works, a beat or a switch advances,
or a chute has something to send. -/
def State.restless (s : State) (f : Nat) : Bool :=
  let fl := s.field f
  s.jobUses f && (!fl.vcoreOn || (fl.sched != .idle && !fl.frozen && !fl.clockGated) ||
    (s.coreSites f).any fun x => s.coreOn x && (!(s.core x).blocked fl.frozen || (s.core x).chutesSend))

/-- Whether more than half of the running job's cores in a field are blocked (R436). -/
def State.mostBlocked (s : State) (f : Nat) : Bool :=
  let fl := s.field f
  s.jobUses f && s.liveJob.any (·.running) &&
    (let total := ((fieldSites f).filter fun x => decide (s.siteCode x ≤ 3)).length
     let active := ((s.coreSites f).filter fun x => s.coreOn x && !(s.core x).blocked fl.frozen).length
     decide (total < 2 * (total - active)))

/-! ## Time -/

/-- Engine time passes: every field's clock runs on (R10). -/
def State.elapse (s : State) (ns : Nat) : State :=
  if ns = 0 then s
  else
    { s with
      time := s.time + ns
      fields := s.fields.mapVals (fun _ => Field.reset) fun f (fl : Field) =>
        { fl.slewed ns with
          clk := fl.clk + ns * fl.rate
          blockedIn := fl.blockedIn || s.mostBlocked f
          stillSince := if s.restless f then fl.clk + ns * fl.rate else fl.stillSince
          held := fl.held + (if fl.frozen then ns * fl.rate else 0) } }
/-- Engine time reaches a moment at which an event is due, if it has not passed it. -/
def State.elapseTo (s : State) (t : Nat) : State := s.elapse (t - s.time)

/-- A field's CORE_CLK time that was not held, in twentieths of a cycle, and its whole cycles. -/
def Field.ran (fl : Field) : Nat := fl.clk - fl.held
def Field.cycle (fl : Field) : Nat := fl.ran / 20
/-- Engine time reaches the moment at which a running field's unheld clock stands at `v`, if it has not passed it. -/
def State.reach (s : State) (f v : Nat) : State := s.elapse (ceilDiv (v - (s.field f).ran) (s.field f).rate)
/-- The unheld cycle a core's field is in. -/
def State.cycleOf (s : State) (x : Site) : Nat := (s.field x.field).cycle

/-- Whether a core's clocks run and its field is not held (R224, R453). -/
def State.coreRuns (s : State) (x : Site) : Bool :=
  s.coreOn x && !(s.field x.field).frozen && !(s.field x.field).clockGated && (s.field x.field).pllLocked

/-- Whether a core's clocks run, held or not: parking, waking and scrubbing go on while the field is frozen (R280,
R285). -/
def State.coreClocked (s : State) (x : Site) : Bool :=
  s.coreOn x && !(s.field x.field).clockGated && (s.field x.field).pllLocked

/-- Whether a requester may reach the register page of a core: its own threads and every party but other cores (R60). -/
def reaches (w : Requester) (x : Site) : Bool :=
  match w with
  | .thread y _ => decide (y = x)
  | _ => true

/-! ## Register space (R526 to R529) -/

/-- Block type code and instance of the page at a register-space offset. -/
def pageAt (off : Nat) : Option (Nat × Nat) :=
  let p := off / 0x1000
  if off < 0x100000 then
    match p with
    | 0 => some (0x01, 0) | 1 => some (0x02, 0) | 2 => some (0x02, 1) | 3 => some (0x03, 0) | 4 => some (0x04, 0)
    | 5 => some (0x05, 0) | 6 => some (0x05, 1) | 7 => some (0x06, 0) | 8 => some (0x07, 0) | 9 => some (0x07, 1)
    | _ =>
      if 0x10 ≤ p ∧ p < 0x20 then some (0x21, 128 + (p - 0x10))
      else if 0x20 ≤ p ∧ p < 0x30 then some (0x21, 144 + (p - 0x20)) else none
  else if off < 0x400000 then
    let fn := (off - 0x100000) / 0x10000
    match p % 16 with
    | 0 => some (0x10, fn) | 1 => some (0x11, fn) | 2 => some (0x12, fn) | 3 => some (0x13, fn) | 4 => some (0x14, fn)
    | 5 => some (0x15, fn) | 6 => some (0x16, fn) | 7 => some (0x19, fn) | 8 => some (0x18, fn) | 9 => some (0x17, fn)
    | 10 => some (0x21, 160 + fn)
    | _ => none
  else if off < 0x600000 then
    let n := (off - 0x400000) / 0x10000
    match p % 16 with
    | 0 => some (0x20, n)
    | q => if q ≤ 4 then some (0x21, 4 * n + (q - 1)) else none
  else if off < 0x780000 then
    if p % 4 = 0 then some (0x30, (off - 0x600000) / 0x4000) else none
  else none

/-- Page bases of register space. -/
def pagePithead : Nat := 0
def pageJob (p : Nat) : Nat := 0x1000 + p * 0x1000
def pageEnv : Nat := 0x3000
def pageModpwr : Nat := 0x4000
def pageSecurity (p : Nat) : Nat := 0x5000 + p * 0x1000
def pageAdit : Nat := 0x7000
def pageHostport (p : Nat) : Nat := 0x8000 + p * 0x1000
def pageField (f p : Nat) : Nat := 0x100000 + f * 0x10000 + p * 0x1000
def pageFieldctl (f : Nat) : Nat := pageField f 0
def pageFieldpwr (f : Nat) : Nat := pageField f 1
def pageThrottle (f : Nat) : Nat := pageField f 2
def pageHarvest (f : Nat) : Nat := pageField f 3
def pageRoute (f : Nat) : Nat := pageField f 4
def pageCanary (f : Nat) : Nat := pageField f 5
def pageErrlog (f : Nat) : Nat := pageField f 6
def pageTallydbg (f : Nat) : Nat := pageField f 7
def pageGallery (f : Nat) : Nat := pageField f 8
def pageCoreacc (f : Nat) : Nat := pageField f 9
def pageStack (n : Nat) : Nat := 0x400000 + n * 0x10000
def pageSeam (n : Nat) : Nat := 0x600000 + n * 0x4000
/-- The page of a hoist by instance (R295, R527 to R529). -/
def pageHoist (h : Nat) : Nat :=
  if h < 128 then pageStack (h / 4) + (h % 4 + 1) * 0x1000
  else if h < 144 then 0x10000 + (h - 128) * 0x1000
  else if h < 160 then 0x20000 + (h - 144) * 0x1000
  else pageField (h - 160) 10

/-- What a stored register of register space holds after reset. -/
def sregReset (off : Nat) : Word :=
  match pageAt off with
  | some (code, _) => regReset (blockRegs code) (off % 0x1000)
  | none => 0
def State.sreg (s : State) (off : Nat) : Word := s.regs.get sregReset off
def State.setSreg (s : State) (off : Nat) (v : Word) : State := { s with regs := s.regs.set sregReset off v }
def State.sregBits (s : State) (off hi lo : Nat) : Nat := bits (s.sreg off).toNat hi lo
def State.sregBit (s : State) (off i : Nat) : Bool := bit (s.sreg off).toNat i
def State.setSregBits (s : State) (off hi lo v : Nat) : State :=
  s.setSreg off (BitVec.ofNat 32 (putBits (s.sreg off).toNat hi lo v))
def State.setSflag (s : State) (off i : Nat) : State := s.setSregBits off i i 1
/-- Adds to a counter that stops at its maximum (R101). -/
def State.scount (s : State) (off n : Nat) : State := if n = 0 then s else s.setSreg off (satAdd (s.sreg off) n)

/-! ## Who reaches register pages (R60, R402, R403, R464, R534, R555) -/

/-- Bring-up runs: a module cold reset, an engine warm reset or a full harvest has not ended. -/
def State.bringing (s : State) : Bool := decide (1 ≤ s.pithead.stage ∧ s.pithead.stage ≤ 6)
/-- Whether the rail of the galleries or the auxiliary rail is out of tolerance: traffic through galleries and rim blocks is then
undefined (R552). -/
def State.rimLost (s : State) : Bool := bit s.pithead.railFault 48 || bit s.pithead.railFault 49
/-- A command that moves traffic through a rim block. -/
def State.throughRim (s : State) (o : Out) : Out := if s.rimLost then .fault .galleryRailLost else o
/-- Whether the pithead serves register pages to hosts: from bring-up stage 2 on, and in state FAILED (R464, R507). -/
def State.served (s : State) : Bool :=
  !s.pithead.inReset && (decide (2 ≤ s.pithead.stage) || s.pithead.boot == .failed)
/-- Whether a page answers: in state FAILED only PITHEAD and SECURITY do (R464). -/
def State.pageAnswers (s : State) (code : Nat) : Bool := s.pithead.boot != .failed || code == 0x01 || code == 0x05
/-- Whether a host's memory requests reach the engine: its port's link is up and BAR0 is served. -/
def State.hears (s : State) (p : Nat) : Bool := s.served && s.sregBit (pageHostport p + 0x040) 8
/-- Whether a requester's accesses are carried out: a port in D3hot serves no memory request. -/
def State.awake (s : State) : Requester → Bool
  | .hostA => s.hears 0 && !(s.port 0).d3hot
  | .hostB => s.hears 1 && !(s.port 1).d3hot
  | .pithead => !s.pithead.inReset
  | .foreman f => (s.field f.val).foremanUp
  | .thread _ _ => true
/-- Whether a requester writes register pages outside the cores: threads do not. -/
def State.pageWriter (s : State) (w : Requester) : Bool :=
  match w with
  | .thread _ _ => false
  | _ => s.awake w

/-- A host's memory request that its port does not support is logged through AER. -/
def State.unsupported (s : State) (p : Nat) : State :=
  let hp := s.port p
  { s.setPort p { hp with cfg := { hp.cfg with aer := hp.cfg.aer ||| 0x100000#32 } } with
    reply := ⟨.ok, [], .unsupportedRequest⟩ }
/-- An access that is not carried out: a host's, to a port in D3hot, is an Unsupported Request. -/
def State.turnedAway (s : State) (w : Requester) : State :=
  match w.port? with
  | some p => if s.hears p then s.unsupported p else s
  | none => s

/-- Where a requester's captured half of a page is kept. -/
def latchKey (w : Requester) (off : Nat) : Nat := w.num * 2 ^ 14 + off / 0x1000
/-- An access discards what its requester had captured of the page. -/
def State.dropLatch (s : State) (w : Requester) (off : Nat) : State := { s with latch := s.latch.del (latchKey w off) }

/-- A command that writes a register outside the cores, at offset `off`. -/
def State.pagePut (s : State) (w : Requester) (off : Nat) (k : State → State) : State :=
  if !s.pageWriter w then s.turnedAway w
  else if (pageAt off).any fun q => s.pageAnswers q.1 then k (s.dropLatch w off)
  else s
/-- The same on a field's page set, but for the registers R536 keeps in service: while the field's VCORE is off such a write is
ignored. -/
def State.fieldPut (s : State) (w : Requester) (f off : Nat) (k : State → State) : State :=
  s.pagePut w off fun s => if (s.field f).vcoreOn then k s else s
/-- A command that writes a register of a core's page, which runs on the field's CTRL_CLK (R40). -/
def State.corePut (s : State) (w : Requester) (x : Site) (k : State → State) : State :=
  if !s.awake w then s.turnedAway w
  else if s.coreClocked x && reaches w x then
    k (s.onCore x fun c => { c with latch := c.latch.del w.num })
  else s

/-- The engine's chip number (R390). -/
def State.chip (s : State) : Nat := s.sregBits (pageSeam 0 + 0x80) 11 0
/-- The EID of a core (R349). -/
def State.coreEid (s : State) (x : Site) : Nat := s.chip * 2 ^ 20 + ((s.core x).eidLocal.getD x.key)

/-! ## Packets -/

/-- The field's own note of an activity. -/
def Field.stirred (fl : Field) : Field := { fl with stillSince := fl.clk }
/-- Activity in a field: from now on it may stand still, and one that reports quiet or idle leaves that state (R374). -/
def State.stirs (s : State) (f : Nat) : State :=
  let fl := s.field f
  let state := s.sregBits (pageCanary f + 0x048) 31 30
  let s := s.setField f fl.stirred
  if state = 0 then s
  else
    let s := s.setSregBits (pageCanary f + 0x048) 31 30 0
    let s := s.setSreg (pageCanary f + 0x058) (s.sreg (pageCanary f + 0x058) + 1)
    if state = 1 then s else s.scount (pageCanary f + 0x060) ((fl.clk - fl.quietFrom) / 20)

/-- Puts a packet on the wafer at a router. -/
def State.inject (s : State) (x : Nat) (p : Packet) : State :=
  State.stirs { s with net := s.net ++ [Flight.fresh x p] } (Site.ofKey x).field
/-- The oldest packet that has left on its exit port and is this one. -/
def State.landing (s : State) (p : Packet) : Option Flight := s.net.find? fun q => q.exited && q.pkt == p
/-- Whether an endpoint may take a packet now: it has left on its exit port, and no older one of VC0 or VC1 from the same
source to the same destination still waits there (R335). -/
def State.lands (s : State) (p : Packet) : Bool :=
  if p.vc ≤ 1 then
    decide ((s.net.find? fun q => q.exited && q.pkt.vc == p.vc && q.pkt.src == p.src && q.pkt.dst == p.dst).map (·.pkt) = some p)
  else (s.landing p).isSome
/-- Takes an arriving packet off the wafer. -/
def takeFlight (p : Packet) : List Flight → List Flight
  | [] => []
  | f :: fs => if f.exited ∧ f.pkt = p then fs else f :: takeFlight p fs
def State.consume (s : State) (p : Packet) : State :=
  match s.landing p with
  | some q => State.stirs { s with net := takeFlight p s.net } (Site.ofKey q.at_).field
  | none => s

/-! ## Jobs and drains (R233, R418, R476) -/

def State.jobId (s : State) : Nat := (s.pithead.job.map (·.id)).getD 0
/-- The largest drain_beats of the field's active shifts (R209, R233); the empty shift's is 1. -/
def State.drainBeats (s : State) (f : Nat) : Nat :=
  (s.coreSites f).foldl (fun acc x =>
    match (s.core x).active with
    | some (_, d) => max acc ((d.get (fun _ => 0) 32).toNat + 256 * (d.get (fun _ => 0) 33).toNat)
    | none => acc) 1

/-- What a drain's start does to a core (R233, R142, R262): consumers refuse, array commands not yet started are
discarded, CORE.DRAIN_STATE is cleared. Its threads stop beside this. -/
def Core.drainBegin (c : Core) : Core :=
  let c := { c with
    chutes := c.chutes.mapVals (fun _ => Chute.reset) fun _ (e : Chute) =>
      if e.role = Role.consumer then { e with refusing := true } else e
    array := { c.array with queue := [] } }
  c.freeTiles.setReg 0x0B4 0

/-! ## The error log (R476 to R479, R531, R532) -/

/-- What an entry says. -/
structure Raise where
  code : Nat
  severity : Severity
  source : Nat
  site : Nat
deriving DecidableEq, Repr

/-- Bytes 4 to 7 of an entry (R478). -/
def siteWord (x : Site) (unit : Nat) : Nat := x.x.val * 2 ^ 19 + x.y.val * 2 ^ 10 + unit % 1024
/-- The site word of a field's south-west core, by which entries of field control, foreman and rim name a field. -/
def fieldWord (f unit : Nat) : Nat := (f % 8 * 80) * 2 ^ 19 + (f / 8 * 84) * 2 ^ 10 + unit % 1024

/-- The page header records an entry (R531): offsets of a page of register space. -/
def State.headerRecord (s : State) (page : Nat) (r : Raise) : State :=
  let s := s.scount (page + 0x01C) 1
  if s.sregBit (page + 0x014) r.severity.code then s
  else
    let s := s.setSflag (page + 0x010) r.severity.code
    if s.sregBit (page + 0x018) 31 then s
    else s.setSreg (page + 0x018) (BitVec.ofNat 32 (2 ^ 31 + r.severity.code * 2 ^ 16 + r.code))
/-- The same on a core's page. -/
def Core.headerRecord (c : Core) (r : Raise) : Core :=
  let c := c.count 0x01C 1
  if c.regBit 0x014 r.severity.code then c
  else
    let c := c.setFlag 0x010 r.severity.code
    if c.regBit 0x018 31 then c
    else c.setReg 0x018 (BitVec.ofNat 32 (2 ^ 31 + r.severity.code * 2 ^ 16 + r.code))

/-- Which page's header records an entry (R532). -/
inductive Page
  | core (x : Site)
  | space (off : Nat)
deriving DecidableEq, Repr

/-- Writes a new entry, overwriting the oldest when the ring is full (R479): whether one was lost. -/
def Field.logNew (fl : Field) (job time k : Nat) (r : Raise) : Field × Bool :=
  let lost := (fl.errlog.get (fun _ => none) fl.errNext).isSome
  ({ fl with
      errlog := fl.errlog.set (fun _ => none) fl.errNext
        (some ⟨r.code, r.severity, r.source, r.site, job, 0, Config.errInfo k, time, Config.errInfo2 k⟩)
      errNext := (fl.errNext + 1) % 96
      errWritten := (fl.errWritten + 1) % 65536 }, lost)

/-- Whether an entry merges with the newest one (R479). -/
def ErrEntry.merges (e : ErrEntry) (time : Nat) (r : Raise) : Bool :=
  e.code == r.code && e.source == r.source && e.site == r.site && decide (time < e.time + 1000000)

/-- The newest entry, where the entry merges with it. -/
def Field.merging (fl : Field) (time : Nat) (r : Raise) : Option ErrEntry :=
  (fl.errlog.get (fun _ => none) ((fl.errNext + 95) % 96)).filter fun e => e.merges time r
/-- Writes or merges the entry (R479). -/
def Field.logEntry (fl : Field) (job time k : Nat) (r : Raise) : Field × Bool :=
  match fl.merging time r with
  | some e =>
    ({ fl with errlog := fl.errlog.set (fun _ => none) ((fl.errNext + 95) % 96) (some { e with repeats := min (e.repeats + 1) 0xFFFF }) },
      false)
  | none => fl.logNew job time k r

/-- The entry and its header record, without the effects of its severity. The spec gives no code's info and info2:
they are free values drawn at `k`. -/
def State.logEntryAt (s : State) (f : Nat) (page : Page) (r : Raise) (k : Nat) : State :=
  let w := (s.field f).logEntry s.jobId s.time k r
  let s := (s.setField f w.1).scount (pageErrlog f + 0x44) w.2.toNat
  match page with
  | .core x => s.onCore x fun c => c.headerRecord r
  | .space off => s.headerRecord off r
def State.logEntry (s : State) (f : Nat) (page : Page) (r : Raise) : State :=
  let v := s.fresh
  v.2.logEntryAt f page r v.1

/-- An MSI-X interrupt of a port (R421). -/
def State.msix (s : State) (p v : Nat) : State := s.setPort p ((s.port p).raised v)

/-! ## Exceptions (R198 to R204) -/

/-- An exception as it is taken. -/
structure Exc where
  cause : Nat
  fetch : Bool
  async : Bool
  status : Status
  eval : DWord
deriving DecidableEq, Repr

/-- ECAUSE (R171). -/
def Exc.ecause (e : Exc) : DWord :=
  BitVec.ofNat 64 (e.fetch.toNat * 2 ^ 17 + e.async.toNat * 2 ^ 16 + e.status.code * 2 ^ 8 + e.cause)

/-- The thread's registers as an exception leaves them. -/
def Thread.saveExc (th : Thread) (e : Exc) (epc : Nat) : Thread :=
  { th with epc := BitVec.ofNat 64 epc, ecause := e.ecause, eval := e.eval, wait := .none }

/-- The oldest hold of a thread that still waits for its exception is taken. -/
def takeHold (t : Nat) (how : HoldStage) : List (Nat × HoldStage) → List (Nat × HoldStage)
  | [] => []
  | h :: hs => if h = (t, .pending) then (t, how) :: hs else h :: takeHold t how hs
/-- The issuing thread takes an ARRAY_CHECK: the hold of R203 that stands for it now waits for its return. -/
def Core.noteTaken (c : Core) (t : Nat) (e : Exc) (how : HoldStage) : Core :=
  if e.cause = 0x08 then c.setHolds (takeHold t how c.array.checkHold) else c

/-- No handler takes the exception, or it is raised in handler mode (R201, R202). -/
def State.trapThread (s : State) (x : Site) (t : Nat) (e : Exc) (epc : Nat) : State :=
  let th := s.thread x t
  let off := 0x080 + 4 * t
  let s := s.setThread x t { th.saveExc e epc with pc := epc % 0x20000, state := .trapped }
  let s := s.onCore x fun c =>
    let c := c.noteTaken t e .trapped
    if c.regBit off 31 then c
    else c.setReg off (BitVec.ofNat 32 (2 ^ 31 + e.async.toNat * 2 ^ 30 + th.handler.toNat * 2 ^ 29 +
      e.cause * 2 ^ 24 + e.status.code * 2 ^ 16 + epc / 4 % 2 ^ 15))
  s.logEntry x.field (.core x) ⟨0x0701, .contained, 0, siteWord x t⟩

/-- Taking an exception (R201, R202): the one operation by which every exception is taken. EPC is `epc`; with a
handler, and outside handler mode, the thread enters CORE.TVEC.handler, and otherwise it becomes TRAPPED. -/
def State.takeExc (s : State) (x : Site) (t : Nat) (e : Exc) (epc : Nat) : State :=
  let c := s.core x
  let th := c.thread t
  if c.regBit 0x070 0 && !th.handler then
    (s.setThread x t { th.saveExc e epc with handler := true, pc := c.regBits 0x070 16 2 * 4, state := .running }).onCore x
      fun c => c.noteTaken t e .handled
  else s.trapThread x t e epc

/-- A precise exception of the instruction at the thread's pc (R199). -/
def State.precise (s : State) (x : Site) (t : Nat) (cause : Nat) (st : Status) (eval : Nat) : State :=
  s.takeExc x t ⟨cause, false, false, st, BitVec.ofNat 64 eval⟩ (s.thread x t).pc

/-- Return from a handler (R197): the pc and the mode as RTE leaves them. R203's hold ends with the RTE that leaves the
handler entered for the ARRAY_CHECK. -/
def State.returnExc (s : State) (x : Site) (t : Nat) : State :=
  let th := s.thread x t
  let s := s.setThread x t { th with pc := th.epc.toNat % 0x20000 / 4 * 4, handler := false }
  s.onCore x fun c =>
    if th.handler then c.endHolds t .handled else c

/-- An asynchronous exception is detected for a thread (R200); a STOPPED thread becomes TRAPPED (R203). -/
def State.detect (s : State) (x : Site) (t : Nat) (a : AsyncExc) : State :=
  let th := s.thread x t
  match th.state with
  | .stopped => s.trapThread x t ⟨a.cause, false, true, Status.ofCode a.status, a.eval⟩ th.pc
  | _ => s.setThread x t { th with async := th.async ++ [a] }

/-- A thread that has come to a stop with an exception not yet taken becomes TRAPPED (R204). -/
def State.settleStop (s : State) (x : Site) (t : Nat) : State :=
  let th := s.thread x t
  match th.state, th.async with
  | .stopped, a :: rest =>
    (s.setThread x t { th with async := rest }).trapThread x t
      ⟨a.cause, false, true, Status.ofCode a.status, a.eval⟩ th.pc
  | _, _ => s

/-- Clears a thread's run bit (R63, R560, R204): a thread with an exception not yet taken becomes TRAPPED. -/
def State.stopThread (s : State) (x : Site) (t : Nat) : State :=
  let was := (s.thread x t).state
  let frozen := (s.field x.field).frozen
  let s := s.onCore x fun c => c.stopThread frozen t
  let s := if was = .trapped then s.onCore x fun c => c.endHolds t .trapped else s
  if was = .stopped then s else s.settleStop x t

/-! ## Ending a job (R418) and starting its drain (R233) -/

/-- A hold that has lasted CANARY.WINDOW cycles is counted, once (R374). -/
def State.noteHold (s : State) (f : Nat) : State :=
  let fl := s.field f
  if fl.frozen && !fl.longHold && !fl.gateFrozen && decide (20 * max 1 (s.sreg (pageCanary f + 0x040)).toNat ≤ fl.clk - fl.freezeAt) then
    (s.setField f { fl with longHold := true }).scount (pageCanary f + 0x05C) 1
  else s

/-- From 5 µs after a stop every core keeps a hold request raised (R452). -/
def State.stopHolds (s : State) : Bool :=
  match s.pithead.stopSince with
  | some t => decide (t + 5000 ≤ s.time)
  | none => false
/-- Whether a field's hold request stood raised at a clock value. -/
def Field.requested (fl : Field) (clk : Nat) : Bool := ((fl.holdLog.filter fun e => decide (e.1 ≤ clk)).getLast?.map (·.2)).getD false
/-- Whether a request raised 8 cycles before holds the field at a clock value (R224). -/
def Field.heldAt (fl : Field) (clk : Nat) : Bool := decide (160 ≤ clk) && fl.requested (clk - 160)
/-- How much of a span of the field's clock requests held: the spans of the log, 8 cycles later. -/
def Field.heldSpan (fl : Field) (a b : Nat) : Nat :=
  let ends := (fl.holdLog.drop 1).map fun e => e.1 + 160
  ((fl.holdLog.zip (ends ++ [b])).map fun e => if e.1.2 then min b e.2 - max a (e.1.1 + 160) else 0).foldl (· + ·) 0

/-- HOLD_CYCLES takes what a freeze has lasted so far under hold, and a hold that began while the slew gate had the field
frozen counts as an event (R235, R440). -/
def State.holdFlush (s : State) (f : Nat) : State :=
  let fl := s.field f
  if !fl.frozen then s
  else
    let n := (if s.stopHolds then fl.clk - fl.heldFrom else fl.heldSpan fl.heldFrom fl.clk) / 20
    let begins := fl.gateFrozen && decide (0 < n)
    (((s.setField f { fl with heldFrom := fl.clk - fl.clk % 20, gateFrozen := fl.gateFrozen && !begins
                              holdIn := fl.holdIn || decide (0 < n) }).scount
      (pageFieldctl f + 0x048) n).scount (pageFieldctl f + 0x04C) begins.toNat)

/-- SWITCH_CYCLES takes the cycles that a switch in progress has run so far (R235). -/
def State.switchFlush (s : State) (f : Nat) : State :=
  let fl := s.field f
  match fl.sched with
  | .switching _ =>
    let till := max fl.switchFrom (min fl.ran fl.beatAt)
    (s.setField f { fl with switchFrom := till }).scount (pageFieldctl f + 0x050) (till / 20 - fl.switchFrom / 20)
  | _ => s
/-- CORE.HOLD_REQ takes the cycles for which the core's request has stood so far (R236). -/
def State.holdReqFlush (s : State) (x : Site) : State :=
  let c := s.core x
  let clk := (s.field x.field).clk
  if c.holdReq.isNone then s
  else s.setCore x ({ c with holdFrom := clk }.count 0x0B0 (clk / 20 - c.holdFrom / 20))

/-- A frozen field goes on: the frozen cycles are counted (R235). -/
def State.unfreeze (s : State) (f : Nat) : State :=
  let s := (s.noteHold f).holdFlush f
  if (s.field f).frozen then s.onField f fun fl => { fl with frozen := false, gateFrozen := false } else s

/-- Starts a drain in a field: steps 1 to 3 of R233. -/
def State.startDrain (s : State) (f : Nat) : State :=
  if (s.field f).drain.isSome then s
  else
    let beats := s.drainBeats f
    let s := (s.unfreeze f).onField f fun fl => { fl with drain := some ⟨fl.clk, beats, false⟩, holdLog := [] }
    let s := s.mapCores f fun _ c => c.drainBegin
    (s.coreSites f).foldl (fun s x => (List.range 4).foldl (fun s t => s.stopThread x t) s) s

/-- The current slate of the running job's port enters a state. -/
def State.slateState (s : State) (p : Nat) (v : SlateState) : State :=
  let hp := s.port p
  s.setPort p { hp with cur := hp.cur.map fun c => { c with state := v } }

/-- Whether a field's clocks run, so that a drain can: R430's stopped field and a dark or gated one drain nothing. -/
def Field.clocked (fl : Field) : Bool := fl.vcoreOn && fl.pllLocked && !fl.clockGated

/-- Ends the job in progress, unless it has ended already, and drains its fields (R418, R430). -/
def State.endJob (s : State) (e : JobEnd) : State :=
  match s.pithead.job with
  | some j =>
    if j.ended.isSome then s
    else
      let s := s.onPithead fun p => { p with job := some { j with ended := some e } }
      let s := s.slateState j.port .draining
      (List.range 48).foldl (fun s f => if bit j.fields f && (s.field f).clocked then s.startDrain f else s) s
  | none => s

/-- Adds an entry to the fault record of the job in progress (R482): at most 252. -/
def State.faultEntry (s : State) (kind st site a b : Nat) : State :=
  match s.pithead.job with
  | some j =>
    let bytes := (leBytes 1 kind ++ leBytes 1 st ++ [0, 0] ++ leBytes 4 site ++ leBytes 4 a ++ leBytes 4 b).map
      (BitVec.ofNat 8)
    let j := if j.faults.length < 252 then { j with faults := j.faults ++ [bytes] } else { j with truncated := true }
    s.onPithead fun p => { p with job := some j }
  | none => s

/-- R477: an ENGINE_FATAL entry other than a stop halts the engine. -/
def State.engineFatal (s : State) (code : Nat) : State :=
  let s := s.endJob (.faulted code)
  s.onPithead fun p => { p with boot := .halted }

/-- The fault record's copy of an ERRLOG entry; an entry that has only been merged is there already (R479). -/
def State.copyEntry (s : State) (merged : Bool) (sev : Nat) (r : Raise) (k : Nat) : State :=
  if merged then s else s.faultEntry 5 0 r.site (sev * 2 ^ 16 + r.code) (Config.errInfo k)

/-- Raises an entry with the effects of its severity (R476). `uses` says whether the job in progress uses the source; a
JOB_FATAL entry with no job in progress acts as CONTAINED. -/
def State.raiseBy (s : State) (f : Nat) (page : Page) (r : Raise) (uses : Bool) : State :=
  let v := s.fresh
  let merged := ((s.field f).merging s.time r).isSome
  let s := v.2.logEntryAt f page r v.1
  match r.severity with
  | .corrected | .contained => s
  | .jobFatal =>
    if s.pithead.job.isNone then s
    else
      let s := (s.msix 0 33).msix 1 33
      if uses then (s.copyEntry merged 2 r v.1).endJob (.faulted r.code) else s
  | .engineFatal => (((s.msix 0 33).msix 1 33).copyEntry merged 3 r v.1).engineFatal r.code

/-- An entry raised by a unit of a field. -/
def State.raise (s : State) (f : Nat) (page : Page) (r : Raise) : State := s.raiseBy f page r (s.jobUses f)
/-- An entry of a core. -/
def State.raiseCore (s : State) (x : Site) (code : Nat) (sev : Severity) (unit : Nat) : State :=
  s.raise x.field (.core x) ⟨code, sev, 0, siteWord x unit⟩

/-- Adds to an ASSAY total: a sum that passes its maximum sets ASSAY.STATUS.counter_saturated (R100). -/
def Core.assayTotal (c : Core) (off n : Nat) : Core :=
  let beyond := decide (0xFFFFFFFF < (c.reg off).toNat + n)
  let c := c.count off n
  if beyond then c.setFlag 0x154 4 else c
def Core.totalOver (c : Core) (off n : Nat) : Bool := decide (0xFFFFFFFF < (c.reg off).toNat + n)
/-- A total added to outside a tile: one that stops is reported (R117). -/
def State.assayTotal (s : State) (x : Site) (off n : Nat) : State :=
  let beyond := (s.core x).totalOver off n
  let s := s.onCore x fun c => c.assayTotal off n
  if beyond then s.raiseCore x 0x0403 .corrected 0 else s

/-- Malformed events that the vector unit counts outside a tile: ASSAY.STATUS.format_invalid says that one was counted
(R102). -/
def State.assayMalformed (s : State) (x : Site) (n : Nat) : State :=
  if n = 0 then s else (s.assayTotal x 0x194 n).onCore x fun c => c.setFlag 0x154 0

/-! ## Sealing a core (R480, R481) -/

/-- The generation counts one change, which is journalled (R469, R470): of a site's entry, or of a field by its number. -/
def State.countChange (s : State) (key e : Nat) : State :=
  let gen := (s.pithead.harvestGen + 1) % 2 ^ 32
  { s with
    pithead := { s.pithead with harvestGen := gen }
    flash := { s.flash with journalDirty := s.flash.journalDirty ++ [(key, e, gen)] } }

/-- A site's entry changes in the live map: a change of its state counts, one of its bypassed columns alone does not. -/
def State.setEntry (s : State) (x : Site) (e : BitVec 16) : State :=
  let t := { s with harvest := s.harvest.set (fun _ => 0) x.key e }
  if bits e.toNat 15 13 = s.siteCode x then t else t.countChange x.key e.toNat
/-- A site's state changes, its bypass fields kept. -/
def State.setSite (s : State) (x : Site) (code : Nat) : State :=
  s.setEntry x (BitVec.ofNat 16 (putBits (s.siteEntry x).toNat 15 13 code))

/-- The foreman has nothing more to watch at a site. -/
def Field.forget (fl : Field) (k : Nat) : Field :=
  { fl with
    unanswered := fl.unanswered.filter fun u => u.1 != k, misses := fl.misses.set (fun _ => 0) k 0
    echoes := fl.echoes.filter fun e => e.1 != k }

/-- The foreman seals a core (R480): state code 4 SEALED or 5 HOLE. The core's state is lost. A site already as bad
stays as it is (R34). -/
def State.sealCore (s : State) (x : Site) (code : Nat) : State :=
  if code ≤ s.siteCode x then s else
  let uses := s.jobUses x.field
  let sev := if uses && s.liveJob.isSome then Severity.jobFatal else .contained
  let s := (s.setSite x code).onField x.field fun fl => fl.forget x.key
  let s := s.setCore x { Core.reset with eidLocal := (s.core x).eidLocal }
  let s := s.scount (pageFieldctl x.field + 0x0AC) 1
  let s := s.onPithead fun p => { p with job := p.job.map fun j => { j with sealed_ := j.sealed_ + 1 } }
  let s := s.faultEntry (if code = 5 then 2 else 1) code (siteWord x 0) 0 0
  s.raise x.field (.space (pageFieldctl x.field)) ⟨0x1101, sev, 1, siteWord x 0⟩

/-- Reports to the foreman that seal a core (R475): eight distinct uncorrectable words within one second. -/
def State.reportWord (s : State) (x : Site) (w : Nat) : State :=
  let fl := s.field x.field
  let recent := fl.eccWords.filter fun e => s.time < e.2.2 + 1000000000
  let words := (recent.filter fun e => !(e.1 == x.key && e.2.1 == w)) ++ [(x.key, w, s.time)]
  let n := (words.filter fun e => e.1 == x.key).length
  if 8 ≤ n then
    (s.setField x.field { fl with eccWords := words.filter fun e => e.1 != x.key }).sealCore x 4
  else s.setField x.field { fl with eccWords := words }

/-- Three residue mismatches within one second (R475). -/
def State.reportResidue (s : State) (x : Site) : State :=
  let fl := s.field x.field
  let recent := (fl.residues.filter fun e => s.time < e.2 + 1000000000) ++ [(x.key, s.time)]
  if 3 ≤ (recent.filter fun e => e.1 == x.key).length then
    (s.setField x.field { fl with residues := recent.filter fun e => e.1 != x.key }).sealCore x 4
  else s.setField x.field { fl with residues := recent }

/-! ## Core SRAM with its check bits (R283, R284) -/

/-- One word is read: a single-bit error is counted and its write-back waits (R286); an uncorrectable one is counted,
recorded and reported, once until the word is rewritten. -/
def State.readWord (s : State) (x : Site) (a : Nat) : State :=
  let c := s.core x
  match c.eccAt a with
  | .clean => s
  | .single _ => s.setCore x ((c.count 0x0C8 1).setEcc a (.single true))
  | .double rep =>
    let c := c.count 0x0CC 1
    let c := if c.regBit 0x0C4 31 then c else c.setReg 0x0C4 (BitVec.ofNat 32 (2 ^ 31 + a / 16))
    let s := s.setCore x (c.setEcc a (.double true))
    if rep then s else (s.raiseCore x 0x0A01 .contained 0).reportWord x (c.placeWord a)

/-- The first uncorrectable word of a range, as an offset. -/
def Core.badWord (c : Core) (a n : Nat) : Option Nat :=
  (wordsOf a n).find? fun w => match c.eccAt w with | .double _ => true | _ => false

/-- Reads a range: the bytes, the first uncorrectable word if there is one, and the state after its reports. -/
def State.readSram (s : State) (x : Site) (a n : Nat) : List Nat × Option Nat × State :=
  let c := s.core x
  (c.bytes a n, c.badWord a n, (wordsOf a n).foldl (fun s w => s.readWord x w) s)

/-- Writes bytes that lie in one word (R283, R284). -/
def State.writeWord (s : State) (x : Site) (a : Nat) (bs : List Nat) : State :=
  let c := s.core x
  let whole := bs.length = 16
  match c.eccAt a with
  | .clean => s.setCore x (c.setBytes a bs)
  | .single _ =>
    let c := if whole then c else c.count 0x0C8 1
    s.setCore x ((c.setBytes a bs).setEcc a .clean)
  | .double _ =>
    if whole then s.setCore x ((c.setBytes a bs).setEcc a .clean)
    else
      let w := a / 16 * 16
      let c := (((c.setBytes w (List.replicate 16 0)).setBytes a bs).setEcc a .clean).count 0x0CC 1
      ((s.setCore x c).raiseCore x 0x0A02 .contained 0).reportWord x (c.placeWord w)

/-- Writes bytes from an offset on, word by word; the fuel is the number of words. A report that seals the core ends it (R475). -/
def State.writeSramN (s : State) (x : Site) : Nat → Nat → List Nat → State
  | 0, _, _ => s
  | _ + 1, _, [] => s
  | n + 1, a, bs =>
    let k := 16 - a % 16
    let t := s.writeWord x a (bs.take k)
    if t.siteCode x = s.siteCode x then t.writeSramN x n (a + k) (bs.drop k) else t
def State.writeSram (s : State) (x : Site) (a : Nat) (bs : List Nat) : State :=
  s.writeSramN x (bs.length / 16 + 2) a bs

/-- What follows on a core, unless the report of a read has sealed it (R475). -/
def State.unlessSealed (s : State) (x : Site) (k : State → State) : State := if s.coreOn x then k s else s

/-! ## Issuing an instruction (R175, R177, R180) -/

/-- Whether a thread can issue: its core has power, its field neither frozen nor clock-gated, it is RUNNING with
nothing outstanding at issue, and no asynchronous exception is due at this boundary (R200). -/
def canIssue (s : State) (x : Site) (t : Nat) : Bool :=
  let th := s.thread x t
  s.coreRuns x && decide (th.state = .running) && decide (th.wait = .none) && th.late.isEmpty &&
    (th.handler || th.async.isEmpty)

/-- Whether a thread's wait for an RLD's result has ended with exceptions detected in it: the instruction that waited goes
first, and they are due after it (R200). -/
def owesIssue (s : State) (x : Site) (t : Nat) : Bool :=
  let th := s.thread x t
  s.coreRuns x && decide (th.state = .running) && decide (th.wait = .none) && !th.late.isEmpty

/-- The guard of an instruction (R175). -/
def guardHolds (th : Thread) (i : Iss) : Bool := th.pred i.pred.val != i.neg

/-- General registers among these that outstanding RLDs will write (R177). -/
def Thread.awaited (th : Thread) (rs : List Nat) : List Nat :=
  rs.filter fun r => r != 0 && th.pendingG.any fun p => p.1 == r

/-- An instruction goes: a false guard skips it; one that needs the result of an outstanding RLD makes the thread wait
(R180); otherwise `run` gives its effect. -/
def issueNow (i : Iss) (rs : List Nat) (s : State) (run : Thread → State) : State :=
  let th := s.thread i.site i.thread.val
  if !guardHolds th i then s.setThread i.site i.thread.val th.advance
  else
    let need := th.awaited rs
    if need ≠ [] then s.setThread i.site i.thread.val { th with state := .waitRemote, wait := .rldResult need false }
    else (run th).stirs i.site.field
/-- An instruction issues; one that cannot issue changes nothing. -/
def issue (i : Iss) (rs : List Nat) (s : State) (run : Thread → State) : State :=
  if canIssue s i.site i.thread.val then issueNow i rs s run
  else if owesIssue s i.site i.thread.val then
    ((issueNow i rs s run).onThread i.site i.thread.val Thread.dueNow).settleStop i.site i.thread.val
  else s

end Sys2Proof.Machine
end

