-- ==== Sys2Proof/Machine/Operands.lean ====
section
/-! DEFINITION. Operand forms of core instructions: immediates, sizes and effective addresses (R173, R182 to R184). -/

namespace Sys2Proof.Machine

/-- A sign-extended immediate of n bits as a 64-bit operand (R173). -/
def simm {n : Nat} (imm : BitVec n) : DWord := BitVec.ofInt 64 imm.toInt

/-- The four conditions and their kin of CMP and CMPI (R182). -/
def condHolds (cond : Nat) (a b : DWord) : Bool :=
  match cond with
  | 0 => a == b
  | 1 => a != b
  | 2 => a.slt b
  | 3 => !a.slt b
  | 4 => a.ult b
  | 5 => !a.ult b
  | _ => (a &&& b) != 0

/-- Bytes of a load or store size code (R184). -/
def sizeBytes (size : Nat) : Nat :=
  match size with
  | 0 | 4 => 1
  | 1 | 5 => 2
  | 2 | 6 => 4
  | _ => 8

/-- A loaded value: codes 0 to 3 sign-extend, 4 to 6 zero-extend (R184). -/
def extendLoad (size v : Nat) : DWord :=
  if size < 4 then BitVec.ofInt 64 (sext (8 * sizeBytes size) v) else BitVec.ofNat 64 v

/-- ga + sext(imm9) × scale, in 64 bits (R184). -/
def offsetAddr (base : DWord) (imm : BitVec 9) (scale : Nat) : Nat :=
  (base + BitVec.ofInt 64 (imm.toInt * scale)).toNat

/-- A relative branch target: pc + 4 × offset, modulo 0x2_0000 (R183). -/
def branchTarget (pc : Nat) (off : Int) : Nat := (((pc : Int) + 4 * off) % 0x20000).toNat

/-- ga + sext(imm12), the page offset of RDREG and WRREG (R197). -/
def pageOffset (base : DWord) (imm : BitVec 12) : Nat := (base + simm imm).toNat

/-! ## Local core space (R59, R184) -/

/-- SRAM offsets and accumulator offsets of a whole access. -/
def inSram (a n : Nat) : Bool := decide (a + n ≤ 0x20000)
def inAcc (a n : Nat) : Bool := decide (0x30000 ≤ a ∧ a + n ≤ 0x38000)

/-- Writes to the accumulator buffer are refused while a pass adds into it or a clear or a close runs (R61, R135). -/
def ArrayState.refuses (a : ArrayState) : Bool :=
  !a.passes.isEmpty || (a.opening.any fun o => bit o.1.ga.toNat 20) || !a.closes.isEmpty

/-- The exception that the checks of R184 find for an access, in their order: cause, status. -/
def accessCheck (c : Core) (width a n align : Nat) (store : Bool) : Option (Nat × Status) :=
  if a % align ≠ 0 then some (0x02, .addrRange)
  else if !(inSram a n || (inAcc a n && decide (4 ≤ n) && decide (width ≠ 0))) then some (0x03, .addrRange)
  else if inSram a n && !c.rangeActive a n then some (0x05, .bankParked)
  else if inAcc a n && store && c.array.refuses then some (0x04, .busy)
  else none

/-- The bytes an accumulator access reads or writes, entry by entry, little-endian (R59). -/
def Core.accBytes (c : Core) (a n : Nat) : List Nat :=
  (List.range n).map fun i => bits (c.accEntry ((a - 0x30000 + i) / 4)) ((a + i) % 4 * 8 + 7) ((a + i) % 4 * 8)
def Core.setAccBytes (c : Core) : Nat → List Nat → Core
  | _, [] => c
  | a, b :: bs =>
    let e := (a - 0x30000) / 4
    (c.setAcc e (putBits (c.accEntry e) (a % 4 * 8 + 7) (a % 4 * 8) b)).setAccBytes (a + 1) bs

/-- Reads local core space for a thread: the bytes, the first uncorrectable word, the state after its reports. -/
def readLocal (s : State) (x : Site) (a n : Nat) : List Nat × Option Nat × State :=
  if inAcc a n then ((s.core x).accBytes a n, none, s) else s.readSram x a n

/-- Stores to local core space. -/
def writeLocal (s : State) (x : Site) (a : Nat) (bs : List Nat) : State :=
  if inAcc a bs.length then s.onCore x fun c => c.setAccBytes a bs else s.writeSram x a bs

end Sys2Proof.Machine
end

