-- ==== Sys2Proof/Machine/Flags.lean ====
section
/-! DEFINITION. The status a thread keeps of its arithmetic and of its remote operations: FCSR (R171) and RSTATUS
(R196). -/

namespace Sys2Proof.Machine

/-- FCSR.rm (R171). -/
def Thread.rm (th : Thread) : Nat := bits th.fcsr.toNat 2 0

/-- Adds sticky flags: FCSR[9:4] is fmt_invalid, invalid, divide-by-zero, overflow, underflow, inexact. -/
def Thread.addFlags (th : Thread) (f : BitVec 6) : Thread :=
  { th with fcsr := th.fcsr ||| (f.setWidth 64 <<< 4) }

/-- Sets FCSR.fmt_invalid (R189). -/
def Thread.fmtInvalid (th : Thread) : Thread := th.addFlags 0b100000#6

/-- A write of FCSR: bits [9:4] and rm, rm 4 to 7 storing 0 (R171). -/
def fcsrWrite (v : DWord) : DWord :=
  let rm := bits v.toNat 2 0
  BitVec.ofNat 64 (bits v.toNat 9 4 * 16 + (if rm < 4 then rm else 0))

/-- A remote operation of the thread ended (R196): statuses other than OK count in RSTATUS. -/
def Thread.remoteEnd (th : Thread) (st : Status) : Thread :=
  if st = .ok then th
  else
    let r := th.rstatus.toNat
    let n := min (bits r 31 16 + 1) 0xFFFF
    let first := if bits r 7 0 = 0 then st.code else bits r 7 0
    { th with rstatus := BitVec.ofNat 64 (n * 2 ^ 16 + first) }

end Sys2Proof.Machine
end

