-- ==== Sys2Proof/Machine/LoadStore.lean ====
section
/-! DEFINITION. Meanings of the local loads and stores (R184, R185, R188). -/

namespace Sys2Proof.Machine

/-- An uncorrectable word that a thread's read meets: an asynchronous ECC exception with the address (R185, R198). -/
def State.eccExc (s : State) (x : Site) (t : Nat) (addr : Nat) : State :=
  s.detect x t ⟨0x06, Status.eccUncorrected.code, BitVec.ofNat 64 addr⟩

/-- A load of `n` bytes at an address: the exception its checks find, or the loaded bytes given to `put`, which
receives zeros where a word is uncorrectable (R184, R185). -/
def loadRun (i : Iss) (addr n align : Nat) (put : Thread → List Nat → Thread) (s : State) : State :=
  match accessCheck (s.core i.site) (s.width i.site) addr n align false with
  | some (cause, st) => s.precise i.site i.thread.val cause st addr
  | none =>
    let r := readLocal s i.site addr n
    let bytes := if r.2.1.isSome then List.replicate n 0 else r.1
    r.2.2.unlessSealed i.site fun s =>
      let s := s.onThread i.site i.thread.val fun th => (put th bytes).advance
      match r.2.1 with
      | some _ => s.eccExc i.site i.thread.val addr
      | none => s

/-- A store of bytes at an address, or the exception its checks find. -/
def storeRun (i : Iss) (addr align : Nat) (bytes : List Nat) (s : State) : State :=
  match accessCheck (s.core i.site) (s.width i.site) addr bytes.length align true with
  | some (cause, st) => s.precise i.site i.thread.val cause st addr
  | none => (writeLocal s i.site addr bytes).unlessSealed i.site fun s => s.onThread i.site i.thread.val Thread.advance

def loadReg (size : Nat) (d : GReg) (th : Thread) (bytes : List Nat) : Thread :=
  th.put d.val (extendLoad size (leNat bytes))

def execLd (i : Iss) (size : Fin 7) (d a : GReg) (imm : BitVec 9) (s : State) : Out :=
  .next <| issue i [d.val, a.val] s fun th =>
    let n := sizeBytes size.val
    loadRun i (offsetAddr (th.get a.val) imm n) n n (loadReg size.val d) s

def execSt (i : Iss) (size : Fin 4) (d a : GReg) (imm : BitVec 9) (s : State) : Out :=
  .next <| issue i [d.val, a.val] s fun th =>
    let n := sizeBytes size.val
    storeRun i (offsetAddr (th.get a.val) imm n) n (leBytes n (th.get d.val).toNat) s

def execLdx (i : Iss) (size : Fin 7) (d a b : GReg) (s : State) : Out :=
  .next <| issue i [d.val, a.val, b.val] s fun th =>
    let n := sizeBytes size.val
    loadRun i (th.get a.val + th.get b.val).toNat n n (loadReg size.val d) s

def execStx (i : Iss) (size : Fin 4) (d a b : GReg) (s : State) : Out :=
  .next <| issue i [d.val, a.val, b.val] s fun th =>
    let n := sizeBytes size.val
    storeRun i (th.get a.val + th.get b.val).toNat n (leBytes n (th.get d.val).toNat) s

/-- VLD: 64 bytes into a vector register, zeros where a word is uncorrectable. -/
def execVld (i : Iss) (v : VReg) (a : GReg) (imm : BitVec 9) (s : State) : Out :=
  .next <| issue i [a.val] s fun th =>
    let addr := offsetAddr (th.get a.val) imm 8
    match accessCheck (s.core i.site) (s.width i.site) addr 64 8 false with
    | some (cause, st) => s.precise i.site i.thread.val cause st addr
    | none =>
      let r := readLocal s i.site addr 64
      let bytes := if r.2.1.isSome then List.replicate 64 0 else r.1
      r.2.2.unlessSealed i.site fun s =>
        let s := (s.onCore i.site fun c => c.setVreg v.val (ofLanes 8 bytes)).onThread i.site i.thread.val Thread.advance
        match r.2.1 with
        | some _ => s.eccExc i.site i.thread.val addr
        | none => s

/-- VST: the 64 bytes of a vector register. -/
def execVst (i : Iss) (v : VReg) (a : GReg) (imm : BitVec 9) (s : State) : Out :=
  .next <| issue i [a.val] s fun th =>
    storeRun i (offsetAddr (th.get a.val) imm 8) 8 (lanesOf 8 ((s.core i.site).vreg v.val)) s

end Sys2Proof.Machine
end

