-- ==== Sys2Proof/Machine/Route.lean ====
section
/-! DEFINITION. Where endpoints lie (R24 to R27, R57, R294, R336, R348, R393), the answer to a lost packet (R343 to
R345), and sending a packet from a core through its address book (R54, R55, R350, R351). -/

namespace Sys2Proof

/-- Where a packet leaves the mesh. -/
structure Dest where
  x : Nat
  y : Nat
  port : Port
  chipEntry : Bool
deriving DecidableEq, Repr

def Dest.of (x : Site) (p : Port) (chip : Bool) : Dest := ⟨x.x.val, x.y.val, p, chip⟩

/-! ## Heads -/

/-- A head with its fixed fields; the target is set when it is sent. -/
def Packet.head (t : PType) (dst src tag job arg data : Nat) : Packet :=
  { ptype := t, vc := t.vc, escape := false, ring := none, status := .ok, tx := 0, ty := 0, port := .local_, dst := dst
    src := src, tag := tag, job := job, arg := arg, data := data, payload := [], poisoned := false }
def Packet.toward (p : Packet) (d : Dest) : Packet := { p with tx := d.x, ty := d.y, port := d.port }

/-- A response to a request, without data (R332, R333). -/
def Packet.response (p : Packet) (src : Nat) (st : Status) : Packet :=
  let t := match p.ptype with
    | .read | .privRead => PType.readData
    | _ => PType.ack
  { Packet.head t p.src src p.tag p.job p.arg 0 with
    status := st
    vc := if p.ptype = .signalledWrite then 0 else t.vc }
/-- The LOSS_NOTICE about a packet (R333, R343). -/
def Packet.notice (p : Packet) (src : Nat) (st : Status) : Packet :=
  { Packet.head .lossNotice p.src src p.tag p.job p.arg (p.ptype.code + p.tag * 2 ^ 16 + p.dst * 2 ^ 32) with
    status := st }
/-- Packets about which no notice is sent (R345). -/
def PType.unnoticed : PType → Bool
  | .lossNotice | .readData | .ack => true
  | _ => false

/-- What answers a packet that ends with a status before it is served: its response where it expects one, otherwise a
notice (R343, R344). -/
def Packet.endAnswer (p : Packet) (src : Nat) (st : Status) : Option Packet :=
  if p.expectsResponse then some (p.response src st)
  else if p.ptype.unnoticed then none
  else some (p.notice src st)

namespace Machine

/-! ## The rim (R24 to R27) -/

/-- Router at position p along a side; a number outside the side wraps. -/
def sideRouter (d : Side) (p : Nat) : Site :=
  match d with
  | .s => ⟨Fin.ofNat 640 p, 0⟩
  | .e => ⟨639, Fin.ofNat 504 p⟩
  | .n => ⟨Fin.ofNat 640 (639 - p), 503⟩
  | .w => ⟨0, Fin.ofNat 504 (503 - p)⟩

/-- Slot t of block k of a side (R25). -/
def slotRouter (d : Side) (k t : Nat) : Site :=
  match d with
  | .s | .n => sideRouter d (k * 80 + (5 * t / 2 + 1))
  | .e | .w => sideRouter d (k * 63 + 9 * t / 4)
/-- Slots per block, and the period by which R26 assigns them. -/
def sideSlots : Side → Nat × Nat
  | .s | .n => (32, 8)
  | .e | .w => (28, 7)
/-- Sides in the order of rim numbering. -/
def rimSide : Nat → Side
  | 0 => .s | 1 => .e | 2 => .n | _ => .w

/-- Slots of a block whose place in the period is one of `us`. -/
def blockSlots (d : Side) (us : List Nat) : List Nat :=
  (List.range (sideSlots d).1).filter fun t => us.contains (t % (sideSlots d).2)

def stackSide (n : Nat) : Side := rimSide (n / 8)
def stackEntries (n : Nat) : List Site :=
  (blockSlots (stackSide n) [0, 2, 4, 6]).map (slotRouter (stackSide n) (n % 8))
def seamSide (n : Nat) : Side := rimSide (n / 24)
def seamEntries (n : Nat) : List Site :=
  (((blockSlots (seamSide n) [1, 3, 5]).drop (n % 3 * 4)).take 4).map (slotRouter (seamSide n) (n % 24 / 3))
/-- Entry routers on the other-use slots of blocks of the south or north side (R27). -/
def otherEntries (d : Side) (ks : List Nat) : List Site :=
  ks.flatMap fun k => (blockSlots d [7]).map (slotRouter d k)
def pitheadEntries : List Site := otherEntries .s [0, 1]
def hostEntries (p : Nat) : List Site := otherEntries (if p = 0 then .s else .n) [2, 3, 4, 5]

/-- Entry router e of a list, or the next one in increasing e that is not a HOLE (R294). -/
def State.entryRouter (s : State) (l : List Site) (e : Nat) : Option Site :=
  ((List.range l.length).map fun i => l.getD ((e + i) % l.length) ⟨0, 0⟩).find? fun x => s.siteCode x != 5

/-! ## Endpoints (R336, R348, R349, R393) -/

/-- The tap of a foreman that faces a router (R336). -/
def foremanTap (f : Nat) (x : Site) : Dest :=
  let bx := f % 8 * 80
  let by_ := f / 8 * 84
  let lx : Int := (x.x.val : Int) - bx
  let ly : Int := (x.y.val : Int) - by_
  let cy := (max 40 (min ly 43)).toNat
  if lx < 38 then ⟨bx + 37, by_ + cy, .side .e, false⟩
  else if 41 < lx then ⟨bx + 42, by_ + cy, .side .w, false⟩
  else if ly < 40 then ⟨bx + lx.toNat, by_ + 39, .side .n, false⟩
  else ⟨bx + lx.toNat, by_ + 44, .side .s, false⟩

def seamCtrl (n : Nat) : Nat := pageSeam n + 0x040
/-- Whether a link is UP and belongs to a group (R391). -/
def State.seamIn (s : State) (g n : Nat) : Bool :=
  s.sregBit (seamCtrl n) 13 && s.sregBits (seamCtrl n) 12 8 == g && decide ((s.seam n).state = .up)
/-- UP links of a group, in increasing number. -/
def State.groupLinks (s : State) (g : Nat) : List Nat := (List.range 96).filter (s.seamIn g)
/-- Valid candidate groups of a chip that are up, in candidate order (R391). -/
def State.upGroups (s : State) (chip : Nat) : List Nat :=
  let e := (s.crt.get (fun _ => 0) chip).toNat
  ((List.range 4).filter fun i => bit e (8 * i + 7)).map (fun i => bits e (8 * i + 4) (8 * i)) |>.filter fun g =>
    !(s.groupLinks g).isEmpty
/-- The deterministic choice (R393). -/
def State.chipLink (s : State) (chip src : Nat) : Option Nat :=
  match s.upGroups chip with
  | g :: _ => let l := s.groupLinks g; l[bits src 19 0 % l.length]?
  | [] => none

/-- The core that answers to a local endpoint (R349). -/
def State.siteOf (s : State) (l : Nat) : Option Site :=
  match s.cores.find? fun kc => kc.2.eidLocal == some l with
  | some kc => some (Site.ofKey kc.1)
  | none =>
    if l < 322560 then
      let x := Site.ofKey l
      if x.foremanBlock || ((s.core x).eidLocal.filter (· != l)).isSome then none else some x
    else none

/-- The exit router and port of an EID for a packet that source `src` sends from router x (R336, R348, R393). -/
def State.resolve (s : State) (x : Site) (src eid : Nat) : Option Dest :=
  let l := eidLocal eid
  let sum := x.x.val + x.y.val
  if eidChip eid ≠ s.chip then
    match s.chipLink (eidChip eid) src with
    | some n => (s.entryRouter (seamEntries n) (sum % 4)).map fun r => Dest.of r (.side (seamSide n)) true
    | none => none
  else if l < 0xFFE00 then (s.siteOf l).map fun r => Dest.of r .local_ false
  else if l < 0xFFE20 then
    (s.entryRouter (stackEntries (l - 0xFFE00)) (sum % 16)).map fun r =>
      Dest.of r (.side (stackSide (l - 0xFFE00))) false
  else if 0xFFE40 ≤ l ∧ l < 0xFFEA0 then
    (s.entryRouter (seamEntries (l - 0xFFE40)) (sum % 4)).map fun r =>
      Dest.of r (.side (seamSide (l - 0xFFE40))) false
  else if 0xFFF00 ≤ l ∧ l < 0xFFF30 then some (foremanTap (l - 0xFFF00) x)
  else if l = eidHostA then (s.entryRouter (hostEntries 0) (sum % 16)).map fun r => Dest.of r (.side .s) false
  else if l = eidHostB then (s.entryRouter (hostEntries 1) (sum % 16)).map fun r => Dest.of r (.side .n) false
  else if l = eidPithead then (s.entryRouter pitheadEntries (sum % 8)).map fun r => Dest.of r (.side .s) false
  else none

/-! ## Route holes (R340) -/

/-- The rectangle of a foreman block (R17). -/
def foremanHole (f : Nat) : Hole :=
  let bx := f % 8 * 80
  let by_ := f / 8 * 84
  ⟨bx + 38, bx + 41, by_ + 40, by_ + 43, false⟩
def foremanHoles : List Hole := (List.range 48).map foremanHole
/-- The interior of a field, which is a route hole while the field is parked (R347). -/
def interiorHole (f : Nat) : Hole :=
  let bx := f % 8 * 80
  let by_ := f / 8 * 84
  ⟨bx + 1, bx + 78, by_ + 1, by_ + 82, true⟩

def Hole.has (h : Hole) (x y : Nat) : Bool := decide (h.x0 ≤ x ∧ x ≤ h.x1 ∧ h.y0 ≤ y ∧ y ≤ h.y1)
/-! ## Sending -/

/-- The job a field's unit writes into its heads (R331). -/
def State.jobOf (s : State) (f : Nat) : Nat := if s.jobUses f then s.jobId else 0

/-- Sends a packet from a router to where the directory says its destination lies; one for which there is no route is
gone. -/
def State.sendDirect (s : State) (x : Site) (p : Packet) : State :=
  match s.resolve x p.src p.dst with
  | some d => s.inject x.key (p.toward d)
  | none => s

/-- A router ends a packet. -/
def State.endPacket (s : State) (x : Site) (p : Packet) (st : Status) : State :=
  match p.endAnswer p.dst st with
  | some q => s.sendDirect x q
  | none => s
/-- A router truncates a packet (R343): the source receives a notice, whatever it expects. -/
def State.losePacket (s : State) (x : Site) (p : Packet) : State :=
  if p.ptype.unnoticed then s else s.sendDirect x (p.notice p.dst .pathLost)

/-! ## The address book (R350, R351) -/

def BookEntry.valid (e : BookEntry) : Bool := bit e.hi.toNat 31
def BookEntry.pinned (e : BookEntry) : Bool := bit e.hi.toNat 30
def BookEntry.chip (e : BookEntry) : Bool := bit e.hi.toNat 29
/-- The exit an entry names; ports 5 to 7 make it never match. -/
def BookEntry.dest (e : BookEntry) : Option Dest :=
  (Port.ofCode (bits e.hi.toNat 28 26)).map fun p => ⟨bits e.hi.toNat 25 16, bits e.hi.toNat 15 7, p, e.chip⟩

/-- The entry an EID finds: its number and exit. -/
def Core.bookFind (c : Core) (chip eid : Nat) : Option (Nat × Dest) :=
  let hit (f : BookEntry → Bool) : Option (Nat × Dest) :=
    (List.range 256).findSome? fun i =>
      let e := c.bookEntry i
      if e.valid && f e then e.dest.map fun d => (i, d) else none
  (hit fun e => !e.chip && e.eid.toNat == eid) <|>
    (if eidChip eid ≠ chip then hit fun e => e.chip && eidChip e.eid.toNat == eidChip eid else none)

/-- An entry is used: it becomes the most recently used. -/
def Core.bookTouch (c : Core) (i : Nat) : Core := { c with bookUse := (c.bookUse.filter (· != i)) ++ [i] }

/-- The entry an answer replaces: an invalid one, else the least recently used that is not pinned. -/
def Core.bookVictim (c : Core) : Option Nat :=
  match (List.range 256).find? fun i => !(c.bookEntry i).valid with
  | some i => some i
  | none =>
    let free := (List.range 256).filter fun i => !(c.bookEntry i).pinned
    (free.find? fun i => !c.bookUse.contains i) <|> (c.bookUse.find? fun i => free.contains i)

/-- Installs an answer (R351). -/
def Core.bookInstall (c : Core) (eid : Nat) (d : Dest) : Core :=
  match c.bookVictim with
  | some i =>
    let hi := BitVec.ofNat 32 (2 ^ 31 + d.chipEntry.toNat * 2 ^ 29 + d.port.code * 2 ^ 26 + d.x * 2 ^ 16 + d.y * 2 ^ 7)
    let e := BitVec.ofNat 32 eid
    { c with book := c.book.set (fun _ => BookEntry.reset) i ⟨e, e, hi⟩ }.bookTouch i
  | none => c

/-! ## Sending from a core -/

/-- The tag field of a head (R331): tag, thread and epoch. -/
def Core.tagField (c : Core) (i : Nat) (t : Option Nat) : Nat := i + 64 * t.getD 0 + 256 * (c.epoch i % 16)

/-- An address-book miss takes a tag and asks the foreman (R55). -/
def State.askDirectory (s : State) (x : Site) (i : Nat) (th : Option Nat) (eid : Nat) : State :=
  let c := (s.core x).setTag i (some ⟨.miss eid, th, s.now x.field, [], .ok⟩)
  let s := s.setCore x c
  let p := Packet.head .directory (s.chip * 2 ^ 20 + eidForeman x.field) (s.coreEid x) (c.tagField i th)
    (s.jobOf x.field) eid 0
  s.inject x.key (p.toward (foremanTap x.field x))

/-- Sends packets for one EID from a core: through the address book, or held until the directory answers. -/
def State.sendAll (s : State) (x : Site) (th : Option Nat) (eid : Nat) (ps : List Packet) : State :=
  match (s.core x).bookFind s.chip eid with
  | some (i, d) =>
    (ps.map fun p => p.toward d).foldl (fun s p => s.inject x.key p) (s.onCore x fun c => c.bookTouch i)
  | none =>
    let s := s.onCore x fun c => c.count 0x25C 1
    let i := (s.core x).freeTag
    let s := s.onCore x fun c => { c with missWait := c.missWait ++ ps.map fun p => ⟨i, p⟩ }
    match i with
    | some i => s.askDirectory x i th eid
    | none => s

/-- Sends one packet from a unit of a core. -/
def State.send (s : State) (x : Site) (p : Packet) : State := s.sendAll x none p.dst [p]

/-- A free tag goes to the oldest miss that waits for one. -/
def State.grantMiss (s : State) (x : Site) : State :=
  let c := s.core x
  match c.missWait.find? (fun h => h.tag.isNone), c.freeTag with
  | some h, some i =>
    let give (g : Held) : Held := if g.tag.isNone && g.pkt.dst == h.pkt.dst then { g with tag := some i } else g
    (s.setCore x { c with missWait := c.missWait.map give }).askDirectory x i none h.pkt.dst
  | _, _ => s

/-- A foreman sends a packet from the tap that faces its destination (R336). The destination's own exit may depend on the
source router: it is first asked for from the middle of the block, then from the tap. -/
def State.sendForeman (s : State) (f : Nat) (p : Packet) : State :=
  let mid : Site := ⟨Fin.ofNat 640 (f % 8 * 80 + 39), Fin.ofNat 504 (f / 8 * 84 + 41)⟩
  match s.resolve mid p.src p.dst with
  | some e =>
    let tap := foremanTap f ⟨Fin.ofNat 640 e.x, Fin.ofNat 504 e.y⟩
    let x : Site := ⟨Fin.ofNat 640 tap.x, Fin.ofNat 504 tap.y⟩
    s.inject x.key (p.toward ((s.resolve x p.src p.dst).getD e))
  | none => s

end Machine

end Sys2Proof
end

