-- ==== Sys2Proof/Machine/TallyOps.lean ====
section
/-! DEFINITION. The tally units (R356 to R371): each command applies its operation and then the arbiter's check, so that
a tally fires, or its round completes, in the command that makes it due. -/

namespace Sys2Proof.Machine

/-- The owner of 64 tallies: a core, or a field's foreman. -/
inductive TUnit
  | core (x : Site)
  | foreman (f : Nat)
deriving DecidableEq, Repr

def TUnit.field : TUnit → Nat
  | .core x => x.field
  | .foreman f => f

def State.tallyOf (s : State) (u : TUnit) (i : Nat) : Tally :=
  match u with
  | .core x => (s.core x).tally i
  | .foreman f => (s.field f).foremanTallies.get (fun _ => Tally.reset) i
def State.setTally (s : State) (u : TUnit) (i : Nat) (v : Tally) : State :=
  match u with
  | .core x => s.onCore x fun c => c.setTally i v
  | .foreman f => s.onField f fun fl => { fl with
      foremanTallies := fl.foremanTallies.set (fun _ => Tally.reset) i v }
def State.onTally (s : State) (u : TUnit) (i : Nat) (g : Tally → Tally) : State := s.setTally u i (g (s.tallyOf u i))

/-- The EID a tally unit signs with. -/
def State.tallyEid (s : State) (u : TUnit) : Nat :=
  match u with
  | .core x => s.coreEid x
  | .foreman f => s.chip * 2 ^ 20 + eidForeman f
def State.tallySend (s : State) (u : TUnit) (p : Packet) : State :=
  match u with
  | .core x => s.send x p
  | .foreman f => s.sendForeman f p
def State.tallyRaise (s : State) (u : TUnit) (i code : Nat) (sev : Severity) : State :=
  match u with
  | .core x => s.raiseCore x code sev i
  | .foreman f => s.raise f (.space (pageFieldctl f)) ⟨code, sev, 1, fieldWord f i⟩

/-- A BARRIER packet from a tally (R333): release or arrival. -/
def State.barrierPacket (s : State) (u : TUnit) (i dst tally round : Nat) (release : Bool) (st : Status) : Packet :=
  { Packet.head .barrier dst (s.tallyEid u) 0 (s.jobOf u.field) tally
      (round % 2 ^ 16 + release.toNat * 2 ^ 16 + i * 2 ^ 17) with status := st }

/-- A thread leaves a wait on a tally: gd takes the outcome and the thread goes on, at once or, in a frozen field, at
release (R180, R363). -/
def State.releaseThread (s : State) (u : TUnit) (st : Status) (w : Waiter) : State :=
  match u with
  | .core x =>
    let th := s.thread x w.thread
    match th.wait with
    | .tally d _ =>
      if !s.coreRuns x then s.setThread x w.thread { th with wait := .released d st }
      else s.setThread x w.thread
        { (th.put d (BitVec.ofNat 64 st.code)).advance with state := .running, wait := .none }
    | _ => s
  | .foreman _ => s

/-- What a notify registration receives when it is released. -/
def State.notify (s : State) (u : TUnit) (r : Reg) : State :=
  s.tallySend u (Packet.head .tallySignal r.eid (s.tallyEid u) 0 (s.jobOf u.field) r.tally 1)

/-- Firing (R359). -/
def State.fire (s : State) (u : TUnit) (i : Nat) : State :=
  let ty := s.tallyOf u i
  let s := s.setTally u i { ty with waiters := [], regs := [], value := ty.value - ty.target }
  let s := ty.waiters.foldl (fun s w => s.releaseThread u .ok w) s
  ty.regs.foldl (fun s r => s.notify u r) s

/-- Closing a round (R369). -/
def State.closeRound (s : State) (u : TUnit) (i : Nat) : State :=
  let ty := s.tallyOf u i
  let now := ty.waiters.filter fun w => !w.next
  let regs := ty.regs.filter fun r => !r.next
  let s := s.setTally u i { ty with
    waiters := (ty.waiters.filter fun w => w.next).map fun w => { w with next := false }
    regs := (ty.regs.filter fun r => r.next).map fun r => { r with next := false }
    value := ty.early
    early := 0
    round := (ty.round + 1) % 2 ^ 16
    forwarded := false
    surplus := ty.surplus || decide (max ty.target 1 < ty.value) }
  let s := now.foldl (fun s w => s.releaseThread u .ok w) s
  regs.foldl (fun s r =>
    if r.child then s.tallySend u (s.barrierPacket u i r.eid r.tally ty.round true .ok) else s.notify u r) s

/-- The check of arbiter step 4 (R359, R369). A round whose early arrivals complete the next one closes that too; the
fuel is two rounds. -/
def State.tallyCheck (s : State) (u : TUnit) (i : Nat) : Nat → State
  | 0 => s
  | n + 1 =>
    let ty := s.tallyOf u i
    if !ty.barrier then
      if ty.target ≤ ty.value && (!ty.waiters.isEmpty || !ty.regs.isEmpty) then s.fire u i else s
    else if ty.forwarded || ty.value < max ty.target 1 then s
    else if ty.parentEn then
      (s.setTally u i { ty with forwarded := true }).tallySend u
        (s.barrierPacket u i ty.parentEid ty.parentTally ty.round false .ok)
    else (s.closeRound u i).tallyCheck u i n

/-- The check after a command's operation. -/
def State.tallySettle (s : State) (u : TUnit) (i : Nat) : State := s.tallyCheck u i 2

/-- An increment applied in arbiter step 2, without the check (R357, R362). -/
def State.tallyAdd (s : State) (u : TUnit) (i n src : Nat) : State :=
  let ty := s.tallyOf u i
  let beyond := decide (0xFFFFFFFF < ty.value + n)
  let s := s.setTally u i { ty with
    value := min (ty.value + n) 0xFFFFFFFF
    lastEid := src
    lastTime := s.now u.field
    saturated := ty.saturated || beyond }
  if beyond && !ty.saturated then s.tallyRaise u i 0x0D01 .corrected else s

/-- An increment and its check. -/
def State.tallyIncrement (s : State) (u : TUnit) (i n src : Nat) : State := (s.tallyAdd u i n src).tallySettle u i

/-- An arrival for a round (R368): the state after it, and whether it was applied. `attach` adds the arriver, told
whether it belongs to the next round. -/
def State.tallyArrive (s : State) (u : TUnit) (i r src : Nat) (attach : Bool → Tally → Tally) : State × Bool :=
  let ty := s.tallyOf u i
  let d := (r + 2 ^ 16 - ty.round) % 2 ^ 16
  let mark (t : Tally) : Tally := { t with lastEid := src, lastTime := s.now u.field }
  if d = 0 then
    let s := s.tallyAdd u i 1 src
    ((s.onTally u i (attach false)).tallySettle u i, true)
  else if d = 1 then
    ((s.setTally u i (attach true (mark { ty with early := (ty.early + 1) % 16 }))).tallySettle u i, true)
  else (s.tallyRaise u i 0x0D02 .contained, false)

/-- TSET and a write of TALLY.VALUEi (R357). -/
def State.tallySet (s : State) (x : Site) (i v : Nat) : State :=
  (s.onTally (.core x) i fun ty => { ty with value := v }).tallySettle (.core x) i
/-- TTGT and a write of TALLY.TARGETi. -/
def State.tallyTarget (s : State) (x : Site) (i v : Nat) : State :=
  (s.onTally (.core x) i fun ty => { ty with target := v }).tallySettle (.core x) i

/-! ## The tally instructions (R193, R357 to R368) -/

def execTadd (i : Iss) (a : GReg) (tally : Fin 64) (s : State) : Out :=
  .next <| issue i [a.val] s fun th =>
    (s.setThread i.site i.thread.val th.advance).tallyIncrement (.core i.site) tally.val
      (bits (th.get a.val).toNat 31 0) (s.coreEid i.site)

def execTtgt (i : Iss) (a : GReg) (tally : Fin 64) (s : State) : Out :=
  .next <| issue i [a.val] s fun th =>
    (s.setThread i.site i.thread.val th.advance).tallyTarget i.site tally.val (bits (th.get a.val).toNat 31 0)

def execTset (i : Iss) (a : GReg) (tally : Fin 64) (s : State) : Out :=
  .next <| issue i [a.val] s fun th =>
    (s.setThread i.site i.thread.val th.advance).tallySet i.site tally.val (bits (th.get a.val).toNat 31 0)

def execTrd (i : Iss) (d : GReg) (tally : Fin 64) (s : State) : Out :=
  .next <| issue i [d.val] s fun th =>
    s.setThread i.site i.thread.val
      (th.put d.val (BitVec.ofNat 64 ((s.core i.site).tally tally.val).value)).advance

/-- The thread waits on a tally (R180). -/
def Thread.onTally (th : Thread) (d i : Nat) : Thread := { th with state := .waitTally, wait := .tally d i }

/-- TWAIT: gd becomes OK or TIMEOUT when the wait ends (R359, R361, R363). -/
def execTwait (i : Iss) (d a : GReg) (tally : Fin 64) (s : State) : Out :=
  .next <| issue i [d.val, a.val] s fun th =>
    let ns := (th.get a.val).toNat
    let w : Waiter := ⟨i.thread.val, false, if ns = 0 then 0 else s.now i.site.field + ns, false⟩
    ((s.setThread i.site i.thread.val (th.onTally d.val tally.val)).onTally (.core i.site) tally.val fun ty =>
      { ty with waiters := ty.waiters ++ [w] }).tallySettle (.core i.site) tally.val

/-- TBAR (R361, R368). -/
def execTbar (i : Iss) (d a : GReg) (tally : Fin 64) (s : State) : Out :=
  .next <| issue i [d.val, a.val] s fun th =>
    let overrun := (th.put d.val (BitVec.ofNat 64 Status.overrun.code)).advance
    if !((s.core i.site).tally tally.val).barrier then s.setThread i.site i.thread.val overrun
    else
      let r := (s.setThread i.site i.thread.val (th.onTally d.val tally.val)).tallyArrive (.core i.site) tally.val
        (bits (th.get a.val).toNat 15 0) (s.coreEid i.site)
        fun next ty => { ty with waiters := ty.waiters ++ [⟨i.thread.val, next, 0, true⟩] }
      if r.2 then r.1 else r.1.setThread i.site i.thread.val overrun

/-- TNOTE (R360). -/
def execTnote (i : Iss) (d a : GReg) (tally : Fin 64) (s : State) : Out :=
  .next <| issue i [d.val, a.val] s fun th =>
    let ty := (s.core i.site).tally tally.val
    let full := decide (8 ≤ ty.regs.length)
    let st := if full then Status.busy else .ok
    let s := s.setThread i.site i.thread.val (th.put d.val (BitVec.ofNat 64 st.code)).advance
    if full then s
    else
      (s.onTally (.core i.site) tally.val fun ty =>
        { ty with regs := ty.regs ++ [⟨bits (th.get a.val).toNat 31 0, tally.val, false, false⟩] }).tallySettle
        (.core i.site) tally.val

end Sys2Proof.Machine
end

