-- ==== Sys2Proof/Machine/Chute.lean ====
section
/-! DEFINITION. Chutes (R238 to R264): endpoints and their levels, binding, transport, landings, and the chute
instructions (R192, R256 to R259). -/

namespace Sys2Proof.Machine

/-! ## Levels (R239, R243, R244, R250) -/

/-- Entries a ring holds (R239). -/
def Chute.ring (e : Chute) : Nat := 2 ^ (e.size + 3)
/-- SRAM offset of the ring place of the entry numbered `n`. -/
def Chute.slot (e : Chute) (n : Nat) : Nat := e.base * 64 + n % e.ring * 8

/-- Landed entries that R250 lets a stream consumer see, counted from the binding. -/
def Chute.framed (e : Chute) : Nat :=
  let len := bits e.frame.toNat 31 16
  let cut := bits e.frame.toNat 15 0
  if len = 0 then e.landed
  else
    let r := e.landed % len
    if min (max cut 1) len ≤ r then e.landed else e.landed - r

/-- Entries a consumer may read once every shortfall has cleared. -/
def Chute.seen (e : Chute) : Nat :=
  if e.record then ((e.recs.takeWhile fun r => r.closed).map fun r => r.entries - r.popped).foldl (· + ·) 0
  else e.framed - e.taken
/-- Free entries of a stream producer. -/
def Chute.free (e : Chute) : Nat := if e.ready then e.ring + e.released - e.pushed else 0

/-- CHUTE.STATEe.level without an asynchronous shortfall; 0 when unbound. -/
def Chute.level (e : Chute) : Nat :=
  match e.role with
  | .unbound => 0
  | .consumer => e.seen
  | .producer => if e.record then e.ring else e.free

/-- Whether R244's shortfall bears on an endpoint's level. -/
def Chute.lags (e : Chute) : Bool := e.async && !e.record

/-- The CORE_CLK cycle a core's field is in, held or not. -/
def State.clockOf (s : State) (x : Site) : Nat := (s.field x.field).clk / 20

/-- The level an endpoint sees at one moment: in asynchronous mode it may fall short by up to 3 entries, by an open amount,
in the 4 cycles after the pointer it follows last changed (R244). -/
def State.level (s : State) (x : Site) (e : Nat) : Nat × State :=
  let ch := (s.core x).chute e
  if ch.lags && decide (s.clockOf x < ch.moved + 4) then
    let v := s.fresh
    (ch.level - Config.chuteLag v.1 % 4, v.2)
  else (ch.level, s)

/-! ## The send buffer (R246, R252) -/

def Pend.isEntry : Pend → Bool
  | .closed _ => false
  | _ => true
/-- Entries held in the send buffer of 1 KiB, which all endpoints share. -/
def Core.sendUsed (c : Core) : Nat :=
  (c.chutes.map fun kv => (kv.2.pend.filter Pend.isEntry).length).foldl (· + ·) 0
def Core.sendRoom (c : Core) : Nat := 128 - c.sendUsed

/-- Opens a record, closing an open one first (R252). -/
def Chute.openRecord (e : Chute) : Chute :=
  let close := if e.recOpen then [Pend.closed ((e.nextSeq + 65535) % 65536)] else []
  { e with pend := e.pend ++ close ++ [.opened e.nextSeq], nextSeq := (e.nextSeq + 1) % 65536, recOpen := true }
/-- Closes the open record. -/
def Chute.closeRecord (e : Chute) : Chute :=
  if e.recOpen then { e with pend := e.pend ++ [.closed ((e.nextSeq + 65535) % 65536)], recOpen := false } else e
/-- Appends entries; a record producer with no record open opens one. -/
def Chute.push (e : Chute) (vs : List DWord) : Chute :=
  let e := if e.record && !e.recOpen then e.openRecord else e
  { e with pend := e.pend ++ vs.map Pend.entry, pushed := e.pushed + vs.length }

/-- Whether n entries may be pushed (R242, R246, R249). -/
def Core.canPush (c : Core) (e n : Nat) : Bool :=
  let ch := c.chute e
  let need := n + (if ch.record && !ch.recOpen then 1 else 0)
  ch.ready && decide (need ≤ c.sendRoom) && (ch.record || decide (n ≤ ch.free))
/-- Whether a thread or an elastic unit may push n entries: not before a cursor's that wait already (R259). -/
def Core.mayPush (c : Core) (e n : Nat) : Bool := (c.chute e).late.isEmpty && c.canPush e n
/-- n entries of a cursor that wait at an endpoint go on, flit by flit, where they can. -/
def Core.pushLate (e : Nat) : Nat → Core → Core
  | 0, c => c
  | n + 1, c =>
    let ch := c.chute e
    if ch.late.isEmpty || !c.canPush e 4 then c
    else Core.pushLate e n (c.setChute e { ch.push (ch.late.take 4) with late := ch.late.drop 4 })

/-! ## Control packets (R241, R247, R261, R333) -/

/-- A CHUTE_CONTROL packet from an endpoint to its peer. -/
def State.chuteControl (s : State) (x : Site) (e op dst peerEp data : Nat) (cls async : Bool) : Packet :=
  Packet.head .chuteControl dst (s.coreEid x) 0 (s.jobOf x.field)
    (peerEp + e * 2 ^ 5 + op * 2 ^ 10 + cls.toNat * 2 ^ 14 + async.toNat * 2 ^ 15) data

/-- A producer asks its peer to grant its binding (R241). -/
def State.bindAsk (s : State) (x : Site) (e : Nat) : State :=
  let ch := (s.core x).chute e
  s.send x (s.chuteControl x e 1 ch.peer.toNat ch.peerEp 0 ch.record ch.async)

/-! ## Waiting threads -/

/-- Reads n entries from a consumer's ring from the oldest on: the bytes, and whether a word was uncorrectable or a bank
was not active; and the state after the reports. -/
def ringRead (s : State) (x : Site) (e n : Nat) : List Nat × Option Nat × Bool × State :=
  let ch := (s.core x).chute e
  let rs := (List.range n).map fun k => (ch.slot (ch.taken + k), 8)
  if !(rs.all fun r => (s.core x).rangeActive r.1 r.2) then (List.replicate (8 * n) 0, none, true, s)
  else
    let c := s.core x
    let bytes := rs.flatMap fun r => c.bytes r.1 r.2
    let word := rs.findSome? fun r => c.badWord r.1 r.2
    let words := (rs.flatMap fun r => wordsOf r.1 r.2).eraseDups
    let s := words.foldl (fun s w => s.readWord x w) s
    (if word.isSome then List.replicate (8 * n) 0 else bytes, word, word.isSome, s)

/-- The ring fault of R260. -/
def State.ringFault (s : State) (x : Site) (e : Nat) : State :=
  (s.onCore x fun c => c.setChute e { c.chute e with fault := true, waiting := [] }).raiseCore x 0x0903 .contained e

/-- Records after n of their entries are popped; a record popped whole leaves the ring (R253, R254). -/
def popRecs : Nat → List RingRec → List RingRec
  | _, [] => []
  | n, r :: rs =>
    if r.closed && decide (r.entries - r.popped ≤ n) then popRecs (n - (r.entries - r.popped)) rs
    else { r with popped := r.popped + n } :: rs

/-- A consumer releases n entries (R243). -/
def Chute.release (e : Chute) (n : Nat) (last : DWord) : Chute :=
  { e with taken := e.taken + n, lastPop := last, recs := if e.record then popRecs n e.recs else e.recs }

/-- Pops n entries: their bytes, the uncorrectable word met, and the state after it. -/
def State.pop (s : State) (x : Site) (e n : Nat) : List Nat × Option Nat × State :=
  let r := ringRead s x e n
  let last := BitVec.ofNat 64 (leNat (r.1.drop (8 * (n - 1))))
  let s := r.2.2.2.onCore x fun c => c.setChute e ((c.chute e).release n last)
  (r.1, r.2.1, if r.2.2.1 then s.ringFault x e else s)

/-- What a popped value does to the thread that popped it. -/
def popInto (s : State) (x : Site) (t e n : Nat) (put : List Nat → State → State) : State :=
  let r := s.pop x e n
  r.2.2.unlessSealed x fun s =>
    let s := (put r.1 s).onThread x t fun th => { th.advance with state := .running, wait := .none }
    match r.2.1 with
    | some w => s.eccExc x t w
    | none => s

/-- The misuse of R258: a pop gives zero. -/
def misuse (s : State) (x : Site) (e : Nat) : State :=
  s.onCore x fun c => c.setChute e { c.chute e with misuse := true }

/-- Entries go into the send buffer. -/
def State.chutePush (s : State) (x : Site) (e : Nat) (vs : List DWord) : State :=
  s.onCore x fun c => c.setChute e { (c.chute e).push vs with pushedAt := s.clockOf x }
/-- A push that may proceed: the thread's entries go into the send buffer. -/
def pushFrom (s : State) (x : Site) (t e : Nat) (vs : List DWord) : State :=
  (s.chutePush x e vs).onThread x t fun th =>
    { th.advance with state := .running, wait := .none }

/-- The 8 entries of a vector register, lowest byte first (R256). -/
def vecEntries (v : VWord) : List DWord := (lanesOf 64 v).map (BitVec.ofNat 64)

/-- A chute instruction that can complete, completes; none where it must wait (R256, R258). -/
def chuteTry (s : State) (x : Site) (t : Nat) : Wait → Option State
  | .cput e d =>
    let c := s.core x
    let go (s : State) : State := s.onThread x t fun th => { th.advance with state := .running, wait := .none }
    if (c.chute e).role ≠ .producer then some (go (misuse s x e))
    else if c.mayPush e 1 then some (pushFrom s x t e [(c.thread t).get d]) else none
  | .vcput e d =>
    let c := s.core x
    let go (s : State) : State := s.onThread x t fun th => { th.advance with state := .running, wait := .none }
    if (c.chute e).role ≠ .producer then some (go (misuse s x e))
    else if c.mayPush e 8 then some (pushFrom s x t e (vecEntries (c.vreg d))) else none
  | .cget e d =>
    let c := s.core x
    let put (bs : List Nat) (s : State) : State := s.onThread x t fun th => th.put d (BitVec.ofNat 64 (leNat bs))
    let go (s : State) : State := s.onThread x t fun th => { th.advance with state := .running, wait := .none }
    if (c.chute e).role ≠ .consumer then some (go (put [] (misuse s x e)))
    else if 1 ≤ (c.chute e).seen then some (popInto s x t e 1 put) else none
  | .vcget e d =>
    let c := s.core x
    let put (bs : List Nat) (s : State) : State := s.onCore x fun c => c.setVreg d (BitVec.ofNat 512 (leNat bs))
    let go (s : State) : State := s.onThread x t fun th => { th.advance with state := .running, wait := .none }
    if (c.chute e).role ≠ .consumer then some (go (put [] (misuse s x e)))
    else if 8 ≤ (c.chute e).seen then some (popInto s x t e 8 put) else none
  | .cropen e =>
    let c := s.core x
    let ch := c.chute e
    let go (s : State) : State := s.onThread x t fun th => { th.advance with state := .running, wait := .none }
    if ch.role ≠ .producer || !ch.record then some (go (misuse s x e))
    else if 1 ≤ c.sendRoom then
      some (go (s.onCore x fun c => c.setChute e { ch.openRecord with pushedAt := s.clockOf x }))
    else none
  | _ => none

/-- The endpoint and direction of a waiting chute instruction. -/
def Wait.chute? : Wait → Option (Nat × Bool)
  | .cput e _ | .vcput e _ | .cropen e => some (e, true)
  | .cget e _ | .vcget e _ => some (e, false)
  | _ => Option.none

/-- Whether a chute instruction is a misuse of its endpoint, which completes at once (R258). -/
def Core.misuses (c : Core) : Wait → Bool
  | .cput e _ | .vcput e _ => decide ((c.chute e).role ≠ .producer)
  | .cget e _ | .vcget e _ => decide ((c.chute e).role ≠ .consumer)
  | .cropen e => decide ((c.chute e).role ≠ .producer) || !(c.chute e).record
  | _ => false

/-- Threads that wait on chutes complete in issue order where they can; one that still waits holds back the later ones
of its endpoint (R259). In a frozen field they wait on (R180). -/
def chuteWakeFrom (x : Site) : List Nat → List (Nat × Bool) → State → State
  | [], _, s => s
  | t :: ts, held, s =>
    let th := s.thread x t
    match th.wait.chute? with
    | some k =>
      if held.contains k then chuteWakeFrom x ts held s
      else
        match chuteTry s x t th.wait with
        | some s =>
          chuteWakeFrom x ts held (s.onCore x fun c => { c with chuteWait := c.chuteWait.filter (· != t) })
        | none => chuteWakeFrom x ts (k :: held) s
    | none => chuteWakeFrom x ts held s
/-- A core's chutes go on: what cursors have pushed late, then the threads that wait. -/
def State.chuteWake (s : State) (x : Site) : State :=
  if s.coreRuns x then
    let s := s.onCore x fun c => (c.chutes.filter fun kv => !kv.2.late.isEmpty).foldl (fun c kv => Core.pushLate kv.1 kv.2.late.length c) c
    chuteWakeFrom x (s.core x).chuteWait [] s
  else s

/-- A chute instruction issues: it completes at once, or the thread enters WAIT_CHUTE. -/
def chuteIssue (s : State) (x : Site) (t : Nat) (w : Wait) : State :=
  let c := s.core x
  let behind := c.chuteWait.any fun u => (c.thread u).wait.chute? == w.chute?
  match (if behind && !c.misuses w then none else chuteTry s x t w) with
  | some s => s.chuteWake x
  | none =>
    (s.onThread x t fun th => { th with state := .waitChute, wait := w }).onCore x fun c =>
      { c with chuteWait := c.chuteWait ++ [t] }

/-! ## The chute instructions -/

def execCput (i : Iss) (d : GReg) (e : Fin 32) (s : State) : Out :=
  .next <| issue i [d.val] s fun _ => chuteIssue s i.site i.thread.val (.cput e.val d.val)
def execCget (i : Iss) (d : GReg) (e : Fin 32) (s : State) : Out :=
  .next <| issue i [d.val] s fun _ => chuteIssue s i.site i.thread.val (.cget e.val d.val)
def execVcput (i : Iss) (v : VReg) (e : Fin 32) (s : State) : Out :=
  .next <| issue i [] s fun _ => chuteIssue s i.site i.thread.val (.vcput e.val v.val)
def execVcget (i : Iss) (v : VReg) (e : Fin 32) (s : State) : Out :=
  .next <| issue i [] s fun _ => chuteIssue s i.site i.thread.val (.vcget e.val v.val)
def execCropen (i : Iss) (e : Fin 32) (s : State) : Out :=
  .next <| issue i [] s fun _ => chuteIssue s i.site i.thread.val (.cropen e.val)

/-- CGETN (R257): it never waits. -/
def execCgetn (i : Iss) (d : GReg) (e : Fin 32) (s : State) : Out :=
  .next <| issue i [d.val] s fun th =>
    let ch := (s.core i.site).chute e.val
    let done (v : DWord) (s : State) : State := s.onThread i.site i.thread.val fun th => (th.put d.val v).advance
    if ch.role ≠ .consumer then done 0 (misuse s i.site e.val)
    else
      let l := s.level i.site e.val
      if 1 ≤ l.1 then
        popInto l.2 i.site i.thread.val e.val 1 fun bs s =>
          s.onThread i.site i.thread.val fun th => th.put d.val (BitVec.ofNat 64 (leNat bs))
      else
        (l.2.onCore i.site fun c => c.setChute e.val { c.chute e.val with underrun := true }).setThread i.site
          i.thread.val (th.put d.val ch.lastPop).advance

/-- CRCLOSE (R252, R258). -/
def execCrclose (i : Iss) (e : Fin 32) (s : State) : Out :=
  .next <| issue i [] s fun th =>
    let ch := (s.core i.site).chute e.val
    let s := s.setThread i.site i.thread.val th.advance
    if ch.role ≠ .producer || !ch.record then misuse s i.site e.val
    else s.onCore i.site fun c => c.setChute e.val ch.closeRecord

def execClevel (i : Iss) (d : GReg) (e : Fin 32) (s : State) : Out :=
  .next <| issue i [d.val] s fun th =>
    let l := s.level i.site e.val
    l.2.setThread i.site i.thread.val (th.put d.val (BitVec.ofNat 64 l.1)).advance

/-! ## Binding (R240, R241, R261) -/

/-- RW fields of CHUTE.CFGe as a number. -/
def Role.code : Role → Nat
  | .unbound => 0 | .producer => 1 | .consumer => 2
def Chute.cfgRw (e : Chute) : Nat :=
  Role.code e.role * 2 ^ 30 + e.record.toNat * 2 ^ 29 + e.async.toNat * 2 ^ 28 + e.size % 16 * 2 ^ 24 +
    e.peerEp % 32 * 2 ^ 11 + e.base % 2048
/-- The RW bits of CHUTE.CFGe. -/
def chuteRwMask : Nat := 0xFF00FFFF

/-- Whether R240 refuses a binding. -/
def chuteRefused (v : Nat) (frame : Nat) : Bool :=
  let role := bits v 31 30
  let size := bits v 27 24
  let base := bits v 10 0
  let ring := 2 ^ (size + 3)
  decide (role = 3) || decide (10 < size) || (role == 2 && decide (0x20000 < base * 64 + 8 * ring)) ||
    (role == 1 && base != 0) || (bit v 29 && frame != 0) || (!bit v 29 && decide (ring < bits frame 15 0))

/-- What an endpoint keeps through unbinding: its registers' own contents. -/
def Chute.unbound (e : Chute) : Chute :=
  { Chute.reset with
    record := e.record, async := e.async, size := e.size, peerEp := e.peerEp, base := e.base, peer := e.peer
    frame := e.frame, lost := e.lost, underrun := e.underrun, misuse := e.misuse, discardSeen := e.discardSeen }

/-- Whether a packet comes from a producer endpoint: its data, or its bind request. -/
def Packet.fromProducer (p : Packet) (e : Nat) : Bool :=
  bits p.arg 9 5 == e && (p.ptype == .chuteData || (p.ptype == .chuteControl && bits p.arg 13 10 == 1))
/-- Unbinding (R261): a producer sends nothing more, not even what waits for the directory, and a consumer tells its
producer. -/
def State.chuteUnbind (s : State) (x : Site) (e : Nat) : State :=
  let ch := (s.core x).chute e
  let s := s.onCore x fun c =>
    let c := c.setChute e ch.unbound
    if ch.role = .producer then { c with missWait := c.missWait.filter fun h => !Packet.fromProducer h.pkt e } else c
  if ch.role = .consumer then s.send x (s.chuteControl x e 6 ch.peer.toNat ch.peerEp 0 false false) else s

/-- Binding with the fields of a value of CHUTE.CFGe: a consumer starts with an empty ring, and refuses while its field
drains (R262); a producer asks its peer. -/
def State.chuteBind (s : State) (x : Site) (e v : Nat) : State :=
  let old := (s.core x).chute e
  let producer := bits v 31 30 = 1
  let s := s.onCore x fun c => c.setChute e { old.unbound with
    role := if producer then .producer else .consumer
    record := bit v 29, async := bit v 28, size := bits v 27 24, peerEp := bits v 15 11, base := bits v 10 0
    requesting := producer, discardSeen := false
    refusing := !producer && (s.field x.field).drain.isSome }
  if producer then s.bindAsk x e else s

/-- A write of CHUTE.CFGe (R240). A refused one stores nothing, its W1C bits included. -/
def State.chuteCfg (s : State) (x : Site) (e v : Nat) : State :=
  let ch := (s.core x).chute e
  let same := decide (ch.cfgRw = v &&& chuteRwMask) && decide (ch.role ≠ .unbound)
  let refused := !same && decide (bits v 31 30 ≠ 0) && chuteRefused v ch.frame.toNat
  let s := if refused then s else s.onCore x fun c =>
    c.setChute e { c.chute e with underrun := ch.underrun && !bit v 20, misuse := ch.misuse && !bit v 19 }
  if same then s
  else
    let s := if ch.role = .unbound then s else s.chuteUnbind x e
    let s :=
      if bits v 31 30 = 0 then
        s.onCore x fun c => c.setChute e { c.chute e with
          record := bit v 29, async := bit v 28, size := bits v 27 24, peerEp := bits v 15 11, base := bits v 10 0 }
      else if refused then s.onCore x Core.refuse
      else s.chuteBind x e v
    s.chuteWake x

/-- A write of CHUTE.PEERe or CHUTE.FRAMEe (R240). -/
def Core.chutePeer (c : Core) (e : Nat) (v : Word) : Core :=
  if (c.chute e).role = .unbound then c.setChute e { c.chute e with peer := v } else c.refuse
def Core.chuteFrame (c : Core) (e : Nat) (v : Word) : Core :=
  if (c.chute e).role = .unbound then c.setChute e { c.chute e with frame := v } else c.refuse

def execChuteBind (w : Requester) (x : Site) (e : Fin 32) (v : Word) (s : State) : Out :=
  .next (s.corePut w x fun s => s.chuteCfg x e.val v.toNat)
def execChuteUnbind (w : Requester) (x : Site) (e : Fin 32) (v : Word) (s : State) : Out :=
  .next (s.corePut w x fun s => s.chuteCfg x e.val v.toNat)

/-- Every 1 µs a producer without an answer asks again (R241). -/
def execBindRequestRetry (x : Site) (e : Fin 32) (s : State) : Out :=
  let ch := (s.core x).chute e.val
  .next (if s.coreClocked x && decide (ch.role = .producer) && ch.requesting then s.bindAsk x e.val else s)

/-! ## Arriving packets -/

/-- The core that takes a packet, if it is a live core's whose clock runs (R40, R344). -/
def State.arrival (s : State) (p : Packet) : Option Site :=
  (Site.at? p.tx p.ty).filter fun x => p.port == .local_ && s.coreClocked x && s.lands p

/-- A core takes an arriving packet: a poisoned one is answered and discarded (R343), one with too long a payload is
discarded and counted (R331), and `k` gives the effect of the others. -/
def State.deliver (s : State) (p : Packet) (k : State → Site → State) : State :=
  match s.arrival p with
  | none => s
  | some x =>
    let s := s.consume p
    if 512 < p.payload.length then s.onCore x fun c => c.count 0x254 1
    else if p.poisoned then
      match p.endAnswer (s.coreEid x) .poisoned with
      | some q => s.send x q
      | none => s
    else k s x

/-- Fields of a CHUTE_CONTROL head. -/
def Packet.ctlEp (p : Packet) : Nat := bits p.arg 4 0
def Packet.ctlFrom (p : Packet) : Nat := bits p.arg 9 5
def Packet.ctlOp (p : Packet) : Nat := bits p.arg 13 10

/-- Whether a control packet comes from an endpoint's peer. -/
def Chute.fromPeer (e : Chute) (p : Packet) : Bool := e.peer.toNat == p.src && e.peerEp == Packet.ctlFrom p

/-- Whether the EID of a peer lies in a field. -/
def State.peerInField (s : State) (eid f : Nat) : Bool :=
  eidChip eid == s.chip && (s.siteOf (eidLocal eid)).any fun y => y.field == f

/-- The answer to a bind request: 2 grant, 3 not yet, 4 mismatch (R241, R262). -/
def bindAnswer (s : State) (x : Site) (e : Chute) (p : Packet) : Nat :=
  match e.role with
  | .unbound => 3
  | .producer => 4
  | .consumer =>
    if e.refusing then 3
    else if e.fromPeer p && e.record == bit p.arg 14 && e.async == bit p.arg 15 &&
        (e.async || s.peerInField p.src x.field) then 2
    else 4

/-- A control packet with the operation its event names; another is no such event. -/
def State.control (s : State) (p : Packet) (op : Nat) (k : State → Site → State) : State :=
  if p.ptype = .chuteControl ∧ Packet.ctlOp p = op then s.deliver p k else s

def execBindRequest (p : Packet) (s : State) : Out :=
  .next <| s.control p 1 fun s x =>
    let e := Packet.ctlEp p
    let a := bindAnswer s x ((s.core x).chute e) p
    let s := if a = 2 then s.onCore x fun c => c.setChute e { c.chute e with granted := true } else s
    s.send x (s.chuteControl x e a p.src (Packet.ctlFrom p) 0 false false)

/-- What an answer does to the producer that awaits it. -/
def State.answered (s : State) (p : Packet) (op : Nat) (k : State → Site → Nat → State) : State :=
  s.control p op fun s x =>
    let e := Packet.ctlEp p
    let ch := (s.core x).chute e
    if ch.role = .producer ∧ ch.fromPeer p ∧ ch.requesting then k s x e else s

/-- GRANT: the producer is ready and the ring is free (R241). -/
def execGrant (p : Packet) (s : State) : Out :=
  .next <| s.answered p 2 fun s x e =>
    (s.onCore x fun c => c.setChute e { c.chute e with ready := true, requesting := false }).chuteWake x

/-- NOT_YET: the producer goes on repeating its request. -/
def execNotYet (p : Packet) (s : State) : Out := .next <| s.answered p 3 fun s _ _ => s

def execMismatch (p : Packet) (s : State) : Out :=
  .next <| s.answered p 4 fun s x e =>
    (s.onCore x fun c => c.setChute e { c.chute e with bindError := true, requesting := false }).raiseCore x 0x0901
      .contained e

/-- READ_POINTER_UPDATE: the pointer counts modulo twice the ring (R243, R247). -/
def execReadPointerUpdate (p : Packet) (s : State) : Out :=
  .next <| s.control p 5 fun s x =>
    let e := Packet.ctlEp p
    let ch := (s.core x).chute e
    if ch.role = .producer ∧ ch.fromPeer p ∧ ch.ready ∧ !ch.record then
      let n := 2 * ch.ring
      let ahead := (bits p.data 31 0 % n + n - ch.released % n) % n
      (s.onCore x fun c => c.setChute e { ch with
        released := ch.released + ahead, moved := if ahead = 0 then ch.moved else s.clockOf x }).chuteWake x
    else s

/-- UNBIND_NOTICE: pushes wait until the producer is bound afresh (R261). -/
def execUnbindNotice (p : Packet) (s : State) : Out :=
  .next <| s.control p 6 fun s x =>
    let e := Packet.ctlEp p
    let ch := (s.core x).chute e
    if ch.role = .producer ∧ ch.fromPeer p then
      s.onCore x fun c => c.setChute e { ch with ready := false, requesting := false }
    else s

/-! ## Data (R246, R253, R254, R333) -/

/-- The leading entries of the pending data that one packet can carry. -/
def pendRun : Nat → List Pend → List DWord × List Pend
  | n + 1, .entry v :: ps => let r := pendRun n ps; (v :: r.1, r.2)
  | _, ps => ([], ps)

/-- The packet that the pending data of a producer give: its entries, whether it opens or closes a record, the record's
number, and what stays pending. -/
def nextData (ps : List Pend) : Option (List DWord × Bool × Bool × Nat × List Pend) :=
  let body (first : List DWord) (opened : Bool) (seq n : Nat) (ps : List Pend) :=
    let r := pendRun n ps
    match r.2 with
    | .closed q :: rest => (first ++ r.1, opened, true, q, rest)
    | rest => (first ++ r.1, opened, false, seq, rest)
  match ps with
  | [] => none
  | .opened q :: rest => some (body [0] true q 63 rest)
  | ps => some (body [] false 0 64 ps)

/-- A producer sends its next packet of pending entries: at once where they reach 32, otherwise once 4 cycles have passed since
its last push, which engine time reaches; whether the endpoint is ready plays no part. -/
def execChuteDataSend (x : Site) (e : Fin 32) (s : State) : Out :=
  let ch := (s.core x).chute e.val
  if !s.coreClocked x || decide (ch.role ≠ .producer) then .next s
  else
    match nextData ch.pend with
    | none => .next s
    | some (vs, op, cl, seq, rest) =>
      let fl := s.field x.field
      let full := decide (32 ≤ (ch.pend.filter Pend.isEntry).length)
      let s := if full then s else s.elapse (ceilDiv (20 * (ch.pushedAt + 4) - fl.clk) fl.rate)
      let arg := ch.peerEp + e.val * 2 ^ 5
      let data := vs.length + ch.sent % 2 ^ 16 * 2 ^ 16 + op.toNat * 2 ^ 32 + cl.toNat * 2 ^ 33 + seq % 2 ^ 16 * 2 ^ 34
      let p := { Packet.head .chuteData ch.peer.toNat (s.coreEid x) 0 (s.jobOf x.field) arg data with
        payload := vs.flatMap fun v => (leBytes 8 v.toNat).map (BitVec.ofNat 8) }
      .next (((s.onCore x fun c => c.setChute e.val { ch with pend := rest, sent := ch.sent + vs.length }).send x
        p).chuteWake x)

/-- A consumer reports its read pointer (R247). -/
def execPointerUpdateSend (x : Site) (e : Fin 32) (s : State) : Out :=
  let ch := (s.core x).chute e.val
  if s.coreClocked x && decide (ch.role = .consumer) && !ch.record && !ch.fault && decide (ch.taken ≠ ch.reported) then
    let s := s.onCore x fun c => c.setChute e.val { ch with reported := ch.taken }
    .next (s.send x (s.chuteControl x e.val 5 ch.peer.toNat ch.peerEp (ch.taken % (2 * ch.ring)) false false))
  else .next s

/-- What a CHUTE_DATA packet brings. -/
def Packet.landings (p : Packet) : List Landing :=
  let n := min (bits p.data 15 0) (p.payload.length / 8)
  let vs := (List.range n).map fun k => BitVec.ofNat 64 (leNat (((p.payload.drop (8 * k)).take 8).map (·.toNat)))
  let seq := bits p.data 49 34
  let es := match vs with
    | v :: rest => (if bit p.data 32 then Landing.opened seq else .entry v) :: rest.map Landing.entry
    | [] => []
  es ++ (if bit p.data 33 then [.closed seq] else [])

/-- CHUTE_DATA: entries wait for the stream port; those of an endpoint that is not bound to the sender are discarded
(R261), as are those of a faulted one (R260). -/
def execChuteData (p : Packet) (s : State) : Out :=
  if p.ptype ≠ .chuteData then .next s
  else
    .next <| s.deliver p fun s x =>
      let e := bits p.arg 4 0
      let ch := (s.core x).chute e
      if ch.role = .consumer ∧ ch.fromPeer p then
        if ch.fault then s
        else s.onCore x fun c => c.setChute e { ch with waiting := ch.waiting ++ Packet.landings p }
      else if ch.discardSeen then s
      else (s.onCore x fun c => c.setChute e { ch with discardSeen := true }).raiseCore x 0x0902 .corrected e

/-- Frees closed, unpopped records at the head until one entry fits (R254): the records and entries freed; none where
the incoming record must be spoiled. The fuel is the number of records. -/
def dropHeads (ring : Nat) : Nat → Nat → List RingRec → Nat × Option (List RingRec × Nat)
  | _, used, [] => (0, if used < ring then some ([], 0) else none)
  | 0, used, rs => (0, if used < ring then some (rs, 0) else none)
  | n + 1, used, r :: rs =>
    if used < ring then (0, some (r :: rs, 0))
    else if r.closed && r.popped == 0 then
      let d := dropHeads ring n (used - r.entries) rs
      (d.1 + 1, d.2.map fun q => (q.1, q.2 + r.entries))
    else (0, none)

def Chute.addLost (e : Chute) (n : Nat) : Chute := { e with lost := min (e.lost + n) 0xFFFF }

/-- Replaces the record being written. -/
def Chute.setLast (e : Chute) (r : RingRec) : Chute := { e with recs := e.recs.dropLast ++ [r] }

/-- Room is made for one entry, or the incoming record is spoiled; whether it was (R254). The record being written is
in the list already. -/
def Chute.makeRoom (e : Chute) : Chute × Bool :=
  match dropHeads e.ring e.recs.length (e.landed - e.taken) e.recs with
  | (n, some (rs, freed)) => ({ e with recs := rs, taken := e.taken + freed }.addLost n, false)
  | (n, none) =>
    let gone := e.recs.take n
    let freed := (gone.map fun r => r.entries).foldl (· + ·) 0
    let e := { e with recs := e.recs.drop n, taken := e.taken + freed }.addLost n
    match e.recs.getLast? with
    | some r => ({ e with landed := e.landed - r.entries }.setLast { r with entries := 0, spoiled := true }, true)
    | none => (e, true)

/-- Writes an entry into the ring at a place; none where the bank is not active (R260). -/
def ringWrite (s : State) (x : Site) (ch : Chute) (n : Nat) (v : DWord) : Option State :=
  if (s.core x).rangeActive (ch.slot n) 8 then some (s.writeSram x (ch.slot n) (leBytes 8 v.toNat)) else none

/-- A spoiled record is reported once per binding (R254). -/
def State.spoilReport (s : State) (x : Site) (e : Nat) : State :=
  let ch := (s.core x).chute e
  if ch.spoilSeen then s
  else (s.onCore x fun c => c.setChute e { ch with spoilSeen := true }).raiseCore x 0x0904 .corrected e

/-- One entry of an open record lands, or spoils it. `slot` is set for the length slot, which is written at close. -/
def landRecordEntry (s : State) (x : Site) (e : Nat) (v : DWord) (slot : Bool) : State :=
  let m := ((s.core x).chute e).makeRoom
  let s := s.onCore x fun c => c.setChute e m.1
  if m.2 then s.spoilReport x e
  else
    match m.1.recs.getLast? with
    | none => s
    | some r =>
      let done (s : State) : State :=
        s.onCore x fun c => c.setChute e ({ m.1 with landed := m.1.landed + 1 }.setLast { r with entries := r.entries + 1 })
      if slot then done s
      else
        match ringWrite s x m.1 m.1.landed v with
        | some s => s.unlessSealed x done
        | none => s.ringFault x e

/-- One arrival lands. -/
def land (s : State) (x : Site) (e : Nat) (l : Landing) : State :=
  let ch := (s.core x).chute e
  if ch.fault then s
  else
    match ch.record, l with
    | false, .entry v =>
      match ringWrite s x ch ch.landed v with
      | some s => s.unlessSealed x fun s => s.onCore x fun c => c.setChute e { c.chute e with landed := ch.landed + 1, moved := s.clockOf x }
      | none => s.ringFault x e
    | true, .opened q =>
      landRecordEntry (s.onCore x fun c => c.setChute e { ch with recs := ch.recs ++ [⟨q, 0, false, 0, false⟩] }) x e 0 true
    | true, .entry v =>
      match ch.recs.getLast? with
      | some r => if r.closed || r.spoiled then s else landRecordEntry s x e v false
      | none => s
    | true, .closed _ =>
      match ch.recs.getLast? with
      | some r =>
        if r.closed then s
        else if r.spoiled then s.onCore x fun c => c.setChute e ({ ch with recs := ch.recs.dropLast }.addLost 1)
        else
          let v := BitVec.ofNat 64 (r.seq * 2 ^ 48 + (r.entries - 1) * 8)
          match ringWrite s x ch (ch.landed - r.entries) v with
          | some s => s.unlessSealed x fun s => s.onCore x fun c => c.setChute e (ch.setLast { r with closed := true })
          | none => s.ringFault x e
      | none => s
    | _, _ => s

/-- CHUTE_LANDING: what waits at an endpoint lands through the stream port, in order. -/
def execChuteLanding (x : Site) (e : Fin 32) (s : State) : Out :=
  let ch := (s.core x).chute e.val
  if !s.coreClocked x || decide (ch.role ≠ .consumer) then .next s
  else
    let s := s.onCore x fun c => c.setChute e.val { ch with waiting := [] }
    .next ((ch.waiting.foldl (fun s l => s.unlessSealed x fun s => land s x e.val l) s).chuteWake x)

end Sys2Proof.Machine
end

