-- ==== Sys2Proof/Machine/Pack.lean ====
section
/-! DEFINITION. The packer (R91, R92, R93, R103, R155, R156): one block of Q4B, Q3B, Q2B or TRI5 from its inputs,
with exceptions, structured sparsity and stochastic rounding. Shared by VPACK and the packing hoists. -/

namespace Sys2Proof

/-- One packer input after division by tensor_scale: (−1)^neg · n/d, or an element that R103 packs as zero. -/
structure PackIn where
  neg : Bool
  n : Nat
  d : Nat
  bad : Bool
deriving DecidableEq, Repr

namespace PackIn

def zero : PackIn := ⟨false, 0, 1, false⟩

/-- The input datum `v` divided by the finite, non-zero tensor scale `ts`. -/
def ofFVal (v : FVal) (ts : FVal) : PackIn :=
  match v with
  | .num s m e =>
    let a := (⟨m, e⟩ : Dy).ratio
    let b := ts.dy.ratio
    ⟨s != ts.sign, a.1 * b.2, a.2 * b.1, false⟩
  | _ => ⟨false, 0, 1, true⟩

/-- |a| < |b|. -/
def magLt (a b : PackIn) : Bool := a.n * b.d < b.n * a.d

end PackIn

/-- The formats a packer makes, with the largest code magnitude of R92 (in half steps for Q2B). -/
def packQmax : Base → Nat
  | .q4b => 7 | .q3b => 3 | _ => 1

/-- The position of the largest magnitude among `ps`, the lowest on a tie; `ps` is in increasing order. -/
def argMax (x : Nat → PackIn) : List Nat → Option Nat
  | [] => none
  | p :: ps =>
    match argMax x ps with
    | none => some p
    | some q => if (x p).magLt (x q) then some q else some p

/-- The state of outlier selection (R91, R92): positions in ex in the order they entered, positions seen, and over. -/
structure ExSel where
  ex : List Nat
  seen : List Nat
  beyond : Bool
deriving DecidableEq, Repr

/-- Whether a slot that may hold position c is free (R82, R92). -/
def exSlotFree (base : Base) (ex : List Nat) (c : Nat) : Bool :=
  match base with
  | .tri5 => !(ex.any fun p => (decide (p < 30)) == (decide (c < 30)))
  | _ => ex.length < 2

/-- The outlier loop of R91's procedure, `j` from 0 to 2; `ratio` is x_ratio as numerator and denominator. -/
def selectOutliers (base : Base) (x : Nat → PackIn) (ps : List Nat) (rn rd : Nat) : Nat → ExSel → ExSel
  | 0, st => st
  | fuel + 1, st =>
    let cand := ps.filter fun p => !st.seen.contains p
    match argMax x cand with
    | none => st
    | some c =>
      let r := match argMax x (cand.filter fun p => p != c) with
        | some q => x q
        | none => PackIn.zero
      let xc := x c
      if rn * r.n * xc.d < xc.n * (r.d * rd) then
        let st' : ExSel :=
          if fuel ≠ 0 ∧ exSlotFree base st.ex c then { st with ex := st.ex ++ [c], seen := c :: st.seen }
          else { st with beyond := true, seen := c :: st.seen }
        selectOutliers base x ps rn rd fuel st'
      else st

/-- Sum of magnitudes, as a fraction. -/
def sumMag (x : Nat → PackIn) : List Nat → Nat × Nat
  | [] => (0, 1)
  | p :: ps =>
    let r := sumMag x ps
    ((x p).n * r.2 + r.1 * (x p).d, (x p).d * r.2)

/-- The block scale byte (R91's procedure; R103 leaves bad elements out): TRI5 takes the E4M3 value nearest to the
mean magnitude, the others the smallest E4M3 value not below the largest magnitude over qmax. -/
def packScale (base : Base) (x : Nat → PackIn) (ps : List Nat) : Nat :=
  let good := ps.filter fun p => !(x p).bad
  let raw : Nat × Nat :=
    if base = .tri5 then
      let s := sumMag x good
      (s.1, s.2 * max good.length 1)
    else
      match argMax x good with
      | none => (0, 1)
      | some c =>
        if base = .q2b then ((x c).n * 2, (x c).d * 3) else ((x c).n, (x c).d * packQmax base)
  if raw.1 = 0 then 0
  else if raw.1 > 448 * raw.2 then 0x7E
  else
    let g := e4m3.floor raw.1 raw.2
    if base = .tri5 then g.code + (g.roundsUp .nearest false).toNat
    else g.code + (if g.rn = 0 then 0 else 1)

/-- The code of zero (R91's procedure). -/
def zeroCode : Base → Nat
  | .q2b => 2
  | .tri5 => 1
  | _ => 0

/-- One coded element: its code, whether clamping moved it by more than half a step (R93), and whether rounding it
takes a draw (R92). -/
structure Coded where
  code : Nat
  saturated : Bool
deriving DecidableEq, Repr

/-- x / s as a fraction, for the block scale `s`. -/
def overScale (x : PackIn) (s : Dy) : Nat × Nat :=
  let r := s.ratio
  (x.n * r.2, x.d * r.1)

/-- Whether coding x at scale s takes a stochastic draw (R92). -/
def packTakesDraw (base : Base) (x : PackIn) (s : Dy) : Bool :=
  let y := overScale x s
  if base = .q2b then 2 * y.1 < 3 * y.2 && (2 * y.1) % (2 * y.2) != y.2
  else intTakesDraw y.1 y.2 (packQmax base)

/-- The code of x at scale s (R92), under round to nearest or with draw `r`. -/
def packCode (base : Base) (draw : Option Nat) (x : PackIn) (s : Dy) : Coded :=
  let y := overScale x s
  if base = .q2b then
    -- levels −1.5, −0.5, +0.5, +1.5 have codes 0 to 3
    let neg := x.neg
    let big : Bool := y.2 < y.1
    let code :=
      match draw with
      | none => if neg then (if big then 0 else 1) else (if big then 3 else 2)
      | some r =>
        if 3 * y.2 ≤ 2 * y.1 then (if neg then 0 else 3)
        else
          -- z = y + 1.5 as a fraction over 2·y.2; the level below is floor z
          let z := if neg then 3 * y.2 - 2 * y.1 else 3 * y.2 + 2 * y.1
          let d := 2 * y.2
          z / d + (if z % d ≠ 0 ∧ r < (z % d) * 65536 / d then 1 else 0)
    ⟨code, 2 * y.2 < y.1⟩
  else
    let q := packQmax base
    let md := match draw with
      | none => RMode.nearest
      | some r => RMode.stochastic r
    let m := if q * y.2 ≤ y.1 then q else min q (roundMagInt md x.neg y.1 y.2)
    let i : Int := if x.neg then -(m : Int) else m
    let sat := (2 * q + 1) * y.2 < 2 * y.1
    match base with
    | .tri5 => ⟨(i + 1).toNat, sat⟩
    | .q3b => ⟨wrap 3 i, sat⟩
    | _ => ⟨wrap 4 i, sat⟩

/-- An exception value rounded to E4M3 (R92). -/
def packException (draw : Option Nat) (x : PackIn) : Nat :=
  (e4m3.round (match draw with | none => .nearest | some r => .stochastic r) x.neg x.n x.d).bits

/-- Codes of the positions `ps` in increasing order, drawing where R112 says; exceptions take the code of zero. -/
def packElements (base : Base) (stoch : Bool) (x : Nat → PackIn) (sByte : Nat) (ex : List Nat) :
    List Nat → DWord → List (Nat × Coded) × List (Nat × Nat) × DWord
  | [], g => ([], [], g)
  | p :: ps, g =>
    let s := (e4m3.decode sByte).dy
    let xi := x p
    if ex.contains p then
      let nd := stoch && e4m3.takesDraw xi.n xi.d
      let g' := if nd then rngStep g else g
      let r := packElements base stoch x sByte ex ps g'
      ((p, ⟨zeroCode base, false⟩) :: r.1,
       (p, packException (if nd then some (rngDraw g') else none) xi) :: r.2.1, r.2.2)
    else if xi.bad || sByte = 0 then
      let r := packElements base stoch x sByte ex ps g
      ((p, ⟨zeroCode base, false⟩) :: r.1, r.2.1, r.2.2)
    else
      let nd := stoch && packTakesDraw base xi s
      let g' := if nd then rngStep g else g
      let r := packElements base stoch x sByte ex ps g'
      let c := packCode base (if nd || (stoch && base = .q2b) then some (rngDraw g') else none) xi s
      ((p, c) :: r.1, r.2.1, r.2.2)

/-- The exception word (R81) of the exceptions in the order they entered ex (R92). -/
def packExcWord (base : Base) (ex : List Nat) (vals : List (Nat × Nat)) (beyond : Bool) : Nat :=
  let val (p : Nat) : Nat := ((vals.find? fun v => v.1 == p).map fun v => v.2).getD 0
  let s0 := match base with
    | .tri5 => ex.find? fun p => decide (p < 30)
    | _ => ex.head?
  let s1 := match base with
    | .tri5 => ex.find? fun p => decide (30 ≤ p)
    | _ => ex[1]?
  let w0 := match s0 with
    | some p => 2 ^ 29 + p * 2 ^ 8 + val p
    | none => 0
  let w1 := match s1 with
    | some p => 2 ^ 30 + (if base = .tri5 then p - 30 else p) * 2 ^ 24 + val p * 2 ^ 16
    | none => 0
  w0 + w1 + (if beyond then 2 ^ 31 else 0)

/-! ## Sparse slots (R155, R87) -/

/-- Inserts p into a list ordered by magnitude descending, lower position first on a tie. -/
def insertByMag (x : Nat → PackIn) (p : Nat) : List Nat → List Nat
  | [] => [p]
  | q :: qs => if (x q).magLt (x p) then p :: q :: qs else q :: insertByMag x p qs

/-- Positions ordered by magnitude descending, lower position first on a tie. -/
def sortByMag (x : Nat → PackIn) (ps : List Nat) : List Nat := ps.foldl (fun acc p => insertByMag x p acc) []

/-- The parts of a 16-position block and their quotas: groups of 8, or the halves of a 2:4 group (R155). -/
def sparseParts (pattern : Nat) : List (List Nat × Nat) :=
  if pattern = 4 then (List.range 4).map fun h => ((List.range 4).map (4 * h + ·), 2)
  else (List.range 2).map fun h => ((List.range 8).map (8 * h + ·), sparseSlots pattern)

/-- Fills a part's unused slots with the lowest positions no other slot of the part uses, in ascending order (R87,
R84). -/
def fillSlots (part kept : List Nat) (quota : Nat) : List Nat :=
  let free := part.filter fun p => !kept.contains p
  let all := kept ++ free.take (quota - kept.length)
  part.filter fun p => all.contains p

/-- One packed block. -/
structure Packed where
  /-- Codes in position order (dense) or slot order (sparse). -/
  codes : List Nat
  scale : Nat
  excWord : Nat
  /-- Slot indices of a sparse block, in slot order. -/
  indices : List Nat
  saturations : Nat
  malformed : Nat
  exceptions : Nat
  excOverflow : Bool
  /-- Positions pruned (R155). -/
  pruned : List Nat
  overfull : Bool
  rng : DWord
deriving DecidableEq, Repr

/-- Packs one block of B inputs (R92, R155, R156). `pattern` is the sparse code of R72, x_ratio is rn/rd. -/
def packBlock (base : Base) (plusX stoch : Bool) (pattern rn rd : Nat) (xs : List PackIn) (g : DWord) : Packed :=
  let x (p : Nat) : PackIn := xs.getD p PackIn.zero
  let all := List.range base.blockLen
  let malformed := (all.filter fun p => (x p).bad).length
  let parts := if pattern = 0 then [] else sparseParts pattern
  let chosen := parts.map fun h =>
    (h.1, h.2, (sortByMag x (h.1.filter fun p => !(x p).bad && (x p).n != 0)))
  let surplus := sortByMag x (chosen.flatMap fun c => c.2.2.drop c.2.1)
  let sEx := if plusX then surplus.take 2 else []
  let pruned := if plusX then surplus.drop 2 else surplus
  let slotsOf := chosen.flatMap fun c =>
    fillSlots c.1 (c.2.2.take c.2.1) c.2.1
  let ps := if pattern = 0 then all else all.filter fun p => slotsOf.contains p
  let st0 : ExSel := ⟨sEx, sEx, plusX && pruned != []⟩
  let st := if plusX then
      selectOutliers base x (ps.filter fun p => !(x p).bad) rn rd 3 st0 else st0
  let sByte := packScale base x (ps.filter fun p => !st.ex.contains p)
  let order := all.filter fun p => ps.contains p || st.ex.contains p
  let r := packElements base stoch x sByte st.ex order g
  let coded := r.1.filter fun c => ps.contains c.1
  { codes := coded.map fun c => c.2.code
    scale := sByte
    excWord := if plusX then packExcWord base st.ex r.2.1 st.beyond else 0
    indices := if pattern = 0 then [] else ps.map fun p => p % 8
    saturations := (coded.filter fun c => c.2.saturated).length
    malformed := malformed
    exceptions := st.ex.length
    excOverflow := st.beyond
    pruned := pruned
    overfull := surplus != []
    rng := r.2.2 }

/-- A block's element codes as the bits of its part of the element stream (R74, R78, R85), and their number. -/
def packBits (base : Base) (codes : List Nat) : Nat × Nat :=
  match base with
  | .tri5 =>
    let byte (j : Nat) : Nat :=
      ((List.range 5).map fun m => codes.getD (5 * j + m) 1 * 3 ^ m).foldl (· + ·) 0
    (leNat ((List.range 12).map byte), 96)
  | b =>
    ((codes.foldr (fun c acc => c + acc * 2 ^ b.elemBits) 0), codes.length * b.elemBits)

/-- A sparse block's index field (R86). -/
def packIndices (ix : List Nat) : Nat := ix.foldr (fun i acc => i + 8 * acc) 0

end Sys2Proof
end

