-- ==== Sys2Proof/Decode.lean ====
section
/-! DEFINITION. Decoding. The table of commands gives its rows no bits, so `decodeTableWord` reads none. `decodeWord`
reads the 32-bit words of a core's instruction set (R173 to R176), total, and answers none exactly where R174 finds a
decode-time ILLEGAL. -/

namespace Sys2Proof

/-- No row of the table of operations and events gives bits. -/
def decodeTableWord (_nbits _w : Nat) : Option Instr := none

namespace Isa

/-- Register, predicate and other fields of an instruction word (R173). -/
def fld (n : Nat) [NeZero n] (w hi lo : Nat) : Fin n := Fin.ofNat n (bits w hi lo)
def gd (w : Nat) : Fin 32 := fld 32 w 21 17
def ga (w : Nat) : Fin 32 := fld 32 w 16 12
def gb (w : Nat) : Fin 32 := fld 32 w 11 7

/-- Who issues the word, with its guard (R173). -/
def iss (x : Site) (t : Fin 4) (w : Nat) : Iss := ⟨x, t, bit w 25, fld 8 w 24 22⟩

/-- ALU operations of major 0x01 (R181). -/
def alu (i : Iss) (d a b : Fin 32) (func : Nat) : Option Instr :=
  match func with
  | 0x00 => some (.add i d a b) | 0x01 => some (.sub i d a b) | 0x02 => some (.and i d a b)
  | 0x03 => some (.or i d a b) | 0x04 => some (.xor i d a b) | 0x05 => some (.sll i d a b)
  | 0x06 => some (.srl i d a b) | 0x07 => some (.sra i d a b) | 0x08 => some (.mul i d a b)
  | 0x09 => some (.mulh i d a b) | 0x0A => some (.mulhu i d a b) | 0x0B => some (.div i d a b)
  | 0x0C => some (.divu i d a b) | 0x0D => some (.rem i d a b) | 0x0E => some (.remu i d a b)
  | 0x0F => some (.min i d a b) | 0x10 => some (.max i d a b) | 0x11 => some (.minu i d a b)
  | 0x12 => some (.maxu i d a b) | 0x13 => some (.clz i d a) | 0x14 => some (.popc i d a)
  | _ => none

/-- Immediate operations of majors 0x02 to 0x06 (R182). -/
def immOp (i : Iss) (w major : Nat) : Option Instr :=
  let imm := BitVec.ofNat 12 w
  match major with
  | 0x02 => some (.addi i (gd w) (ga w) imm)
  | 0x03 => some (.andi i (gd w) (ga w) imm)
  | 0x04 => some (.ori i (gd w) (ga w) imm)
  | 0x05 => some (.xori i (gd w) (ga w) imm)
  | _ =>
    if h : bits w 11 10 < 3 ∧ bits w 9 6 = 0 then some (.shi i (gd w) (ga w) ⟨bits w 11 10, h.1⟩ (fld 64 w 5 0))
    else none

/-- Predicate operations of major 0x0B (R182). -/
def predOp (i : Iss) (w : Nat) : Option Instr :=
  if bits w 18 15 = 0 ∧ bits w 11 10 = 0 ∧ bits w 6 3 = 0 then
    let pd := fld 8 w 21 19
    let pa := fld 8 w 14 12
    let pb := fld 8 w 9 7
    match bits w 2 0 with
    | 0 => some (.pand i pd pa pb) | 1 => some (.por i pd pa pb) | 2 => some (.pxor i pd pa pb)
    | 3 => some (.pandn i pd pa pb) | 4 => some (.pnot i pd pa) | _ => none
  else none

/-- Loads and stores of majors 0x18 to 0x1A and 0x22 (R184, R188). -/
def memOp (i : Iss) (w major : Nat) : Option Instr :=
  let imm := BitVec.ofNat 9 w
  let op := bits w 11 9
  let func := bits w 6 0
  match major with
  | 0x18 => if h : op < 7 then some (.ld i ⟨op, h⟩ (gd w) (ga w) imm) else none
  | 0x19 => if h : op < 4 then some (.st i ⟨op, h⟩ (gd w) (ga w) imm) else none
  | 0x1A =>
    if h : func < 7 then some (.ldx i ⟨func, h⟩ (gd w) (ga w) (gb w))
    else if h : 0x10 ≤ func ∧ func - 0x10 < 4 then some (.stx i ⟨func - 0x10, h.2⟩ (gd w) (ga w) (gb w))
    else none
  | _ =>
    match op with
    | 0 => some (.vld i (gd w) (ga w) imm) | 1 => some (.vst i (gd w) (ga w) imm) | _ => none

/-- Whether VCVT's fields are assigned together (R187): rounding 1 to 3 only into wide formats, part below the ratio. -/
def vcvtOk (src dst rm part : Nat) : Bool :=
  let lanes (f : Nat) : Nat := match f with | 0 => 8 | 1 => 16 | 7 => 16 | 2 => 32 | 3 => 32 | _ => 64
  let lo := min (lanes src) (lanes dst)
  let hi := max (lanes src) (lanes dst)
  !(decide (1 ≤ rm ∧ rm ≤ 3) && (dst == 4 || dst == 5 || dst == 6 || dst == 7)) && decide (part < hi / lo)

/-- Registers VPACK reads (R189). -/
def vpackRegs (fmt : Nat) : Nat := match fmt with | 2 => 2 | 3 => 4 | _ => 1

/-- Vector instructions of majors 0x20, 0x21, 0x23 and 0x24 (R186 to R189). -/
def vecOp (i : Iss) (w major : Nat) : Option Instr :=
  let d := gd w
  let a := ga w
  let b := gb w
  let fmt := bits w 6 4
  let func := bits w 3 0
  match major with
  | 0x20 =>
    if h : fmt < 6 then
      let f : Fin 6 := ⟨fmt, h⟩
      match func with
      | 0 => some (.vadd i f d a b) | 1 => some (.vsub i f d a b) | 2 => some (.vmul i f d a b)
      | 3 => some (.vfma i f d a b) | 4 => some (.vfnma i f d a b) | 5 => some (.vmin i f d a b)
      | 6 => some (.vmax i f d a b)
      | 7 => if b = 0 then some (.vabs i f d a) else none
      | 8 => if b = 0 then some (.vneg i f d a) else none
      | _ => none
    else none
  | 0x21 =>
    let src := bits w 11 9
    let dst := bits w 8 6
    let rm := bits w 5 3
    let part := bits w 2 0
    if h : rm < 6 ∧ vcvtOk src dst rm part then
      some (.vcvt i d a (Fin.ofNat 8 src) (Fin.ofNat 8 dst) ⟨rm, h.1⟩ (Fin.ofNat 8 part))
    else none
  | 0x23 =>
    if func = 0 then (if fmt = 0 then some (.vmov i d a) else none)
    else if h : fmt < 6 then
      let f : Fin 6 := ⟨fmt, h⟩
      match func with
      | 1 => some (.vsplat i f d a) | 2 => some (.vext i f d a b) | 3 => some (.vins i f d a b)
      | 4 => some (.vrsum i f d a) | 5 => some (.vrmax i f d a) | _ => none
    else none
  | _ =>
    match func with
    | 0 => if fmt = 0 then some (.vspmv i a) else none
    | 1 => if fmt = 0 then some (.vswait i d) else none
    | 2 => if fmt = 0 then some (.vunpk i d a b) else none
    | 3 =>
      if h : fmt < 4 ∧ d.val + vpackRegs fmt ≤ 32 then some (.vpack i false ⟨fmt, h.1⟩ d a b) else none
    | 4 =>
      if h : fmt < 4 ∧ d.val + vpackRegs fmt ≤ 32 then some (.vpack i true ⟨fmt, h.1⟩ d a b) else none
    | _ => none

/-- Array control instructions of major 0x28 (R190). -/
def arrayOp (i : Iss) (w : Nat) : Option Instr :=
  match bits w 6 0 with
  | 0 => some (.aload i (ga w) (gb w))
  | 1 => if gb w = 0 then some (.aopen i (ga w)) else none
  | 2 => some (.apass i (ga w) (gb w))
  | 3 => some (.aclose i (ga w) (gb w))
  | 4 => if ga w = 0 ∧ gb w = 0 then some (.afence i (gd w)) else none
  | _ => none

/-- Chute instructions of major 0x2C (R192). -/
def chuteOp (i : Iss) (w : Nat) : Option Instr :=
  match bits w 6 0 with
  | 0 => some (.cput i (gd w) (gb w)) | 1 => some (.cget i (gd w) (gb w)) | 2 => some (.cgetn i (gd w) (gb w))
  | 3 => some (.vcput i (gd w) (gb w)) | 4 => some (.vcget i (gd w) (gb w)) | 5 => some (.cropen i (gb w))
  | 6 => some (.crclose i (gb w)) | 7 => some (.clevel i (gd w) (gb w)) | _ => none

/-- Tally instructions of major 0x30 (R193). -/
def tallyOp (i : Iss) (w : Nat) : Option Instr :=
  let ty : Fin 64 := fld 64 w 11 6
  match bits w 5 0 with
  | 0 => some (.tadd i (ga w) ty) | 1 => some (.ttgt i (ga w) ty) | 2 => some (.tset i (ga w) ty)
  | 3 => some (.twait i (gd w) (ga w) ty) | 4 => some (.tbar i (gd w) (ga w) ty) | 5 => some (.trd i (gd w) ty)
  | 6 => some (.tnote i (gd w) (ga w) ty) | _ => none

/-- Remote instructions of major 0x34 (R195). -/
def remoteOp (i : Iss) (w : Nat) : Option Instr :=
  match bits w 6 0 with
  | 0 => some (.rld i (gd w) (ga w)) | 1 => some (.rst i (gd w) (ga w)) | 2 => some (.rsta i (gd w) (ga w))
  | 3 => some (.rsig i (gd w) (ga w) (gb w)) | 4 => some (.rput i (gd w) (ga w) (gb w))
  | 5 => some (.rget i (gd w) (ga w) (gb w)) | 6 => some (.rtsig i (gd w) (ga w) (gb w))
  | 7 => some (.rfence i (gd w)) | _ => none

/-- System registers a WRSYS may write (R171). -/
def sysWritable (n : Nat) : Bool := n == 1 || n == 2 || n == 3 || n == 4 || n == 5 || n == 8

/-- System instructions of major 0x3C (R197, R171). -/
def sysOp (i : Iss) (w : Nat) : Option Instr :=
  let b := bits w 11 7
  match bits w 6 0 with
  | 0 => if h : b < 10 then some (.rdsys i (gd w) ⟨b, h⟩) else none
  | 1 => if h : b < 10 ∧ sysWritable b then some (.wrsys i (ga w) ⟨b, h.1⟩) else none
  | 2 => some (.iflush i) | 3 => some (.fence i) | 4 => some (.halt i) | 5 => some (.trap i (gb w))
  | 6 => some (.rte i) | 7 => some (.nop i) | _ => none

end Isa

/-- The instruction a word encodes for a thread, or none where the word is ILLEGAL at decode (R174). -/
def decodeWord (x : Site) (t : Fin 4) (word : Word) : Option Instr :=
  let w := word.toNat
  let i := Isa.iss x t w
  let d := Isa.gd w
  let a := Isa.ga w
  match bits w 31 26 with
  | 0x01 => Isa.alu i d a (Isa.gb w) (bits w 6 0)
  | 0x02 => Isa.immOp i w 0x02
  | 0x03 => Isa.immOp i w 0x03
  | 0x04 => Isa.immOp i w 0x04
  | 0x05 => Isa.immOp i w 0x05
  | 0x06 => Isa.immOp i w 0x06
  | 0x07 =>
    if h : bits w 18 17 = 0 ∧ bits w 11 9 < 7 then
      some (.cmpi i (Isa.fld 8 w 21 19) a ⟨bits w 11 9, h.2⟩ (BitVec.ofNat 9 w))
    else none
  | 0x08 => some (.movi x t (Isa.fld 32 w 25 21) (BitVec.ofNat 21 w))
  | 0x09 =>
    if bits w 20 18 = 0 then some (.movsh x t (Isa.fld 32 w 25 21) (Isa.fld 4 w 17 16) (BitVec.ofNat 16 w)) else none
  | 0x0A =>
    if h : bits w 18 17 = 0 ∧ bits w 6 3 = 0 ∧ bits w 2 0 < 7 then
      some (.cmp i (Isa.fld 8 w 21 19) a (Isa.gb w) ⟨bits w 2 0, h.2.2⟩)
    else none
  | 0x0B => Isa.predOp i w
  | 0x10 => some (.br i (BitVec.ofNat 22 w))
  | 0x11 => some (.brl i d (BitVec.ofNat 17 w))
  | 0x12 =>
    match bits w 6 0 with
    | 0 => some (.jr i a) | 1 => some (.jrl i d a) | _ => none
  | 0x18 => Isa.memOp i w 0x18
  | 0x19 => Isa.memOp i w 0x19
  | 0x1A => Isa.memOp i w 0x1A
  | 0x20 => Isa.vecOp i w 0x20
  | 0x21 => Isa.vecOp i w 0x21
  | 0x22 => Isa.memOp i w 0x22
  | 0x23 => Isa.vecOp i w 0x23
  | 0x24 => Isa.vecOp i w 0x24
  | 0x28 => Isa.arrayOp i w
  | 0x2C => Isa.chuteOp i w
  | 0x30 => Isa.tallyOp i w
  | 0x34 => Isa.remoteOp i w
  | 0x3C => Isa.sysOp i w
  | 0x3D => some (.rdreg i d a (BitVec.ofNat 12 w))
  | 0x3E => some (.wrreg i d a (BitVec.ofNat 12 w))
  | _ => none

namespace Isa

/-- Major opcode and guard of a word (R173). -/
def headWord (i : Iss) (major : Nat) : Nat := major * 2 ^ 26 + i.neg.toNat * 2 ^ 25 + i.pred.val * 2 ^ 22

/-- Words of the instructions that may raise ILLEGAL after they are decoded (R44, R132, R171, R187, R189), for EVAL. -/
def vcvtWord (i : Iss) (d a : Fin 32) (src dst : Fin 8) (rm : Fin 6) (part : Fin 8) : Nat :=
  headWord i 0x21 + d.val * 2 ^ 17 + a.val * 2 ^ 12 + src.val * 2 ^ 9 + dst.val * 2 ^ 6 + rm.val * 2 ^ 3 + part.val
def vpackWord (i : Iss) (stochastic : Bool) (fmt : Fin 4) (d a b : Fin 32) : Nat :=
  headWord i 0x24 + d.val * 2 ^ 17 + a.val * 2 ^ 12 + b.val * 2 ^ 7 + fmt.val * 2 ^ 4 + (3 + stochastic.toNat)
def arrayWord (i : Iss) (func : Nat) (d a b : Fin 32) : Nat :=
  headWord i 0x28 + d.val * 2 ^ 17 + a.val * 2 ^ 12 + b.val * 2 ^ 7 + func
def wrsysWord (i : Iss) (a : Fin 32) (num : Fin 10) : Nat :=
  headWord i 0x3C + a.val * 2 ^ 12 + num.val * 2 ^ 7 + 1

/-! ## Words of instructions (R173, R176) -/

/-- Formats R, I, M, C, P, V, VC, T, L and B of R173; operands that a function does not use are zero. -/
def rWord (i : Iss) (major d a b func : Nat) : Nat := headWord i major + d * 2 ^ 17 + a * 2 ^ 12 + b * 2 ^ 7 + func
def iWord (i : Iss) (major d a imm : Nat) : Nat := headWord i major + d * 2 ^ 17 + a * 2 ^ 12 + imm
def mWord (i : Iss) (major d a op imm : Nat) : Nat := headWord i major + d * 2 ^ 17 + a * 2 ^ 12 + op * 2 ^ 9 + imm
def pWord (i : Iss) (pd pa pb func : Nat) : Nat := headWord i 0x0B + pd * 2 ^ 19 + pa * 2 ^ 12 + pb * 2 ^ 7 + func
def vWord (i : Iss) (major d a b fmt func : Nat) : Nat :=
  headWord i major + d * 2 ^ 17 + a * 2 ^ 12 + b * 2 ^ 7 + fmt * 2 ^ 4 + func
def tWord (i : Iss) (d a ty func : Nat) : Nat := headWord i 0x30 + d * 2 ^ 17 + a * 2 ^ 12 + ty * 2 ^ 6 + func

/-- The word of a core instruction; none for every other command. -/
def encode : Instr → Option Nat
  | .add i d a b => rWord i 0x01 d.val a.val b.val 0x00
  | .sub i d a b => rWord i 0x01 d.val a.val b.val 0x01
  | .and i d a b => rWord i 0x01 d.val a.val b.val 0x02
  | .or i d a b => rWord i 0x01 d.val a.val b.val 0x03
  | .xor i d a b => rWord i 0x01 d.val a.val b.val 0x04
  | .sll i d a b => rWord i 0x01 d.val a.val b.val 0x05
  | .srl i d a b => rWord i 0x01 d.val a.val b.val 0x06
  | .sra i d a b => rWord i 0x01 d.val a.val b.val 0x07
  | .mul i d a b => rWord i 0x01 d.val a.val b.val 0x08
  | .mulh i d a b => rWord i 0x01 d.val a.val b.val 0x09
  | .mulhu i d a b => rWord i 0x01 d.val a.val b.val 0x0A
  | .div i d a b => rWord i 0x01 d.val a.val b.val 0x0B
  | .divu i d a b => rWord i 0x01 d.val a.val b.val 0x0C
  | .rem i d a b => rWord i 0x01 d.val a.val b.val 0x0D
  | .remu i d a b => rWord i 0x01 d.val a.val b.val 0x0E
  | .min i d a b => rWord i 0x01 d.val a.val b.val 0x0F
  | .max i d a b => rWord i 0x01 d.val a.val b.val 0x10
  | .minu i d a b => rWord i 0x01 d.val a.val b.val 0x11
  | .maxu i d a b => rWord i 0x01 d.val a.val b.val 0x12
  | .clz i d a => rWord i 0x01 d.val a.val 0 0x13
  | .popc i d a => rWord i 0x01 d.val a.val 0 0x14
  | .addi i d a imm => iWord i 0x02 d.val a.val imm.toNat
  | .andi i d a imm => iWord i 0x03 d.val a.val imm.toNat
  | .ori i d a imm => iWord i 0x04 d.val a.val imm.toNat
  | .xori i d a imm => iWord i 0x05 d.val a.val imm.toNat
  | .shi i d a kind n => iWord i 0x06 d.val a.val (kind.val * 2 ^ 10 + n.val)
  | .cmpi i pd a cond imm =>
    some (headWord i 0x07 + pd.val * 2 ^ 19 + a.val * 2 ^ 12 + cond.val * 2 ^ 9 + imm.toNat)
  | .cmp i pd a b cond =>
    some (headWord i 0x0A + pd.val * 2 ^ 19 + a.val * 2 ^ 12 + b.val * 2 ^ 7 + cond.val)
  | .movi _ _ d imm => some (0x08 * 2 ^ 26 + d.val * 2 ^ 21 + imm.toNat)
  | .movsh _ _ d h imm => some (0x09 * 2 ^ 26 + d.val * 2 ^ 21 + h.val * 2 ^ 16 + imm.toNat)
  | .pand i pd pa pb => pWord i pd.val pa.val pb.val 0
  | .por i pd pa pb => pWord i pd.val pa.val pb.val 1
  | .pxor i pd pa pb => pWord i pd.val pa.val pb.val 2
  | .pandn i pd pa pb => pWord i pd.val pa.val pb.val 3
  | .pnot i pd pa => pWord i pd.val pa.val 0 4
  | .br i off => some (headWord i 0x10 + off.toNat)
  | .brl i d off => some (headWord i 0x11 + d.val * 2 ^ 17 + off.toNat)
  | .jr i a => rWord i 0x12 0 a.val 0 0
  | .jrl i d a => rWord i 0x12 d.val a.val 0 1
  | .ld i size d a imm => mWord i 0x18 d.val a.val size.val imm.toNat
  | .st i size d a imm => mWord i 0x19 d.val a.val size.val imm.toNat
  | .ldx i size d a b => rWord i 0x1A d.val a.val b.val size.val
  | .stx i size d a b => rWord i 0x1A d.val a.val b.val (0x10 + size.val)
  | .vld i v a imm => mWord i 0x22 v.val a.val 0 imm.toNat
  | .vst i v a imm => mWord i 0x22 v.val a.val 1 imm.toNat
  | .vadd i fmt d a b => vWord i 0x20 d.val a.val b.val fmt.val 0
  | .vsub i fmt d a b => vWord i 0x20 d.val a.val b.val fmt.val 1
  | .vmul i fmt d a b => vWord i 0x20 d.val a.val b.val fmt.val 2
  | .vfma i fmt d a b => vWord i 0x20 d.val a.val b.val fmt.val 3
  | .vfnma i fmt d a b => vWord i 0x20 d.val a.val b.val fmt.val 4
  | .vmin i fmt d a b => vWord i 0x20 d.val a.val b.val fmt.val 5
  | .vmax i fmt d a b => vWord i 0x20 d.val a.val b.val fmt.val 6
  | .vabs i fmt d a => vWord i 0x20 d.val a.val 0 fmt.val 7
  | .vneg i fmt d a => vWord i 0x20 d.val a.val 0 fmt.val 8
  | .vcvt i d a src dst rm part => vcvtWord i d a src dst rm part
  | .vmov i d a => vWord i 0x23 d.val a.val 0 0 0
  | .vsplat i fmt d a => vWord i 0x23 d.val a.val 0 fmt.val 1
  | .vext i fmt d a b => vWord i 0x23 d.val a.val b.val fmt.val 2
  | .vins i fmt d a b => vWord i 0x23 d.val a.val b.val fmt.val 3
  | .vrsum i fmt d a => vWord i 0x23 d.val a.val 0 fmt.val 4
  | .vrmax i fmt d a => vWord i 0x23 d.val a.val 0 fmt.val 5
  | .vspmv i a => vWord i 0x24 0 a.val 0 0 0
  | .vswait i d => vWord i 0x24 d.val 0 0 0 1
  | .vunpk i d a b => vWord i 0x24 d.val a.val b.val 0 2
  | .vpack i stochastic fmt d a b => vpackWord i stochastic fmt d a b
  | .aload i a b => arrayWord i 0 0 a b
  | .aopen i a => arrayWord i 1 0 a 0
  | .apass i a b => arrayWord i 2 0 a b
  | .aclose i a b => arrayWord i 3 0 a b
  | .afence i d => arrayWord i 4 d 0 0
  | .cput i d e => rWord i 0x2C d.val 0 e.val 0
  | .cget i d e => rWord i 0x2C d.val 0 e.val 1
  | .cgetn i d e => rWord i 0x2C d.val 0 e.val 2
  | .vcput i v e => rWord i 0x2C v.val 0 e.val 3
  | .vcget i v e => rWord i 0x2C v.val 0 e.val 4
  | .cropen i e => rWord i 0x2C 0 0 e.val 5
  | .crclose i e => rWord i 0x2C 0 0 e.val 6
  | .clevel i d e => rWord i 0x2C d.val 0 e.val 7
  | .tadd i a ty => tWord i 0 a.val ty.val 0
  | .ttgt i a ty => tWord i 0 a.val ty.val 1
  | .tset i a ty => tWord i 0 a.val ty.val 2
  | .twait i d a ty => tWord i d.val a.val ty.val 3
  | .tbar i d a ty => tWord i d.val a.val ty.val 4
  | .trd i d ty => tWord i d.val 0 ty.val 5
  | .tnote i d a ty => tWord i d.val a.val ty.val 6
  | .rld i d a => rWord i 0x34 d.val a.val 0 0
  | .rst i d a => rWord i 0x34 d.val a.val 0 1
  | .rsta i d a => rWord i 0x34 d.val a.val 0 2
  | .rsig i d a b => rWord i 0x34 d.val a.val b.val 3
  | .rput i d a b => rWord i 0x34 d.val a.val b.val 4
  | .rget i d a b => rWord i 0x34 d.val a.val b.val 5
  | .rtsig i d a b => rWord i 0x34 d.val a.val b.val 6
  | .rfence i d => rWord i 0x34 d.val 0 0 7
  | .rdsys i d num => rWord i 0x3C d.val 0 num.val 0
  | .wrsys i a num => wrsysWord i a num
  | .iflush i => rWord i 0x3C 0 0 0 2
  | .fence i => rWord i 0x3C 0 0 0 3
  | .halt i => rWord i 0x3C 0 0 0 4
  | .trap i code => rWord i 0x3C 0 0 code.val 5
  | .rte i => rWord i 0x3C 0 0 0 6
  | .nop i => rWord i 0x3C 0 0 0 7
  | .rdreg i d a imm => iWord i 0x3D d.val a.val imm.toNat
  | .wrreg i d a imm => iWord i 0x3E d.val a.val imm.toNat
  | _ => none

end Isa

end Sys2Proof
end

