-- ==== Sys2Proof/Machine/System.lean ====
section
/-! DEFINITION. Meanings of the system instructions, of taking exceptions, of the instruction buffer and of starting and
stopping threads (R171, R174, R179, R197 to R204, R560). RDREG and WRREG follow the register pages. -/

namespace Sys2Proof.Machine

/-- The value RDSYS reads (R171). -/
def sysRead (s : State) (x : Site) (t : Fin 4) (num : Fin 10) : DWord :=
  let th := s.thread x t.val
  let fl := s.field x.field
  match num with
  | 0 => BitVec.ofNat 64 (s.coreEid x * 2 ^ 32 + t.val)
  | 1 => th.epc
  | 2 => th.ecause
  | 3 => th.eval
  | 4 => th.fcsr
  | 5 => th.rstatus
  | 6 => BitVec.ofNat 64 (s.now x.field)
  | 7 => BitVec.ofNat 64 ((fl.clk - fl.held) / 20 - max fl.base (s.core x).cycles)
  | 8 => th.scratch
  | 9 => BitVec.ofNat 64 th.handler.toNat

/-- The thread after a write of a system register (R171); bits that the table does not give stay zero. -/
def sysWrite (th : Thread) (num : Fin 10) (v : DWord) : Thread :=
  match num with
  | 1 => { th with epc := v }
  | 2 => { th with ecause := BitVec.ofNat 64 (bits v.toNat 17 8 * 2 ^ 8 + bits v.toNat 4 0) }
  | 3 => { th with eval := v }
  | 4 => { th with fcsr := fcsrWrite v }
  | 5 => { th with rstatus := BitVec.ofNat 64 (bits v.toNat 31 16 * 2 ^ 16 + bits v.toNat 7 0) }
  | 8 => { th with scratch := v }
  | _ => th

def execRdsys (i : Iss) (d : GReg) (num : Fin 10) (s : State) : Out :=
  .next <| issue i [d.val] s fun th =>
    s.setThread i.site i.thread.val (th.put d.val (sysRead s i.site i.thread num)).advance

/-- The ILLEGAL exception of a word that the thread issues (R174): at decode, whatever the guard. -/
def illegal (s : State) (x : Site) (t : Fin 4) (word : Nat) : State :=
  if canIssue s x t.val then s.precise x t.val 0x01 .ok word else s

/-- WRSYS; a read-only register raises ILLEGAL (R171). -/
def execWrsys (i : Iss) (a : GReg) (num : Fin 10) (s : State) : Out :=
  if Isa.sysWritable num.val then
    .next <| issue i [a.val] s fun th =>
      s.setThread i.site i.thread.val (sysWrite th num (th.get a.val)).advance
  else .next (illegal s i.site i.thread (Isa.wrsysWord i a num))

/-- IFLUSH: the instruction buffer empties for all four threads (R42); earlier stores have committed. -/
def execIflush (i : Iss) (s : State) : Out :=
  .next <| issue i [] s fun th =>
    (s.setThread i.site i.thread.val th.advance).onCore i.site fun c => { c with ibuf := [] }

/-- FENCE: in this model the thread's earlier loads, stores and chute operations have completed when it issues. -/
def execFence (i : Iss) (s : State) : Out :=
  .next <| issue i [] s fun th => s.setThread i.site i.thread.val th.advance

/-- HALT: CORE.PCt := pc + 4, run bit cleared, thread STOPPED once its earlier instructions are complete. -/
def execHalt (i : Iss) (s : State) : Out :=
  .next <| issue i [] s fun th =>
    (s.setThread i.site i.thread.val th.advance).onCore i.site fun c => c.stopThread false i.thread.val

/-- TRAP: EPC is the next instruction (R199), EVAL the code. -/
def execTrap (i : Iss) (code : Fin 32) (s : State) : Out :=
  .next <| issue i [] s fun th =>
    s.takeExc i.site i.thread.val ⟨0x07, false, false, .ok, BitVec.ofNat 64 code.val⟩ th.nextPc

def execRte (i : Iss) (s : State) : Out :=
  .next <| issue i [] s fun _ => s.returnExc i.site i.thread.val

def execNop (i : Iss) (s : State) : Out :=
  .next <| issue i [] s fun th => s.setThread i.site i.thread.val th.advance

/-- A word is issued whose major opcode, function or fields R174 finds unassigned; a legal word is no such event. -/
def execIllegal (x : Site) (t : Fin 4) (word : Word) (s : State) : Out :=
  match decodeWord x t word with
  | none => .next (illegal s x t word.toNat)
  | some _ => .next s

/-- Whether a thread stands at an instruction boundary where it can take an asynchronous exception (R200, R201). -/
def atBoundary (s : State) (x : Site) (t : Nat) : Bool :=
  let th := s.thread x t
  s.coreRuns x && decide (th.state = .running) && !th.handler && th.late.isEmpty &&
    (match th.wait with | .rldResult _ true => false | _ => true)

/-- The thread takes its oldest asynchronous exception. EPC is the first instruction it has not issued: a thread stalled
at issue takes it before the stalled instruction (R200). -/
def execExceptionTake (x : Site) (t : Fin 4) (s : State) : Out :=
  let th := s.thread x t.val
  match th.async with
  | a :: rest =>
    if atBoundary s x t.val then
      .next ((s.setThread x t.val { th with async := rest }).takeExc x t.val
        ⟨a.cause, false, true, Status.ofCode a.status, a.eval⟩ th.pc)
    else .next s
  | [] => .next s

/-- Puts a line into the instruction buffer, whose 64 lines R39 gives; a full one loses a line that no rule names. -/
def Core.fillLine (c : Core) (victim : Fin 64) (line : Nat) : Core :=
  let keys := c.ibuf.keys.filter (· != line)
  let ibuf := if keys.length < 64 then c.ibuf else c.ibuf.del (keys.getD victim.val 0)
  { c with ibuf := ibuf.put line ((c.bytes (line * 64) 64).map (BitVec.ofNat 8)) }

/-- The line of the thread's next instruction arrives, or the fetch raises its exception (R179, R198, R281). -/
def execIbufRefill (x : Site) (t : Fin 4) (s : State) : Out :=
  if !canIssue s x t.val then .next s
  else
    let pc := (s.thread x t.val).pc
    let line := pc / 64
    let c := s.core x
    if !c.rangeActive (line * 64) 64 then
      .next (s.takeExc x t.val ⟨0x05, true, false, .bankParked, BitVec.ofNat 64 pc⟩ pc)
    else
      let r := s.readSram x (line * 64) 64
      .next <| r.2.2.unlessSealed x fun s =>
        match r.2.1 with
        | some _ => s.takeExc x t.val ⟨0x06, true, false, .eccUncorrected, BitVec.ofNat 64 pc⟩ pc
        | none =>
          let v := s.fresh
          v.2.onCore x fun c => c.fillLine (Config.ibufVictim v.1) line

/-- Starts a STOPPED thread at CORE.PCt: leaving STOPPED clears handler mode (R172). A thread that has been told to stop
and has not yet stopped runs on. -/
def Core.startThread (c : Core) (t : Nat) : Core :=
  let th := c.thread t
  let c := c.setRunBit t true
  if th.state = .stopped then (c.leaveHandler t).setThread t { th with state := .running, handler := false, wait := .none }
  else
    match th.wait with
    | .rldResult [] true => c.setThread t { th with state := .running, wait := .none }
    | .rldResult need true => c.setThread t { th with wait := .rldResult need false }
    | _ => c

/-- A write of CORE.RUN: set bits start STOPPED threads, cleared bits stop threads, and write_refused is W1C (R63,
R172, R560). DESIGN CHOICE (log 143): a 0 written to the bit of a thread that is TRAPPED with its bit 0 already (R203, R204)
changes nothing; the bit must be set and then cleared (R202). -/
def writeRun (s : State) (x : Site) (v : Word) : State :=
  let s := if bit v.toNat 31 then s.onCore x fun c => c.setRegBits 0x044 31 31 0 else s
  (List.range 4).foldl (fun s t =>
    if bit v.toNat t then s.onCore x fun c => c.startThread t
    else if (s.core x).runBit t then s.stopThread x t else s) s

def execCoreRun (w : Requester) (x : Site) (v : Word) (s : State) : Out :=
  .next (s.corePut w x fun s => writeRun s x v)

end Sys2Proof.Machine
end

