-- ==== Sys2Proof/Machine/Vector.lean ====
section
/-! DEFINITION. Meanings of the vector arithmetic, conversions, moves, reductions and block operations (R186 to R189);
loads and stores of vector registers stand with the other loads and stores, SpMV in a file of its own. -/

namespace Sys2Proof.Machine

/-- A float format of the fmt field (R186). -/
def laneFloat (fmt : Fin 6) : FloatFmt := ((LaneFmt.ofCode fmt.val).float).getD Sys2Proof.fp32

/-- vd := a result, FCSR takes its flags, and the thread goes on. -/
def vecResult (i : Iss) (th : Thread) (d : VReg) (r : VRes) (s : State) : State :=
  (s.onCore i.site fun c => c.setVreg d.val r.v).setThread i.site i.thread.val (th.addFlags r.flags).advance

/-- Lane-wise operation of two registers under FCSR.rm. -/
def vecRun2 (i : Iss) (fmt : Fin 6) (d a b : VReg) (op : FloatFmt → RMode → Nat → Nat → Rounded) (s : State) : Out :=
  .next <| issue i [] s fun th =>
    let f := laneFloat fmt
    let c := s.core i.site
    vecResult i th d (lanewise2 f (op f (f.arithMode th.rm)) (c.vreg a.val) (c.vreg b.val)) s

/-- Lane-wise fused operation of va, vb and vd. -/
def vecRun3 (i : Iss) (fmt : Fin 6) (d a b : VReg) (negProduct : Bool) (s : State) : Out :=
  .next <| issue i [] s fun th =>
    let f := laneFloat fmt
    let c := s.core i.site
    vecResult i th d
      (lanewise3 f (f.fma (f.arithMode th.rm) negProduct) (c.vreg a.val) (c.vreg b.val) (c.vreg d.val)) s

/-- Lane-wise operation of one register. -/
def vecRun1 (i : Iss) (fmt : Fin 6) (d a : VReg) (op : FloatFmt → Nat → Rounded) (s : State) : Out :=
  .next <| issue i [] s fun th =>
    let f := laneFloat fmt
    vecResult i th d (lanewise1 f (op f) ((s.core i.site).vreg a.val)) s

def execVadd (i : Iss) (fmt : Fin 6) (d a b : VReg) (s : State) : Out :=
  vecRun2 i fmt d a b (fun f md x y => f.addSub md false x y) s
def execVsub (i : Iss) (fmt : Fin 6) (d a b : VReg) (s : State) : Out :=
  vecRun2 i fmt d a b (fun f md x y => f.addSub md true x y) s
def execVmul (i : Iss) (fmt : Fin 6) (d a b : VReg) (s : State) : Out :=
  vecRun2 i fmt d a b (fun f md x y => f.mulR md x y) s
def execVfma (i : Iss) (fmt : Fin 6) (d a b : VReg) (s : State) : Out := vecRun3 i fmt d a b false s
def execVfnma (i : Iss) (fmt : Fin 6) (d a b : VReg) (s : State) : Out := vecRun3 i fmt d a b true s
def execVmin (i : Iss) (fmt : Fin 6) (d a b : VReg) (s : State) : Out :=
  vecRun2 i fmt d a b (fun f _ x y => f.minMax false x y) s
def execVmax (i : Iss) (fmt : Fin 6) (d a b : VReg) (s : State) : Out :=
  vecRun2 i fmt d a b (fun f _ x y => f.minMax true x y) s
def execVabs (i : Iss) (fmt : Fin 6) (d a : VReg) (s : State) : Out := vecRun1 i fmt d a (fun f x => f.absR x) s
def execVneg (i : Iss) (fmt : Fin 6) (d a : VReg) (s : State) : Out := vecRun1 i fmt d a (fun f x => f.negR x) s

/-- VCVT; fields that R187 does not assign together raise ILLEGAL at decode. -/
def execVcvt (i : Iss) (d a : VReg) (src dst : Fin 8) (rm : Fin 6) (part : Fin 8) (s : State) : Out :=
  if Isa.vcvtOk src.val dst.val rm.val part.val then
    .next <| issue i [] s fun th =>
      let c := s.core i.site
      let r := vcvt (LaneFmt.ofCode src.val) (LaneFmt.ofCode dst.val) rm.val th.rm part.val (c.vreg a.val) (c.vreg d.val)
        (c.stream i.thread.val)
      vecResult i th d r.1 (s.onCore i.site fun c => c.setStream i.thread.val r.2)
  else .next (illegal s i.site i.thread (Isa.vcvtWord i d a src dst rm part))

/-! ## Moves and reductions (R188) -/

def execVmov (i : Iss) (d a : VReg) (s : State) : Out :=
  .next <| issue i [] s fun th => vecResult i th d ⟨(s.core i.site).vreg a.val, 0⟩ s

def execVsplat (i : Iss) (fmt : Fin 6) (d : VReg) (a : GReg) (s : State) : Out :=
  .next <| issue i [a.val] s fun th =>
    let w := (LaneFmt.ofCode fmt.val).width
    vecResult i th d ⟨ofLanes w (List.replicate (512 / w) ((th.get a.val).toNat % 2 ^ w)), 0⟩ s

def execVext (i : Iss) (fmt : Fin 6) (d : GReg) (a : VReg) (b : GReg) (s : State) : Out :=
  .next <| issue i [d.val, b.val] s fun th =>
    let f := LaneFmt.ofCode fmt.val
    let v := lane f.width ((s.core i.site).vreg a.val) ((th.get b.val).toNat % f.lanes)
    s.setThread i.site i.thread.val (th.put d.val (BitVec.ofNat 64 v)).advance

def execVins (i : Iss) (fmt : Fin 6) (d : VReg) (a b : GReg) (s : State) : Out :=
  .next <| issue i [a.val, b.val] s fun th =>
    let f := LaneFmt.ofCode fmt.val
    let v := setLane f.width ((s.core i.site).vreg d.val) ((th.get b.val).toNat % f.lanes) (th.get a.val).toNat
    vecResult i th d ⟨v, 0⟩ s

/-- A reduction of va into gd by a pairwise tree, flags into FCSR. -/
def reduceRun (i : Iss) (fmt : Fin 6) (d : GReg) (a : VReg) (op : FloatFmt → RMode → Nat → Nat → Rounded)
    (s : State) : Out :=
  .next <| issue i [d.val] s fun th =>
    let f := laneFloat fmt
    let r := reduceLanes f (op f (f.arithMode th.rm)) ((s.core i.site).vreg a.val)
    s.setThread i.site i.thread.val ((th.put d.val (BitVec.ofNat 64 r.bits)).addFlags r.flags).advance

def execVrsum (i : Iss) (fmt : Fin 6) (d : GReg) (a : VReg) (s : State) : Out :=
  reduceRun i fmt d a (fun f md x y => f.addSub md false x y) s
def execVrmax (i : Iss) (fmt : Fin 6) (d : GReg) (a : VReg) (s : State) : Out :=
  reduceRun i fmt d a (fun f _ x y => f.minMax true x y) s

/-! ## Block operations (R189) -/

/-- Bytes of a core's SRAM as a function, for the readers of packed tensors. -/
def Core.rd (c : Core) (a : Nat) : Nat := if a < 0x20000 then (c.byte a).toNat else 0

/-- Reads several ranges one after another: the first uncorrectable word, and the state after the reports. -/
def State.readRanges (s : State) (x : Site) : List (Nat × Nat) → Option Nat × State
  | [] => (none, s)
  | r :: rs =>
    let a := s.readSram x r.1 r.2
    let b := a.2.2.readRanges x rs
    (a.2.1 <|> b.1, b.2)

/-- Whether byte ranges lie within SRAM; an empty range at an offset beyond SRAM does not (DESIGN CHOICE for SpMV's empty entry
arrays, log 126). -/
def rangesInSram (rs : List (Nat × Nat)) : Bool := rs.all fun r => decide (r.1 + r.2 ≤ 0x20000)

/-- The FP32 lane of a decoded datum times tensor_scale (R76): one IEEE 754 multiplication (R68), rounded to nearest where
FP32 does not hold the product. A NaN lane's sign and payload are free values of the operands' bits (R71 says only NaN;
DESIGN CHOICE, log 16); a datum that R76 makes zero is +0. -/
def unpackLane (ops : List Nat) (v : Option FVal) (ts : FVal) : Rounded :=
  let nan := Sys2Proof.fp32.nanOf (Config.nanSign 32 ops) (Config.nanPayload 32 ops)
  match v with
  | none => ⟨0, 0⟩
  | some (.num sg m e) =>
    let d := (⟨m, e⟩ : Dy).mul ts.dy
    Sys2Proof.fp32.roundDy .nearest (sg != ts.sign) (if sg then d.neg else d)
  | some (.inf sg) =>
    if ts.isZero then ⟨nan, FFlags.invalid⟩
    else ⟨Sys2Proof.fp32.signBit (sg != ts.sign) + Sys2Proof.fp32.infCode, 0⟩
  | some (.nan _ _) => ⟨nan, 0⟩

/-- VUNPK's lane of position p. -/
def unpackAt (h : Header) (rd : Nat → Nat) (a n p : Nat) : Rounded :=
  let bl := h.base.blockLen
  let v := h.valueAt rd a n p
  let r := unpackLane [(h.code rd a n (p / bl) (p % bl)).getD 0, h.scaleByte rd a n (p / bl), h.tensorScale] v
    (Sys2Proof.fp32.decode h.tensorScale)
  ⟨r.bits, r.flags ||| FFlags.when ((v.map h.base.signals).getD false) FFlags.invalid⟩

/-- VUNPK's lanes with the malformed events of the data it decodes (R102), once header and streams can be read. An event
other than an MX scale of 0xFF flags FORMAT_INVALID (R77, R80, R83), which in the vector unit is FCSR.fmt_invalid. -/
def unpackLanes (h : Header) (rd : Nat → Nat) (a n p : Nat) : VRes × Nat :=
  let r := VRes.ofRounded 32 ((List.range 16).map fun j => unpackAt h rd a n (p + j))
  let bl := h.base.blockLen
  let hi := min (p + 16) h.k
  let bs := if hi ≤ p then [] else (List.range ((hi - 1) / bl + 1 - p / bl)).map fun j => p / bl + j
  let bad := (bs.map fun b => h.blockMalformed rd a n b + h.triMalformed rd a n b p (p + 16)).foldl (· + ·) 0
  let nans := if h.base.isMX then (bs.filter fun b => (h.scale rd a n b).isNone).length else 0
  (⟨r.v, r.flags ||| FFlags.when (decide (nans < bad)) FFlags.fmtInvalid⟩, bad)

/-- The exception VUNPK's issue checks find. DESIGN CHOICE (log 145): a position p that is no multiple of 16 is looked at before
ga's alignment, and EVAL holds p, which is no address. -/
def unpackCheck (c : Core) (a p : Nat) : Option (Nat × Status × Nat) :=
  if p % 16 ≠ 0 then some (0x02, .addrRange, p)
  else if a % 32 ≠ 0 then some (0x02, .addrRange, a)
  else if 0x20000 < a + 32 then some (0x03, .addrRange, a)
  else if !c.rangeActive a 32 then some (0x05, .bankParked, a)
  else none

def execVunpk (i : Iss) (d : VReg) (a b : GReg) (s : State) : Out :=
  .next <| issue i [a.val, b.val] s fun th =>
    let at_ := (th.get a.val).toNat
    let n := bits (th.get b.val).toNat 63 32
    let p := bits (th.get b.val).toNat 31 0
    match unpackCheck (s.core i.site) at_ p with
    | some (cause, st, addr) => s.precise i.site i.thread.val cause st addr
    | none =>
      let hd := s.readSram i.site at_ 32
      hd.2.2.unlessSealed i.site fun s =>
        let c := s.core i.site
        let h := Header.parse c.rd at_
        match hd.2.1 with
        | some w => (vecResult i th d ⟨0, 0⟩ s).eccExc i.site i.thread.val w
        | none =>
          let rs := h.unpackRanges at_ n p
          if !(h.valid && decide (n < h.runs)) || !rangesInSram rs || !(rs.all fun r => c.rangeActive r.1 r.2) then
            vecResult i th.fmtInvalid d ⟨0, 0⟩ s
          else
            let st := s.readRanges i.site rs
            st.2.unlessSealed i.site fun s =>
              match st.1 with
              | some w => (vecResult i th d ⟨0, 0⟩ s).eccExc i.site i.thread.val w
              | none =>
                let r := unpackLanes h (s.core i.site).rd at_ n p
                vecResult i th d r.1 (s.assayMalformed i.site r.2)

/-- VPACK's block format (R189). -/
def vpackBase (fmt : Fin 4) : Base :=
  match fmt with
  | 0 => .q4b | 1 => .q3b | 2 => .q2b | 3 => .tri5

/-- The exception VPACK's checks find for its two destinations, ADDR before PARKED (R198). -/
def packCheck (c : Core) (rs : List (Nat × Nat)) : Option (Nat × Status × Nat) :=
  match rs.find? fun r => !inSram r.1 r.2 with
  | some r => some (0x03, .addrRange, r.1)
  | none =>
    match rs.find? fun r => !c.rangeActive r.1 r.2 with
    | some r => some (0x05, .bankParked, r.1)
    | none => none

def vpackRun (i : Iss) (stochastic : Bool) (fmt : Fin 4) (d : VReg) (a b : GReg) (s : State) : State :=
  issue i [a.val, b.val] s fun th =>
    let base := vpackBase fmt
    let nb := ceilDiv (base.elemBits * base.blockLen) 8
    let nbytes := if base = .tri5 then 12 else nb
    let ea := (th.get a.val).toNat
    let sa := (th.get b.val).toNat
    let c := s.core i.site
    match packCheck c [(ea, nbytes), (sa, 1)] with
    | some (cause, st, addr) => s.precise i.site i.thread.val cause st addr
    | none =>
      let lanes := (List.range (Isa.vpackRegs fmt.val)).flatMap fun j => lanesOf 32 (c.vreg (d.val + j))
      let one := Sys2Proof.fp32.decode 0x3F800000
      let xs := (lanes.take base.blockLen).map fun w => PackIn.ofFVal (Sys2Proof.fp32.decode w) one
      let r := packBlock base false stochastic 0 4 1 xs (c.stream i.thread.val)
      let s := s.onCore i.site fun c => c.setStream i.thread.val r.rng
      let s := s.writeSram i.site ea (leBytes nbytes (packBits base r.codes).1)
      s.unlessSealed i.site fun s =>
      let s := s.writeSram i.site sa [r.scale]
      s.unlessSealed i.site fun s =>
      let s := (s.assayTotal i.site 0x188 r.saturations).assayMalformed i.site r.malformed
      s.onThread i.site i.thread.val Thread.advance

/-- VPACK; a register range beyond v31 raises ILLEGAL. -/
def execVpack (i : Iss) (stochastic : Bool) (fmt : Fin 4) (d : VReg) (a b : GReg) (s : State) : Out :=
  if d.val + Isa.vpackRegs fmt.val ≤ 32 then .next (vpackRun i stochastic fmt d a b s)
  else .next (illegal s i.site i.thread (Isa.vpackWord i stochastic fmt d a b))

end Sys2Proof.Machine
end

