-- ==== Sys2Proof/Machine/Array.lean ====
section
/-! DEFINITION. The matrix array as a machine: its command queue (R130 to R132, R190, R191), loads, tiles, passes and
closes (R128 to R137), the assay records they produce (R98 to R104, R255), the cross-check (R114 to R117, R203), tailings
(R143) and the generator seeds (R113). A pass is computed whole at its start, a close's scan and write-out in one event. -/

namespace Sys2Proof.Machine

/-! ## Ends of commands -/

/-- The numbers of the commands queued or running. -/
def ArrayState.numbers (a : ArrayState) : List Nat :=
  a.queue.map (·.no) ++ (a.load.map fun l => [l.1.no]).getD [] ++ a.opening.map (·.1.no) ++ a.passes.map (·.cmd.no) ++
    a.closes.map (·.cmd.no)

def Core.onArray (c : Core) (f : ArrayState → ArrayState) : Core := { c with array := f c.array }

/-- AFENCE completes: gd takes the first status other than OK since the thread's previous AFENCE (R191). -/
def afenceDone (s : State) (x : Site) (t d : Nat) : State :=
  let th := s.thread x t
  (s.setThread x t { (th.put d (BitVec.ofNat 64 th.firstArray.code)).advance with firstArray := .ok, wait := .none }).onCore
    x fun c => c.onArray fun a => { a with lastStatus := .ok }

/-- Threads whose AFENCE waits only for commands that have ended go on. -/
def afenceWake (s : State) (x : Site) : State :=
  (List.range 4).foldl (fun s t =>
    match (s.thread x t).wait with
    | .afence d upTo => if (s.core x).array.numbers.any fun n => decide (n < upTo) then s else afenceDone s x t d
    | _ => s) s

/-- Whether a command has started and not ended (R145). -/
def ArrayState.runs (a : ArrayState) : Bool := a.load.isSome || !a.opening.isEmpty || !a.passes.isEmpty || !a.closes.isEmpty

/-- BUSY_CYCLES takes the cycles up to `now` in which a command ran (R145). -/
def Core.busyTo (now : Nat) (c : Core) : Core :=
  (if c.array.runs then c.count 0x124 (now - c.array.busyFrom) else c).onArray fun a => { a with busyFrom := now }

/-- A command that has left the queue and its unit ends with a status (R130, R191). DEDUCED (log 137): the first status other
than OK is that of the command that ends first, not of the one issued first. -/
def State.arrayEnd (s : State) (x : Site) (cmd : ACmd) (st : Status) : State :=
  let s := s.onCore x fun c => c.onArray fun a => { a with lastStatus := st }
  let s := match cmd.issuer with
    | some t => s.onThread x t fun th => if th.firstArray = .ok then { th with firstArray := st } else th
    | none => s
  let s := afenceWake s x
  if (s.field x.field).drain.isSome then s.onCore x Core.freeTiles else s

/-- The command at the head leaves the queue. -/
def State.arrayPop (s : State) (x : Site) : State := s.onCore x fun c => c.onArray fun a => { a with queue := a.queue.tail }
/-- It leaves the queue and starts: what it is then is put into the array's state. -/
def State.arrayGo (s : State) (x : Site) (f : ArrayState → ArrayState) : State :=
  (s.arrayPop x).onCore x fun c => (c.busyTo (s.cycleOf x)).onArray f
/-- It leaves what runs in the array's state, and ends with a status. -/
def State.arrayDone (s : State) (x : Site) (cmd : ACmd) (st : Status) (f : ArrayState → ArrayState) : State :=
  (s.onCore x fun c => (c.busyTo (s.cycleOf x)).onArray f).arrayEnd x cmd st
/-- It ends at its start, having changed nothing. -/
def State.arrayRefuse (s : State) (x : Site) (cmd : ACmd) (st : Status) : State := (s.arrayPop x).arrayEnd x cmd st

/-! ## Issue (R131, R132, R190, R191) -/

/-- Puts a command into the queue. -/
def Core.arrayPush (c : Core) (kind : ACmdKind) (ga gb : DWord) (issuer : Option Nat) : Core :=
  c.onArray fun a => { a with queue := a.queue ++ [⟨a.nextNo, kind, ga, gb, issuer⟩], nextNo := a.nextNo + 1 }

/-- Whether a thread's array instruction raises ILLEGAL as it executes (R44, R132). -/
def arrayIllegal (s : State) (x : Site) : Bool := s.width x == 0 || (s.core x).regBit 0x100 8

/-- An array command from a thread: a full queue stalls it at issue. -/
def arrayIssue (i : Iss) (func : Nat) (kind : ACmdKind) (a b : GReg) (s : State) : Out :=
  .next <| issue i [a.val, b.val] s fun th =>
    if arrayIllegal s i.site then s.precise i.site i.thread.val 0x01 .ok (Isa.arrayWord i func 0 a b)
    else if 8 ≤ (s.core i.site).array.queue.length then s
    else
      (s.setThread i.site i.thread.val th.advance).onCore i.site fun c =>
        c.arrayPush kind (th.get a.val) (th.get b.val) (some i.thread.val)

def execAload (i : Iss) (a b : GReg) (s : State) : Out := arrayIssue i 0 .aload a b s
def execAopen (i : Iss) (a : GReg) (s : State) : Out := arrayIssue i 1 .aopen a 0 s
def execApass (i : Iss) (a b : GReg) (s : State) : Out := arrayIssue i 2 .apass a b s
def execAclose (i : Iss) (a b : GReg) (s : State) : Out := arrayIssue i 3 .aclose a b s

/-- AFENCE completes at once where no command is queued or running, and otherwise stalls, RUNNING. -/
def execAfence (i : Iss) (d : GReg) (s : State) : Out :=
  .next <| issue i [d.val] s fun th =>
    if arrayIllegal s i.site then s.precise i.site i.thread.val 0x01 .ok (Isa.arrayWord i 4 d 0 0)
    else
      let a := (s.core i.site).array
      if a.numbers = [] then afenceDone s i.site i.thread.val d.val
      else s.setThread i.site i.thread.val { th with wait := .afence d.val a.nextNo }

/-! ## Events a tile counts (R98 to R102, R117) -/

def State.onTile (s : State) (x : Site) (i : Nat) (f : Tile → Tile) : State := s.onCore x fun c => c.setTile i (f (c.tile i))

/-- An entry that a tile raises at most once. -/
def State.raiseTile (s : State) (x : Site) (i code : Nat) (sev : Severity) : State :=
  if ((s.core x).tile i).raised.contains code then s
  else (s.onTile x i fun t => { t with raised := t.raised ++ [code] }).raiseCore x code sev 0

/-- Adds to a total on a tile's behalf. -/
def State.tileTotal (s : State) (x : Site) (i off n : Nat) : State :=
  let beyond := (s.core x).totalOver off n
  let s := s.onCore x fun c => c.assayTotal off n
  if beyond then s.raiseTile x i 0x0403 .corrected else s

/-- Malformed events that a tile counts (R102). -/
def State.tileMalformed (s : State) (x : Site) (i n : Nat) (total : Bool) : State :=
  if n = 0 then s
  else
    let s := s.onTile x i fun t => { t with counts := { t.counts with malformed := t.counts.malformed + n } }
    let s := s.onCore x fun c => c.setFlag 0x154 0
    let s := if total then s.tileTotal x i 0x194 n else s
    s.raiseTile x i 0x0404 .corrected

/-- Saturations that a tile counts (R95, R99). -/
def State.tileSaturated (s : State) (x : Site) (i n : Nat) : State :=
  (s.onTile x i fun t => { t with counts := { t.counts with saturations := t.counts.saturations + n } }).tileTotal x i
    0x188 n

/-! ## Loads (R128 to R130) -/

/-- The fields of a load (R190). -/
structure LoadArgs where
  bank : Nat
  src : Nat
  stride : Nat
  rows : Nat
  format : Nat
  mode : Nat
  scale : Nat
deriving DecidableEq, Repr

def LoadArgs.of (c : ACmd) : LoadArgs :=
  let a := c.ga.toNat
  let b := c.gb.toNat
  ⟨bits b 16 16, bits a 16 0, bits a 29 17 * 16, bits b 4 0 + 1, bits b 15 8, bits b 7 5, bits a 63 32⟩

/-- The mode and base format of a load that R130 allows. -/
def LoadArgs.formats (l : LoadArgs) : Option (AMode × Base) :=
  match AMode.ofCode l.mode, Base.ofCode l.format with
  | some md, some b => if stationaryOk md b && (fp32.decode l.scale).isFinite then some (md, b) else none
  | _, _ => none

/-- Whether a width check turns a load or pass away (R139). -/
def widthDenied (s : State) (x : Site) : Bool :=
  let e := (s.core x).regBits 0x100 6 0
  e != 0 && e != s.width x

/-- The checks of a load before it starts; the width check turns away every load (R139). -/
def LoadArgs.check (l : LoadArgs) (s : State) (x : Site) : Status :=
  if widthDenied s x then .denied
  else
    match l.formats with
    | none => .formatInvalid
    | some (md, b) =>
      if l.src % 16 ≠ 0 ∨ 0x20000 < l.src + (l.rows - 1) * l.stride + rowBytes md b (s.width x) then .addrRange else .ok

/-- Reads the rows of a load in increasing order, up to the first that meets an uncorrectable word. -/
def readRows (x : Site) (a stride n : Nat) : Nat → State → Status × List (List Nat) × State
  | 0, s => (.ok, [], s)
  | h + 1, s =>
    let r := s.readSram x a n
    if r.2.1.isSome then (.eccUncorrected, [], r.2.2)
    else
      let t := readRows x (a + stride) stride n h r.2.2
      (t.1, r.1 :: t.2.1, t.2.2)

/-- Fills a bank with the rows a load reads: the status the load ends with, and the state with the bank loading. One that
meets a bank that is not active reads nothing (R130). -/
def State.fillBank (s : State) (x : Site) (l : LoadArgs) (md : AMode) (b : Base) : Status × State :=
  let w := s.width x
  let n := rowBytes md b w
  let parked := (List.range l.rows).any fun k => !(s.core x).rangeActive (l.src + k * l.stride) n
  let r := if parked then (.bankParked, [], s) else readRows x l.src l.stride n l.rows s
  let s := r.2.2
  let c := s.core x
  let q := loadRows md b w (c.regBit 0x140 1) r.2.1 (c.stream 4)
  let rows := q.1 ++ List.replicate (32 - q.1.length) (zeroRow md b w)
  let no := c.array.loadNo + 1
  let bk : ABank := ⟨.loading, md, b, l.format, l.src, l.rows - 1, l.scale, rows, q.2.1, no⟩
  (r.1, s.onCore x fun c => ((c.setStream 4 q.2.2).setAbank l.bank bk).onArray fun a => { a with loadNo := no })

/-- A bank's load is complete: it is ready, or empty where the load failed (R129). The losses, zeroings and malformed events of
the rows it has aligned count either way (R98, R128). -/
def State.bankLoaded (s : State) (x : Site) (bank : Nat) (st : Status) : State :=
  let k := (s.core x).abank bank
  let s := s.onCore x fun c => c.setAbank bank (if st = .ok then { k with state := .ready } else ABank.reset)
  ((s.assayTotal x 0x18C k.counts.loss).assayTotal x 0x190 k.counts.zeroed).assayMalformed x k.counts.malformed

/-- The state a bank shows in a cycle (R129): in use from a pass's start until its budget has run. -/
def Core.bankAt (c : Core) (now b : Nat) : BankState :=
  if c.array.passes.any fun p => p.bank == b && decide (now < p.bankFree) then .inUse else (c.abank b).state

/-! ### The array port (R124, R127) -/

/-- How many of the words, by bank, issue in one cycle in their order: 4 in all, each to a bank of its own; `used` are the banks
already taken. -/
def portTakes : List Nat → List Nat → Nat
  | _, [] => 0
  | used, b :: bs => if decide (4 ≤ used.length) || used.contains b then 0 else portTakes (b :: used) bs + 1
/-- The cycles in which words issue in their order from cycle `now` on, beside those of `busy`, which go first (R127). -/
def portPlan (busy : List (Nat × Nat)) : Nat → Nat → List Nat → List (Nat × Nat)
  | 0, _, _ => []
  | _, _, [] => []
  | n + 1, now, b :: bs =>
    let k := portTakes ((busy.filter fun q => q.1 == now).map (·.2)) (b :: bs)
    ((b :: bs).take k).map (fun b => (now, b)) ++ portPlan busy n (now + 1) ((b :: bs).drop k)
/-- The banks of the words that the rows of a load touch, in the order in which they issue (R128). -/
def LoadArgs.wordBanks (l : LoadArgs) (c : Core) (n : Nat) : List Nat :=
  ((List.range l.rows).flatMap fun k => wordsOf (l.src + k * l.stride) n).map c.bankOf
/-- The cycles in which a load issues its words, from `now` on. -/
def LoadArgs.plan (l : LoadArgs) (c : Core) (busy : List (Nat × Nat)) (now n : Nat) : List (Nat × Nat) :=
  let bs := l.wordBanks c n
  portPlan busy (bs.length + busy.length + 1) now bs
/-- The words of the running passes on the port. -/
def ArrayState.passPort (a : ArrayState) : List (Nat × Nat) := a.passes.flatMap fun p => p.port
/-- A pass that starts goes first: what the running load has still to issue is planned again from `now` on. -/
def ArrayState.replan (a : ArrayState) (now : Nat) : ArrayState :=
  let left := a.loadPort.filter fun q => decide (now ≤ q.1)
  { a with loadPort := portPlan a.passPort (left.length + a.passPort.length + 1) now (left.map (·.2)) }

/-- The load at the head of the queue starts in cycle `now`, if its conditions hold (R131). -/
def loadStart (s : State) (x : Site) (now : Nat) (cmd : ACmd) : State :=
  let l := LoadArgs.of cmd
  let k := (s.core x).bankAt now l.bank
  if k = .inUse || k = .loading || (s.core x).array.load.isSome then s
  else
    let st := if widthDenied s x then .denied
      else if bits cmd.ga.toNat 31 30 ≠ 0 ∨ bits cmd.gb.toNat 63 17 ≠ 0 then .formatInvalid else l.check s x
    match l.formats with
    | some (md, b) =>
      if st ≠ .ok then s.arrayRefuse x cmd st
      else
        let r := s.fillBank x l md b
        r.2.unlessSealed x fun s =>
          let plan := l.plan (s.core x) (s.core x).array.passPort now (rowBytes md b (s.width x))
          s.arrayGo x fun a => { a with load := some (cmd, l.bank, r.1), loadPort := plan }
    | none => s.arrayRefuse x cmd st

/-- The head of the queue, where the array's clocks run. -/
def arrayHead (s : State) (x : Site) : Option ACmd :=
  if s.coreRuns x then (s.core x).array.queue.head? else none

/-- A start event of one kind of command. -/
def startOf (kind : ACmdKind) (x : Site) (s : State) (k : ACmd → State) : Out :=
  match arrayHead s x with
  | some cmd => if cmd.kind = kind then .next (k cmd) else .next s
  | none => .next s

/-- Engine time reaches the cycle in which a bank is no longer in use, for a start that waits for it (R131). -/
def State.reachBank (s : State) (x : Site) (bank : Nat) : State :=
  (((s.core x).array.passes.filter fun p => p.bank == bank).foldl (fun s p => s.reach x.field (20 * p.bankFree)) s)

def execAloadStart (x : Site) (s : State) : Out :=
  startOf .aload x s fun cmd =>
    let s := s.reachBank x (LoadArgs.of cmd).bank
    loadStart s x (s.cycleOf x) cmd

def execLoadEnd (x : Site) (s : State) : Out :=
  match (s.core x).array.load with
  | some (cmd, bank, st) =>
    if s.coreRuns x then
      .next ((s.bankLoaded x bank st).arrayDone x cmd st fun a => { a with load := none, loadPort := [] })
    else .next s
  | none => .next s

/-! ## Opens (R114, R134) -/

/-- The row the check lane recomputes in tile t, if the tile is sampled (R114). -/
def sampledRow (c : Core) (t : Nat) : Option Nat :=
  let kx := c.regBits 0x140 12 8
  let k := max 4 (min kx 16)
  if kx ≠ 0 ∧ (t + c.regBits 0x14C 15 0) % 2 ^ k = 0 then some (t >>> k % 32) else none

/-- A tile begins: its number, sample and clear. -/
def Core.openTile (c : Core) (slot : Nat) (md : AMode) (a0 m : Nat) (clear : Bool) : Core :=
  let t := (c.reg 0x150).toNat
  let c := if md.aligns then c.setReg 0x150 (BitVec.ofNat 32 (t + 1)) else c
  let c := c.setTile slot { Tile.reset with
    open_ := true, mode := md, a0 := a0, m := m, number := t, sampled := if md.aligns then sampledRow c t else none }
  if clear then
    (List.range 32).foldl (fun c r => (List.range m).foldl (fun c n => c.setAcc (r * 256 + a0 + n) 0) c) c
  else c

def openStart (s : State) (x : Site) (cmd : ACmd) : State :=
  let a := cmd.ga.toNat
  let c := s.core x
  let slot := bits a 0 0
  let a0 := bits a 11 4
  let m := bits a 19 12 + 1
  if c.array.closes.any fun k => k.slot == slot then s
  else
    match (if bits a 63 21 = 0 then AMode.ofCode (bits a 3 1) else none) with
    | none => s.arrayRefuse x cmd .formatInvalid
    | some md =>
      let o := c.tile (1 - slot)
      if (c.tile slot).open_ then s.arrayRefuse x cmd .busy
      else if 256 < a0 + m || (o.open_ && !o.closing && decide (a0 < o.a0 + o.m) && decide (o.a0 < a0 + m)) then
        s.arrayRefuse x cmd .addrRange
      else
        (s.onCore x fun c => c.openTile slot md a0 m (bit a 20)).arrayGo x fun r =>
          { r with opening := r.opening ++ [(cmd, slot)] }

def execAopenStart (x : Site) (s : State) : Out := startOf .aopen x s fun cmd => openStart s x cmd

def execOpenEnd (x : Site) (s : State) : Out :=
  match (s.core x).array.opening with
  | (cmd, _) :: rest =>
    if s.coreRuns x then
      .next (s.arrayDone x cmd .ok fun a => { a with opening := rest })
    else .next s
  | [] => .next s

/-! ## Passes (R122 to R127, R130, R131, R137, R473) -/

/-- The fields of a pass (R190). -/
structure PassCmd where
  slot : Nat
  bank : Nat
  header : Nat
  n0 : Nat
  c : Nat
  a : Nat
  k0 : Nat
deriving DecidableEq, Repr

def PassCmd.of (c : ACmd) : PassCmd :=
  let a := c.ga.toNat
  let b := c.gb.toNat
  ⟨bits b 48 48, bits b 49 49, bits a 16 0, bits a 63 32, bits b 47 40 + 1, bits b 39 32, bits b 31 0⟩

/-- The words the columns of a pass touch, as ranges by column. -/
def PassCmd.ranges (p : PassCmd) (h : Header) (win n : Nat) : List (Nat × Nat) :=
  h.runRanges p.header (p.n0 + n) p.k0 (p.k0 + win)

/-- Whether the whole streams of a tensor lie within SRAM. -/
def streamsInSram (h : Header) (a : Nat) : Bool :=
  decide (a + h.elemOff + h.elemBytes ≤ 0x20000) && decide (a + h.scaleOff + h.scaleBytes ≤ 0x20000) &&
    decide (a + h.excOff + h.excBytes ≤ 0x20000) && decide (a + h.indexOff + h.indexStreamBytes ≤ 0x20000)

/-- The checks of a pass that need no word of SRAM. -/
def PassCmd.early (p : PassCmd) (cmd : ACmd) (c : Core) : Status :=
  let t := c.tile p.slot
  if bits cmd.ga.toNat 31 17 ≠ 0 ∨ bits cmd.gb.toNat 63 50 ≠ 0 then .formatInvalid
  else if p.header % 32 ≠ 0 || !t.open_ || t.closing || decide (p.a < t.a0) || decide (t.a0 + t.m < p.a + p.c) ||
      decide (0x20000 < p.header + 32) then .addrRange
  else if !c.rangeActive p.header 32 then .bankParked
  else .ok

/-- The checks that follow the header's (R130, R139, R152, R281). -/
def PassCmd.late (p : PassCmd) (h : Header) (s : State) (x : Site) : Status :=
  let c := s.core x
  let t := c.tile p.slot
  let k := c.abank p.bank
  match (if h.valid then h.mode else none) with
  | none => .formatInvalid
  | some md =>
    let win := md.window (s.width x)
    if h.runs < p.n0 + p.c || h.k ≤ p.k0 || (md = .sparse && p.k0 % 8 ≠ 0) || !streamsInSram h p.header then .addrRange
    else if md ≠ t.mode || k.state = .empty || md ≠ k.mode then .formatInvalid
    else if !((List.range p.c).all fun n => (p.ranges h win n).all fun r => c.rangeActive r.1 r.2) then .bankParked
    else .ok

/-- Fetch cycles of a column without bubbles: R125, R153. -/
def fetchBase (md : AMode) (h : Header) : Nat :=
  match md with
  | .fp8 | .bf16 => 2
  | .sparse => h.slots
  | _ => 1

/-- The bank with the most words left among the 16, if one has any. -/
def busiest (per : List Nat) : Option Nat :=
  let m := per.foldl max 0
  if m = 0 then none else per.findIdx? (· == m)
/-- Up to n different banks that issue a word in one cycle, and the words left. -/
def portPick : Nat → List Nat → List Nat × List Nat
  | 0, per => ([], per)
  | n + 1, per =>
    match busiest per with
    | none => ([], per)
    | some b =>
      let r := portPick n (per.set b 0)
      (b :: r.1, r.2.set b (per.getD b 0 - 1))
/-- The banks that issue in each cycle, until no word is left: 4 words a cycle from different banks. -/
def portCycles : Nat → List Nat → List (List Nat)
  | 0, _ => []
  | n + 1, per =>
    match portPick 4 per with
    | ([], _) => []
    | (bs, rest) => bs :: portCycles n rest
/-- The cycles that issue a set of words, at least `base`. -/
def Core.fetchCycles (c : Core) (base : Nat) (ws : List Nat) : List (List Nat) :=
  let r := portCycles ws.length ((List.range 16).map fun b => (ws.filter fun w => c.bankOf w == b).length)
  r ++ List.replicate (base - r.length) []

/-- The words that byte ranges touch. -/
def rangeWords (rs : List (Nat × Nat)) : List Nat := (rs.flatMap fun r => wordsOf r.1 r.2).eraseDups
/-- The words of a column by the fetch that issues them: FP8 and BF16 columns come in two halves (R125), of 32 and 16 positions
up to the middle, whose second does not fetch again a word that the first has fetched. Outwards each half reaches to the border
of its block (R138). -/
def PassCmd.wordGroups (p : PassCmd) (h : Header) (md : AMode) (win n : Nat) : List (List Nat) :=
  let halves (half : Nat) : List (List Nat) :=
    let bl := h.base.blockLen
    let hi := min (ceilDiv (p.k0 + win) bl) h.blocks * bl
    let mid := min (p.k0 + half) hi
    let first := rangeWords (h.spanRanges p.header (p.n0 + n) (p.k0 / bl * bl) mid)
    [first, (rangeWords (h.spanRanges p.header (p.n0 + n) mid hi)).filter fun w => !first.contains w]
  match md with
  | .fp8 => halves 32
  | .bf16 => halves 16
  | _ => [rangeWords (p.ranges h win n)]

/-- The fetch cycles of a column: the banks its words are issued to, cycle by cycle (R127, R153). -/
def PassCmd.columnCycles (p : PassCmd) (c : Core) (h : Header) (md : AMode) (win n : Nat) : List (List Nat) :=
  (p.wordGroups h md win n).flatMap (c.fetchCycles (if md = .sparse then h.slots else 1))

/-- By how many cycles a column's stages come later: its words' farthest quadrant (R124), BF16's further cycle (R126), and
the slot beats of a sparse column (R154). -/
def PassCmd.lag (p : PassCmd) (h : Header) (md : AMode) (win n : Nat) : Nat :=
  let far (w : Nat) : Nat := match bits w 16 15 with | 0 => 0 | 2 => 2 | _ => 1
  ((p.wordGroups h md win n).flatten.map far).foldl max 0 + (if md = .bf16 then 1 else 0) +
    (if md = .sparse then h.slots - 1 else 0)

/-- Adds a value into an entry of a tile (R94, R95) and, on the sampled row, into the check lane's A_n (R115). -/
def State.accumulate (s : State) (x : Site) (slot r n : Nat) (v : Dy) : State :=
  let c := s.core x
  let u := accAdd (c.accEntry (r * 256 + n)) v
  let s := s.onCore x fun c => c.setAcc (r * 256 + n) u.1
  let s := if ((s.core x).tile slot).sampled = some r then
      s.onTile x slot fun t => { t with sumA := t.sumA.set (fun _ => 0) n (accAdd (t.sumA.get (fun _ => 0) n) v).1 }
    else s
  (if u.2.1 = 0 then s else s.tileSaturated x slot u.2.1).tileMalformed x slot u.2.2 true

/-- The contributions of one column to the 32 rows. -/
def columnAdds (a : PassArgs) (x : Site) (slot n : Nat) (bs : List ColBlock) (s : State) : State :=
  (List.range 32).foldl (fun s r => s.accumulate x slot r n (columnSum a (a.rows.getD r ⟨[], [], [], [], []⟩) bs)) s

/-- The promotion entries of one column, in order. -/
def promotionAdds (a : PassArgs) (x : Site) (slot n : Nat) (bs : List ColBlock) (s : State) : State :=
  (bs.filter fun b => b.promoted).foldl (fun s b =>
    (List.range 32).foldl (fun s r =>
      s.accumulate x slot r n (promotedSum a (a.rows.getD r ⟨[], [], [], [], []⟩) b)) s) s

/-- The check lane's reference C_n over one column, each block added with one rounding (R115). -/
def Tile.reference (t : Tile) (a : PassArgs) (n : Nat) (bs : List ColBlock) : Tile :=
  match t.sampled with
  | some r =>
    let vs := checkAdds a (a.rows.getD r ⟨[], [], [], [], []⟩) bs
    { t with sumC := t.sumC.set (fun _ => 0) n (vs.foldl (fun w v => (accAdd w v).1) (t.sumC.get (fun _ => 0) n)) }
  | none => t

/-- The counts of one block (R99). -/
def Counts.block (k : Counts) (b : ColBlock) : Counts :=
  let worse := decide (k.blocks = 0) || decide (k.worstScore < b.score) ||
    (decide (k.worstScore = b.score) && decide (b.b < k.worstBlock))
  { k with
    blocks := k.blocks + 1
    worstScore := if worse then b.score else k.worstScore
    worstBlock := if worse then b.b else k.worstBlock
    exceptions := k.exceptions + b.t.exceptions
    excOverflow := k.excOverflow + b.t.excOverflow
    sparseRange := k.sparseRange + b.t.sparseRange
    promotions := k.promotions + b.promoted.toNat
    declined := k.declined + b.declined.toNat }

/-- A sum over the blocks of a pass. -/
def sumOver (bs : List ColBlock) (f : ColBlock → Nat) : Nat := bs.foldl (fun acc b => acc + f b) 0

/-- The events of a pass's blocks, in the tile, the totals and the status register. -/
def passEvents (x : Site) (slot : Nat) (bs : List ColBlock) (s : State) : State :=
  let s := s.onTile x slot fun t => { t with counts := bs.foldl Counts.block t.counts }
  let declined := sumOver bs fun b => b.declined.toNat
  let range := sumOver bs fun b => b.t.sparseRange
  let s := s.tileTotal x slot 0x198 (sumOver bs fun b => b.t.exceptions)
  let s := s.tileTotal x slot 0x19C (sumOver bs fun b => b.promoted.toNat)
  let s := (s.tileTotal x slot 0x1A0 declined).tileTotal x slot 0x1B0 range
  let s := s.tileMalformed x slot (sumOver bs fun b => b.t.malformed) true
  let s := if declined = 0 then s else (s.onCore x fun c => c.setFlag 0x154 2).raiseTile x slot 0x0405 .corrected
  if range = 0 then s else (s.onCore x fun c => c.setFlag 0x154 1).raiseTile x slot 0x0601 .corrected

/-- A load that feeds a tile is counted into it once (R99). -/
def feedTile (x : Site) (slot : Nat) (k : ABank) (s : State) : State :=
  if ((s.core x).tile slot).fed.contains k.loadNo then s
  else
    let s := s.onTile x slot fun t => { t with
      fed := t.fed ++ [k.loadNo]
      counts := { t.counts with
        alignLoss := t.counts.alignLoss + k.counts.loss
        alignZeroed := t.counts.alignZeroed + k.counts.zeroed } }
    s.tileMalformed x slot k.counts.malformed false

/-- A finite FP32 pattern that no rule gives. -/
def freeFinite (ctr k : Nat) : Nat :=
  let w := Config.freeValue ctr k % 2 ^ 32
  if (fp32.decode w).isFinite then w else 0

/-- One residue mismatch (R473): the partial is wrong, so what its entry holds is open. -/
def residueHit (x : Site) (slot a : Nat) (s : State) (f : Fin 32 × Fin 256) : State :=
  let v := s.fresh
  let n := a + f.2.val
  let s := v.2.onCore x fun c => (c.count 0x11C 1).setAcc (f.1.val * 256 + n) (freeFinite v.1 0)
  let s := s.onTile x slot fun t => { t with
    poisoned := true
    sumA := if t.sampled = some f.1.val then t.sumA.set (fun _ => 0) n (freeFinite v.1 1) else t.sumA }
  s.raiseTile x slot 0x1102 .contained

/-- A pass that starts in cycle `now`, with the mode and header its checks have found (R122, R123, R137). `residues` names the
rows and columns whose partials the residue check finds wrong. -/
def runPass (s : State) (x : Site) (now : Nat) (cmd : ACmd) (p : PassCmd) (h : Header) (md : AMode)
    (residues : List (Fin 32 × Fin 256)) : State :=
  let c := s.core x
  let k := c.abank p.bank
  let win := md.window (s.width x)
  let bad := (List.range p.c).find? fun n => (p.ranges h win n).any fun r => (c.badWord r.1 r.2).isSome
  let done := bad.getD p.c
  let read := (List.range (min p.c (done + 1))).flatMap fun n => p.ranges h win n
  let port := (List.range done).flatMap fun n => p.columnCycles c h md win n
  let bubbles := port.length - done * fetchBase md h
  let args : PassArgs :=
    { hdr := h, at_ := p.header, n0 := p.n0, c := p.c, k0 := p.k0, mode := md, width := s.width x, actBase := k.base
      rows := k.rows, scale := (fp32.decode h.tensorScale).dy.mul (fp32.decode k.scale).dy
      promote := c.regBit 0x140 3, threshold := c.regBits 0x144 15 0, budget := c.regBits 0x144 23 16 }
  let cols := passColumns args c.rd done 0 args.budget
  (s.readRanges x read).2.unlessSealed x fun s =>
    let s := feedTile x p.slot k s
    let s := s.onTile x p.slot fun t => { t with format := h.format, pattern := h.sparse, poisoned := t.poisoned || bad.isSome }
    let numbered := (List.range done).map fun n => (p.a + n, cols.getD n [])
    let s := numbered.foldl (fun s q => columnAdds args x p.slot q.1 q.2 s) s
    let s := numbered.foldl (fun s q => s.onTile x p.slot fun t => t.reference args q.1 q.2) s
    let s := numbered.foldl (fun s q => promotionAdds args x p.slot q.1 q.2 s) s
    let s := passEvents x p.slot (numbered.flatMap fun q => q.2) s
    let hits := residues.filter fun f => decide (f.2.val < done)
    let s := hits.foldl (residueHit x p.slot p.a) s
    let st := if bad.isSome then Status.eccUncorrected else .ok
    let run : APassRun :=
      { cmd := cmd, slot := p.slot, bank := p.bank, status := st, lastWord := now + port.length - 1
        lag := p.lag h md win (done - 1), budget := args.budget
        port := ((List.range port.length).zip port).flatMap fun q => q.2.map fun b => (now + q.1, b) }
    let s := (s.onCore x fun c => c.count 0x128 bubbles).arrayGo x fun a =>
      ArrayState.replan { a with passes := a.passes ++ [run] } now
    hits.foldl (fun s _ => s.unlessSealed x fun s => s.reportResidue x) s

/-- The pass at the head of the queue starts in cycle `now`, if its conditions hold (R131, R203): no bank of it loads or is in
use, and the budget cycles of the pass before it have ended. DESIGN CHOICE (log 136): an uncorrectable word of the header, before
any column, ends the pass at once: no budget cycle runs, and PASSES does not count it. -/
def passStart (s : State) (x : Site) (now : Nat) (cmd : ACmd) (residues : List (Fin 32 × Fin 256)) : State :=
  let p := PassCmd.of cmd
  let c := s.core x
  let k := c.bankAt now p.bank
  if !c.array.checkHold.isEmpty || k = .loading || k = .inUse || (c.array.passes.any fun q => decide (now ≤ q.budgetEnd)) then s
  else
    let early := if widthDenied s x then .denied else p.early cmd c
    if early ≠ .ok then s.arrayRefuse x cmd early
    else
      let hd := s.readSram x p.header 32
      hd.2.2.unlessSealed x fun s =>
        if hd.2.1.isSome then (s.onTile x p.slot fun t => { t with poisoned := true }).arrayRefuse x cmd .eccUncorrected
        else
          let h := Header.parse (s.core x).rd p.header
          let st := p.late h s x
          match h.mode with
          | some md => if st ≠ .ok then s.arrayRefuse x cmd st else runPass s x now cmd p h md residues
          | none => s.arrayRefuse x cmd .formatInvalid

/-- APASS_START: the pass starts once the budget cycles of the pass before it have ended and its bank is no longer in use;
engine time reaches that cycle. -/
def execApassStart (x : Site) (residues : List (Fin 32 × Fin 256)) (s : State) : Out :=
  startOf .apass x s fun cmd =>
    let s := (s.core x).array.passes.foldl (fun s p => s.reach x.field (20 * (p.budgetEnd + 1))) s
    let s := s.reachBank x (PassCmd.of cmd).bank
    passStart s x (s.cycleOf x) cmd residues

/-- The oldest pass ends, its budget cycles with it (R131): engine time reaches that cycle. -/
def execPassEnd (x : Site) (s : State) : Out :=
  match (s.core x).array.passes with
  | p :: rest =>
    if s.coreRuns x then
      let s := s.reach x.field (20 * p.ends)
      .next ((s.onCore x fun c => c.count 0x120 1).arrayDone x p.cmd p.status fun a => { a with passes := rest })
    else .next s
  | [] => .next s

/-! ## Closes (R98 to R104, R115, R116, R136, R137) -/

/-- The fields of a close (R190). -/
structure CloseCmd where
  slot : Nat
  dest : Option Nat
  stride : Nat
  format : Nat
deriving DecidableEq, Repr

def CloseCmd.of (c : ACmd) : CloseCmd :=
  let a := c.ga.toNat
  let b := c.gb.toNat
  ⟨bits b 0 0, if bit a 30 then none else some (bits a 16 0), bits a 29 17 * 16, bits b 15 8⟩

def CloseCmd.check (k : CloseCmd) (cmd : ACmd) (c : Core) : Status :=
  let t := c.tile k.slot
  if bits cmd.ga.toNat 63 31 ≠ 0 ∨ bits cmd.gb.toNat 63 16 ≠ 0 ∨ bits cmd.gb.toNat 7 1 ≠ 0 then .formatInvalid
  else if !t.open_ || t.closing || decide (bits cmd.ga.toNat 3 0 ≠ 0) then .addrRange
  else
    match outputFmt k.format with
    | none => .formatInvalid
    | some f =>
      match k.dest with
      | some d =>
        if 0x20000 < d + 31 * k.stride + t.m * (f.width / 8) then .addrRange else .ok
      | none => .ok

def closeStart (s : State) (x : Site) (cmd : ACmd) : State :=
  let k := CloseCmd.of cmd
  let st := k.check cmd (s.core x)
  if st ≠ .ok then s.arrayRefuse x cmd st
  else
    (s.onTile x k.slot fun t => { t with closing := true }).arrayGo x fun a => { a with closes := a.closes ++ [⟨cmd, k.slot, none⟩] }

def execAcloseStart (x : Site) (s : State) : Out := startOf .aclose x s fun cmd => closeStart s x cmd

/-- Entry numbers of a tile in the order of R112: increasing column, then increasing row. -/
def Tile.entries (t : Tile) : List (Nat × Nat) :=
  (List.range t.m).flatMap fun i => (List.range 32).map fun r => (i, r)

/-- The scan's max_magnitude, with the malformed entries it reads (R95, R136). -/
def scanTile (c : Core) (t : Tile) : Nat × Nat :=
  t.entries.foldl (fun acc e =>
    let u := accRead (c.accEntry (e.2 * 256 + t.a0 + e.1))
    (max acc.1 (fp32Abs u.1), acc.2 + u.2)) (0, 0)

/-- The converted entries of a close in the order of R112, with saturations, malformed entries and the stream. -/
def convertTile (c : Core) (t : Tile) (f : FloatFmt) (stoch : Bool) : List ((Nat × Nat) × Nat) × Nat × Nat × DWord :=
  t.entries.foldl (fun acc e =>
    let u := accRead (c.accEntry (e.2 * 256 + t.a0 + e.1))
    let o := outConvert f stoch u.1 acc.2.2.2
    (acc.1 ++ [(e, o.1)], acc.2.1 + o.2.1.toNat, acc.2.2.1 + u.2, o.2.2)) ([], 0, 0, c.stream 4)

/-- Writes bytes word by word, leaving out the words of banks that are not active: whether one was left out. A report that seals
the core ends it. -/
def writeActive (x : Site) : Nat → Nat → List Nat → State → Bool × State
  | 0, _, _, s => (false, s)
  | _ + 1, _, [], s => (false, s)
  | n + 1, a, bs, s =>
    let k := 16 - a % 16
    let on := (s.core x).activeAt a
    let t := if on then s.writeWord x a (bs.take k) else s
    if t.siteCode x ≠ s.siteCode x then (false, t)
    else
      let r := writeActive x n (a + k) (bs.drop k) t
      (!on || r.1, r.2)

/-- Writes the destination of a close, row by row. Where the stride is shorter than a row, against R136, what the bytes
hold is open. -/
def writeTile (x : Site) (d stride eb m : Nat) (vals : List ((Nat × Nat) × Nat)) (s : State) : Bool × State :=
  let v := s.fresh
  let row (r : Nat) : List Nat :=
    if stride < m * eb then (List.range (m * eb)).map fun i => Config.freeValue v.1 (r * m * eb + i) % 256
    else (vals.filter fun e => e.1.2 == r).flatMap fun e => leBytes eb e.2
  (List.range 32).foldl (fun acc r =>
    if acc.2.siteCode x ≠ s.siteCode x then acc
    else
      let w := writeActive x (m * eb / 16 + 2) (d + r * stride) (row r) acc.2
      (acc.1 || w.1, w.2)) (false, v.2)

/-- Whether a counter of a tile's record has stopped at its maximum (R100). DESIGN CHOICE (log 122): one that has reached
exactly its maximum, with no further event, has not stopped. -/
def Counts.stopped (k : Counts) : Bool :=
  [k.blocks, k.saturations, k.alignLoss, k.alignZeroed, k.malformed].any (0xFFFFFFFF < ·) ||
    [k.exceptions, k.excOverflow, k.sparseRange, k.promotions, k.declined].any (0xFFFF < ·)

/-- The 64 bytes of a tile's record (R99). Format and pattern are those of the tile's latest pass (log 32); of a tile into which
no pass has run the spec states neither, and both are 0 (DESIGN CHOICE, log 121). -/
def recordBytes (t : Tile) (source job seq maxMag err : Nat) (breach : Bool) : List Nat :=
  let k := t.counts
  let flags := k.stopped.toNat * 128 + breach.toNat * 64 + t.sampled.isSome.toNat * 32 + (decide (0 < k.declined)).toNat * 16 +
    (decide (0 < k.promotions)).toNat * 8 + (decide (0 < k.sparseRange)).toNat * 2 + (decide (0 < k.malformed)).toNat
  [1, t.format, flags, t.mode.code * 8 + t.pattern] ++ leBytes 4 source ++ leBytes 2 job ++ leBytes 2 seq ++
    leBytes 4 t.number ++ leBytes 4 (stopAt 4 k.blocks) ++ leBytes 4 k.worstBlock ++ leBytes 4 (stopAt 4 k.saturations) ++
    leBytes 4 (stopAt 4 k.alignLoss) ++ leBytes 4 (stopAt 4 k.alignZeroed) ++ leBytes 4 (stopAt 4 k.malformed) ++
    leBytes 2 (stopAt 2 k.exceptions) ++ leBytes 2 (stopAt 2 k.excOverflow) ++ leBytes 2 (stopAt 2 k.sparseRange) ++
    leBytes 2 0 ++ leBytes 2 (stopAt 2 k.promotions) ++ leBytes 2 (stopAt 2 k.declined) ++ leBytes 4 maxMag ++ leBytes 4 0 ++
    leBytes 4 err

/-- Pushes a whole record to the sink chute, or loses it (R104, R255): whether R104 discarded it. `now` is the cycle. -/
def Core.pushRecord (c : Core) (e now : Nat) (bs : List Nat) : Bool × Core :=
  let ch := c.chute e
  if ch.role ≠ .producer || !ch.record || !ch.ready || decide (c.sendRoom < bs.length / 8 + 1) then (true, c)
  else if ch.recOpen then (false, c.setChute e (ch.addLost 1))
  else
    let vs := (List.range (bs.length / 8)).map fun i => BitVec.ofNat 64 (leNat ((bs.drop (8 * i)).take 8))
    (false, c.setChute e { (ch.openRecord.push vs).closeRecord with pushedAt := now })

/-- The record of a closing tile is complete and goes to the sink (R98, R104). DESIGN CHOICE (log 122): a counter of the record
that has stopped shows in ASSAY.STATUS and as 0x0403 as the record is completed, so for no tile that is freed without a close. -/
def State.tileRecord (s : State) (x : Site) (slot maxMag err : Nat) (breach : Bool) : State :=
  let c := s.core x
  let t := c.tile slot
  let bs := recordBytes t (s.coreEid x) (s.jobOf x.field) c.array.seq maxMag err breach
  let s := if t.counts.stopped then (s.onCore x fun c => c.setFlag 0x154 4).raiseTile x slot 0x0403 .corrected else s
  let s := s.onCore x fun c => c.onArray fun a => { a with seq := (a.seq + 1) % 2 ^ 16 }
  if c.regBit 0x140 15 then
    let r := (s.core x).pushRecord (c.regBits 0x140 20 16) (s.clockOf x) bs
    let s := s.setCore x r.2
    if r.1 then
      ((s.tileTotal x slot 0x1AC 1).onCore x fun c => c.setFlag 0x154 5).raiseTile x slot 0x0402 .corrected
    else s
  else s

/-- The check lane's verdict on a sampled tile (R115, R116): the error, whether it breaches, the state after it. -/
def checkTile (s : State) (x : Site) (cmd : ACmd) (slot : Nat) : Nat × Bool × State :=
  let c := s.core x
  let t := c.tile slot
  if t.sampled.isNone then (0, false, s)
  else
    let cols := (List.range t.m).map (t.a0 + ·)
    let e := checkError (cols.map (t.sumA.get fun _ => 0)) (cols.map (t.sumC.get fun _ => 0))
    let s := (s.onCore x fun c => c.setReg 0x158 (BitVec.ofNat 32 e)).tileTotal x slot 0x1A4 1
    if checkBreach e (c.reg 0x148).toNat then
      let s := ((s.onCore x fun c => c.setFlag 0x154 3).tileTotal x slot 0x1A8 1).raiseTile x slot 0x0401 .contained
      match cmd.issuer with
      | some th =>
        if c.regBit 0x140 4 then
          (e, true, (s.onCore x fun c => c.onArray fun a => { a with checkHold := a.checkHold ++ [(th, .pending)] }).detect x th
            ⟨0x08, 0, BitVec.ofNat 64 (e * 2 ^ 32 + slot)⟩)
        else (e, true, s)
      | none => (e, true, s)
    else (e, false, s)

/-- Scan, cross-check, write-out and record of a close (R136). -/
def runClose (s : State) (x : Site) (k : AClose) : State :=
  let q := CloseCmd.of k.cmd
  let scan := scanTile (s.core x) ((s.core x).tile k.slot)
  let s := s.tileMalformed x k.slot scan.2 true
  let chk := checkTile s x k.cmd k.slot
  let s := chk.2.2
  let w : Bool × State :=
    match q.dest, outputFmt q.format with
    | some d, some f =>
      let c := s.core x
      let t := c.tile k.slot
      let v := convertTile c t f (c.regBit 0x140 2)
      let s := s.onCore x fun c => c.setStream 4 v.2.2.2
      let s := if v.2.1 = 0 then s else s.tileSaturated x k.slot v.2.1
      writeTile x d q.stride (f.width / 8) t.m v.1 (s.tileMalformed x k.slot v.2.2.1 true)
    | _, _ => (false, s)
  w.2.unlessSealed x fun s =>
  let s := s.tileRecord x k.slot scan.1 chk.1 chk.2.1
  let poisoned := ((s.core x).tile k.slot).poisoned
  let s := if poisoned then s.raiseTile x k.slot 0x0502 .contained else s
  let st : Status := if poisoned then .poisoned else if w.1 then .bankParked else .ok
  s.onCore x fun c => c.onArray fun a => { a with
    closes := a.closes.map fun z => if z.slot = k.slot then { z with ran := some st } else z }

/-- The close of a slot, once no pass into its tile runs. -/
def execCloseRun (x : Site) (slot : Fin 2) (s : State) : Out :=
  let a := (s.core x).array
  match a.closes.find? fun k => k.slot == slot.val with
  | some k =>
    if s.coreRuns x && k.ran.isNone && !(a.passes.any fun p => p.slot == slot.val) then .next (runClose s x k)
    else .next s
  | none => .next s

def execCloseEnd (x : Site) (slot : Fin 2) (s : State) : Out :=
  match (s.core x).array.closes.find? fun k => k.slot == slot.val with
  | some k =>
    match k.ran with
    | some st =>
      if s.coreRuns x then
        .next ((s.onCore x fun c => c.setTile slot.val Tile.reset).arrayDone x k.cmd st fun a =>
          { a with closes := a.closes.filter fun z => z.slot != slot.val })
      else .next s
    | none => .next s
  | none => .next s

/-! ## Scheduled commands (R132), tailings (R143) and seeds (R113) -/

/-- A command that the schedule issues at its beat, in cycle `now`: it slips, and is dropped, unless it starts there and
then. While ARRAY.CTRL.owner is 0 the schedule issues none (R132). -/
def State.scheduleCommand (s : State) (x : Site) (now : Nat) (kind : ACmdKind) (ga gb : DWord)
    (residues : List (Fin 32 × Fin 256)) : State :=
  let slip (s : State) : State := s.raiseCore x 0x0501 .jobFatal 0
  let no := (s.core x).array.nextNo
  if !(s.core x).regBit 0x100 8 then s
  else if (s.core x).array.queue ≠ [] then slip s
  else
    let s := s.onCore x fun c => c.arrayPush kind ga gb none
    let cmd : ACmd := ⟨no, kind, ga, gb, none⟩
    let s := match kind with
      | .aload => loadStart s x now cmd
      | .aopen => openStart s x cmd
      | .apass => passStart s x now cmd residues
      | .aclose => closeStart s x cmd
    if (s.core x).array.queue.any fun q => q.no == no then slip (s.arrayPop x) else s

/-- Whether an array is idle for tailings: it has nothing to do, or what it does is frozen (R143, R439). -/
def State.arrayIdle (s : State) (x : Site) : Bool :=
  s.coreClocked x && s.width x != 0 && (!(s.core x).array.busy || (s.field x.field).frozen)

/-- TAILINGS: an array has been idle for `cycles` more cycles, and has run tailings in d of every 100 of them (R439): in
cycle k of the pattern where the whole part of k · d / 100 has grown. An array whose command is frozen is idle. -/
def execTailings (x : Site) (cycles : Nat) (s : State) : Out :=
  let fl := s.field x.field
  let a := (s.core x).array
  if s.arrayIdle x then
    let upto (k : Nat) : Nat := k * fl.duty.n / (100 * fl.duty.d)
    .next (s.onCore x fun c => { c with array := { a with idle := (a.idle + cycles) % 100 } }.count 0x12C
      (upto (a.idle + cycles) - upto a.idle))
  else .next s

/-- The pair of halves enters the stream, unless the array is drawing from it (R113). DESIGN CHOICE (log 123): where no low
half has been written since the last load, the stream's present low half is taken. -/
def Core.seedLoad (c : Core) (stream : Nat) (hi : Word) : Core :=
  if stream = 4 ∧ (c.array.load.isSome ∨ c.array.passes ≠ []) then c.refuse
  else
    let lo := c.seedLo.get (fun i => BitVec.ofNat 32 (c.stream i).toNat) stream
    { c.setStream stream (rngSeed (BitVec.ofNat 64 (hi.toNat * 2 ^ 32 + lo.toNat))) with seedLo := c.seedLo.del stream }

def execSrSeedLoad (w : Requester) (x : Site) (stream : Fin 5) (hi : Word) (s : State) : Out :=
  .next (s.corePut w x fun s => s.onCore x fun c => c.seedLoad stream.val hi)

end Sys2Proof.Machine
end

