-- ==== Sys2Proof/Machine/Remote.lean ====
section
/-! DEFINITION. Remote operations and what answers them (R53 to R55, R193 to R196, R267 to R274, R333, R343 to R345,
R349 to R353, R357 to R366): the remote instructions, tags, the window arbiter, notices, time-outs, the address book. -/

namespace Sys2Proof.Machine

/-! ## Remote addresses (R194) -/

/-- The low word of a remote address with its reserved bits zero. -/
def remoteLow (a : Nat) : Nat := bits a 31 20 * 2 ^ 20 + bits a 16 0
def remoteEid (a : Nat) : Nat := bits a 63 32

/-- The length and local offset of RPUT's gb and RGET's gd (R195). -/
def moveLength (v : Nat) : Nat := (bits v 43 32 + 1) * 16
def moveOffset (v : Nat) : Nat := bits v 16 0

/-- Pieces of at most n bytes: first byte and length. -/
def pieces (n len : Nat) : List (Nat × Nat) :=
  (List.range (ceilDiv len n)).map fun j => (n * j, min n (len - n * j))

def RemoteOp.eid : RemoteOp → Nat
  | .rld _ a | .rst a _ | .rsta a _ | .rsig a _ _ | .rput a _ _ _ _ | .rget a _ _ _ _ => remoteEid a
  | .rtsig e _ _ => e
/-- Operations that hold a tag until they are answered (R54, R195). -/
def RemoteOp.tagged : RemoteOp → Bool
  | .rld _ _ | .rsta _ _ | .rput _ _ _ _ _ | .rget _ _ _ _ _ => true
  | _ => false
/-- The status with which an operation ends before it sends anything (R194, R195). DESIGN CHOICE (log 144): an RPUT of mode 3
whose EID is no core's ends with ADDR_RANGE, though FORMAT_INVALID fits it as well. -/
def RemoteOp.refused (op : RemoteOp) : Option Status :=
  match op with
  | .rtsig _ _ _ => none
  | .rput _ _ _ mode _ => if !eidIsCore op.eid then some .addrRange else if mode = 3 then some .formatInvalid else none
  | _ => if eidIsCore op.eid then none else some .addrRange

/-! ## Ends of operations (R196) -/

/-- A tagged operation of a thread ends with a status. -/
def State.opStatus (s : State) (x : Site) (t : Nat) (st : Status) : State :=
  s.onThread x t fun th => th.remoteEnd st

/-- Whether a thread has tagged operations outstanding. -/
def Core.opsOut (c : Core) (t : Nat) : Bool :=
  c.tags.any fun kv =>
    match kv.2 with
    | some g => g.thread == some t && (match g.use with | .miss _ => false | _ => true)
    | none => false

/-- RFENCE completes: gd := RSTATUS, RSTATUS := 0 (R195). -/
def Thread.fenceDone (th : Thread) (d : Nat) : Thread :=
  { (th.put d th.rstatus).advance with rstatus := 0, state := .running, wait := .none }

/-- A thread whose wait for tagged operations or for the result of an RLD is over goes on, or stops (R180, R560); in a hold the
wait ends at release. -/
def State.remoteRelease (s : State) (x : Site) (t : Nat) : State :=
  let th := s.thread x t
  match th.wait with
  | .rfence d => if (s.core x).opsOut t || (s.field x.field).frozen then s else s.setThread x t (th.fenceDone d)
  | .rldResult need stopAfter =>
    if stopAfter then
      if th.pendingG = [] && !(s.field x.field).frozen then
        (s.setThread x t { th with state := .stopped, wait := .none }).settleStop x t
      else s
    else if th.awaited need = [] && !(s.field x.field).frozen then
      let due := if th.handler then [] else th.async
      s.setThread x t { th with
        state := .running, wait := .none, late := th.late ++ due, async := if th.handler then th.async else [] }
    else s
  | _ => s

/-- The status of an operation whose packets have all been answered: the requester's own, else that of the first refused
packet in packet order (R273). -/
def Tag.status (g : Tag) : Status :=
  if g.own ≠ .ok then g.own else ((g.parts.map Prod.snd).find? fun st => st ≠ .ok).getD .ok

/-- Frees a tag; an epoch that moves on makes later responses strangers (R345). -/
def Core.freeTagNo (c : Core) (i : Nat) (newEpoch : Bool) : Core :=
  let c := c.setTag i none
  if newEpoch then { c with tagEpoch := c.tagEpoch.set (fun _ => 0) i ((c.epoch i + 1) % 16) } else c

/-- The operation that holds a tag ends. `value` is what an RLD that ends with OK has read. -/
def State.tagEnd (s : State) (x : Site) (i : Nat) (g : Tag) (st : Status) (newEpoch : Bool) (value : DWord) : State :=
  let s := s.onCore x fun c => c.freeTagNo i newEpoch
  let s := match g.thread with
    | some t => s.opStatus x t st
    | none => s
  let s := match g.use, g.thread with
    | .rld d, some t =>
      s.onThread x t fun th =>
        { th.put d (if st = .ok then value else 0) with pendingG := th.pendingG.filter fun p => p.2 != i }
    | .rget _ _ (some k), _ => if st = .ok then s.tallyIncrement (.core x) k 1 (s.coreEid x) else s
    | _, _ => s
  match g.thread with
  | some t => s.remoteRelease x t
  | none => s

/-- One packet of the operation that holds a tag has been answered, or has had `n` of its bytes; the operation ends with
its last packet. -/
def State.partAnswer (s : State) (x : Site) (i k n : Nat) (st : Status) (value : DWord) : State :=
  match (s.core x).tag i with
  | none => s
  | some g =>
    let parts := (List.range g.parts.length).map fun j =>
      let p := g.parts.getD j (0, .ok)
      if j = k && p.1 ≠ 0 then (if st = .ok then p.1 - n else 0, if p.2 = .ok then st else p.2) else p
    let g := { g with parts := parts }
    if parts.all fun p => p.1 == 0 then s.tagEnd x i g g.status false value
    else s.onCore x fun c => c.setTag i (some g)

/-- The packet of an operation that a head belongs to, by its remote offset (R333). -/
def Tag.partOf (g : Tag) (arg : Nat) : Nat :=
  match g.use with
  | .rput roff => (bits arg 19 0 - roff) / 512
  | .rget _ roff _ => (bits arg 19 0 - roff) / 8192
  | _ => 0

/-- The tag a tag field names, if it is held with that thread and epoch (R331, R345). -/
def Core.tagOf (c : Core) (field : Nat) : Option (Nat × Tag) :=
  let i := bits field 5 0
  match c.tag i with
  | some g => if c.tagField i g.thread = field % 2 ^ 12 then some (i, g) else none
  | none => none

/-- An operation's packet that never reached its destination ends with a status. -/
def State.packetFails (s : State) (x : Site) (p : Packet) (st : Status) : State :=
  if p.expectsResponse then
    match (s.core x).tagOf p.tag with
    | some (i, g) => s.partAnswer x i (g.partOf p.arg) 1 st 0
    | none => s
  else s

/-! ## Issue (R54, R195) -/

/-- Tags an operation needs: its own, and one for an address-book miss. -/
def State.tagsNeeded (s : State) (x : Site) (op : RemoteOp) : Nat :=
  op.tagged.toNat + ((s.core x).bookFind s.chip op.eid).isNone.toNat

/-- Reads the local bytes of RPUT's packets in order, up to the first that meets a bank not active or an uncorrectable
word (R195). -/
def readPieces (x : Site) (loff : Nat) : List (Nat × Nat) → State → List (Nat × List Nat) × Status × State
  | [], s => ([], .ok, s)
  | q :: qs, s =>
    if !(s.core x).rangeActive (loff + q.1) q.2 then ([], .bankParked, s)
    else
      let r := s.readSram x (loff + q.1) q.2
      if r.2.1.isSome then ([], .eccUncorrected, r.2.2)
      else
        let t := readPieces x loff qs r.2.2
        ((q.1, r.1) :: t.1, t.2.1, t.2.2)

/-- The data word of a SIGNALLED_WRITE (R364). -/
def signalData (tally : Nat) (signal ack : Bool) (first len : Nat) : Nat :=
  tally + signal.toNat * 2 ^ 6 + ack.toNat * 2 ^ 7 + first * 2 ^ 8 + len * 2 ^ 32

def Packet.withBytes (p : Packet) (bs : List Nat) : Packet := { p with payload := bs.map (BitVec.ofNat 8) }

/-- A packet of an RPUT: its bytes at k of the operation. -/
def rputPacket (mode tally addr len k : Nat) (bs : List Nat) (mk : PType → Nat → Nat → Packet) : Packet :=
  let arg := remoteLow addr + k
  match mode with
  | 0 => Packet.withBytes (mk .writeAcked arg bs.length) bs
  | 1 =>
    Packet.withBytes (mk .signalledWrite arg (signalData tally (decide (len ≤ k + 512)) true (bits addr 16 0) len)) bs
  | _ => Packet.withBytes (mk .countedWrite arg (tally + 2 ^ 6)) bs

/-- Sends the packets of an operation whose tags are free, and the thread goes on to its next instruction. -/
def State.remoteSend (s : State) (x : Site) (t : Nat) (op : RemoteOp) : State :=
  let s := s.onThread x t fun th => { th.advance with state := .running, wait := .none }
  let c := s.core x
  let i := if op.tagged then c.freeTag.getD 0 else 0
  let field := if op.tagged then c.tagField i (some t) else 0
  let mk (ty : PType) (arg data : Nat) : Packet :=
    Packet.head ty op.eid (s.coreEid x) field (s.jobOf x.field) arg data
  let hold (use : TagUse) (parts : List (Nat × Status)) (own : Status) (s : State) : State :=
    s.onCore x fun c => c.setTag i (some ⟨use, some t, s.now x.field, parts, own⟩)
  match op with
  | .rld d a =>
    ((hold (.rld d) [(8, .ok)] .ok s).onThread x t fun th => { th with pendingG := th.pendingG ++ [(d, i)] }).sendAll x
      (some t) op.eid [mk .read (remoteLow a) 8]
  | .rst a v => s.sendAll x (some t) op.eid [mk .write (remoteLow a) v]
  | .rsta a v => (hold .rsta [(1, .ok)] .ok s).sendAll x (some t) op.eid [mk .writeAcked (remoteLow a) v]
  | .rsig a v tally =>
    s.sendAll x (some t) op.eid
      [Packet.withBytes (mk .signalledWrite (remoteLow a) (signalData tally true false (bits a 16 0) 8)) (leBytes 8 v)]
  | .rtsig _ tally inc => s.sendAll x (some t) op.eid [mk .tallySignal tally inc]
  | .rput a len loff mode tally =>
    let r := readPieces x loff (pieces 512 len) s
    r.2.2.unlessSealed x fun s =>
      let parts := r.1.map fun _ => (1, Status.ok)
      let s := hold (.rput (bits a 16 0)) parts r.2.1 s
      if r.1 = [] then
        match (s.core x).tag i with
        | some g => s.tagEnd x i g g.own false 0
        | none => s
      else s.sendAll x (some t) op.eid (r.1.map fun q => rputPacket mode tally a len q.1 q.2 mk)
  | .rget a len loff signal tally =>
    let ps := pieces 8192 len
    (hold (.rget loff (bits a 16 0) (if signal then some tally else none)) (ps.map fun q => (q.2, .ok)) .ok s).sendAll x
      (some t) op.eid (ps.map fun q => mk .read (remoteLow a + q.1) q.2)

/-- A remote operation of a thread: refused by its operands, waiting for tags, or sent. -/
def State.remoteIssue (s : State) (x : Site) (t : Nat) (op : RemoteOp) : State :=
  match op.refused with
  | some st =>
    let s := s.onThread x t fun th =>
      let th := match op with | .rld d _ => th.put d 0 | _ => th
      { th.advance with state := .running, wait := .none }
    if op.tagged then s.opStatus x t st else s
  | none =>
    if 64 < (s.core x).tagsInUse + s.tagsNeeded x op then
      s.onThread x t fun th => { th with state := .waitRemote, wait := .tag op }
    else s.remoteSend x t op

/-- The operation a thread waits to issue. -/
def waitingOp (th : Thread) : Option RemoteOp :=
  match th.wait with
  | .tag op => some op
  | _ => none

/-- Free tags go to misses that wait for one and then to threads, in an order the spec leaves open; threads of a core
that stands still wait on (R180). The fuel is the number of waiters. -/
def State.remoteWakeN (s : State) (x : Site) : Nat → State
  | 0 => s
  | n + 1 =>
    let c := s.core x
    if c.freeTag.isNone then s
    else if c.missWait.any fun h => h.tag.isNone then (s.grantMiss x).remoteWakeN x n
    else if !s.coreRuns x then s
    else
      let ts := (List.range 4).filterMap fun t =>
        (waitingOp (s.thread x t)).bind fun op => if c.tagsInUse + s.tagsNeeded x op ≤ 64 then some (t, op) else none
      let v := s.fresh
      match ts[Config.freeValue v.1 0 % ts.length]? with
      | some (t, op) => (v.2.remoteSend x t op).remoteWakeN x n
      | none => s
def State.remoteWake (s : State) (x : Site) : State :=
  s.remoteWakeN x (4 + (s.core x).missWait.length)

/-! ## The remote instructions (R193, R195) -/

/-- The exception the local range of RPUT or RGET meets at issue, ADDR before PARKED. -/
def moveCheck (c : Core) (v : Nat) : Option (Nat × Status) :=
  if 0x20000 < moveOffset v + moveLength v then some (0x03, .addrRange)
  else if !c.rangeActive (moveOffset v) (moveLength v) then some (0x05, .bankParked)
  else none

/-- A remote instruction whose offset must be a multiple of 8. -/
def alignedRemote (i : Iss) (d a : GReg) (s : State) (op : Nat → Nat → RemoteOp) : Out :=
  .next <| issue i [d.val, a.val] s fun th =>
    let addr := (th.get a.val).toNat
    if addr % 8 ≠ 0 then s.precise i.site i.thread.val 0x02 .addrRange addr
    else s.remoteIssue i.site i.thread.val (op addr (th.get d.val).toNat)

def execRld (i : Iss) (d a : GReg) (s : State) : Out := alignedRemote i d a s fun addr _ => .rld d.val addr
def execRst (i : Iss) (d a : GReg) (s : State) : Out := alignedRemote i d a s fun addr v => .rst addr v
def execRsta (i : Iss) (d a : GReg) (s : State) : Out := alignedRemote i d a s fun addr v => .rsta addr v

def execRsig (i : Iss) (d a b : GReg) (s : State) : Out :=
  .next <| issue i [d.val, a.val, b.val] s fun th =>
    s.remoteIssue i.site i.thread.val
      (.rsig (th.get a.val).toNat (th.get d.val).toNat (bits (th.get b.val).toNat 5 0))

def execRtsig (i : Iss) (d a b : GReg) (s : State) : Out :=
  .next <| issue i [d.val, a.val, b.val] s fun th =>
    s.remoteIssue i.site i.thread.val
      (.rtsig (bits (th.get a.val).toNat 31 0) (bits (th.get b.val).toNat 5 0) (bits (th.get d.val).toNat 31 0))

def execRput (i : Iss) (d a b : GReg) (s : State) : Out :=
  .next <| issue i [d.val, a.val, b.val] s fun th =>
    let v := (th.get b.val).toNat
    match moveCheck (s.core i.site) v with
    | some (cause, st) => s.precise i.site i.thread.val cause st (moveOffset v)
    | none =>
      let m := (th.get d.val).toNat
      s.remoteIssue i.site i.thread.val
        (.rput (th.get a.val).toNat (moveLength v) (moveOffset v) (bits m 9 8) (bits m 5 0))

def execRget (i : Iss) (d a b : GReg) (s : State) : Out :=
  .next <| issue i [d.val, a.val, b.val] s fun th =>
    let v := (th.get d.val).toNat
    match moveCheck (s.core i.site) v with
    | some (cause, st) => s.precise i.site i.thread.val cause st (moveOffset v)
    | none =>
      let k := (th.get b.val).toNat
      s.remoteIssue i.site i.thread.val
        (.rget (th.get a.val).toNat (moveLength v) (moveOffset v) (bit k 6) (bits k 5 0))

/-- RFENCE completes at once where none of the thread's tagged operations is outstanding. -/
def execRfence (i : Iss) (d : GReg) (s : State) : Out :=
  .next <| issue i [d.val] s fun th =>
    if (s.core i.site).opsOut i.thread.val then
      s.setThread i.site i.thread.val { th with state := .waitRemote, wait := .rfence d.val }
    else s.setThread i.site i.thread.val (th.fenceDone d.val)

/-! ## The window arbiter (R267 to R274, R365, R366) -/

/-- The field of the core an EID names, none where the directory resolves it to no core (R55, R270). -/
def State.fieldOfEid (s : State) (eid : Nat) : Option Nat :=
  if !eidIsCore eid then none
  else if eidChip eid = s.chip then (s.siteOf (eidLocal eid)).map (·.field) else Config.remoteField eid

/-- Whether a window admits a source (R270). -/
def State.admits (s : State) (w : Win) (src : Nat) : Bool :=
  match w.peerMode with
  | 0 => true
  | 1 => w.peer.toNat == src
  | 2 =>
    eidChip src == eidChip w.peer.toNat &&
      (match s.fieldOfEid src, s.fieldOfEid w.peer.toNat with
        | some a, some b => a == b
        | _, _ => false)
  | _ => false

/-- The first outcome of R269's table for a request of n bytes. -/
def State.windowCheck (s : State) (x : Site) (arg src n : Nat) (write : Bool) : Status :=
  let w := (s.core x).win (bits arg 23 20)
  let off := bits arg 19 0
  if !w.open_ || w.closing then .windowClosed
  else if bits arg 31 24 ≠ w.generation then .windowStale
  else if !s.admits w src || !(if write then w.write else w.read) then .windowPerm
  else if w.size.toNat < off + n then .addrRange
  else if !(s.core x).rangeActive (w.base.toNat + off) n then .bankParked
  else .ok

/-- The SRAM offset a window and offset name. -/
def Core.windowAddr (c : Core) (arg : Nat) : Nat := (c.win (bits arg 23 20)).base.toNat + bits arg 19 0

/-- A refusal is counted and recorded (R274). -/
def Core.windowRefuse (c : Core) (arg src : Nat) (st : Status) : Core :=
  let off := match st with
    | .windowClosed => 0x0D0 | .windowStale => 0x0D4 | .windowPerm => 0x0D8 | .addrRange => 0x0DC | _ => 0x0E0
  ((c.count off 1).setReg 0x0E8 (BitVec.ofNat 32 (2 ^ 31 + st.code * 2 ^ 16 + bits arg 23 20))).setReg 0x0EC
    (BitVec.ofNat 32 src)

/-- READ_DATA packets with the bytes of a served read (R333). -/
def readAnswers (p : Packet) (src : Nat) (bs : List Nat) : List Packet :=
  (pieces 512 bs.length).map fun q =>
    Packet.withBytes { p.response src .ok with data := q.2 + q.1 * 2 ^ 32 } ((bs.drop q.1).take q.2)

/-- A request with its type, delivered to a core. -/
def State.request (s : State) (p : Packet) (ty : PType) (k : State → Site → State) : State :=
  if p.ptype = ty then s.deliver p k else s

def execRead (p : Packet) (s : State) : Out :=
  .next <| s.request p .read fun s x =>
    let n := bits p.data 31 0
    let st := s.windowCheck x p.arg p.src n false
    if st ≠ .ok then
      (s.onCore x fun c => c.windowRefuse p.arg p.src st).send x (p.response (s.coreEid x) st)
    else
      let r := s.readSram x ((s.core x).windowAddr p.arg) n
      r.2.2.unlessSealed x fun s =>
        if r.2.1.isSome then s.send x (p.response (s.coreEid x) .eccUncorrected)
        else (readAnswers p (s.coreEid x) r.1).foldl (fun s q => s.send x q) s

/-- The bytes a write packet carries: its payload, or the 8 bytes of its data field. -/
def Packet.writeBytes (p : Packet) : List Nat :=
  if p.payload = [] then leBytes 8 p.data else p.payload.map (·.toNat)

/-- A write at the arbiter: its status and the state with its bytes committed or its refusal counted. -/
def State.windowWrite (s : State) (x : Site) (p : Packet) : Status × State :=
  let bs := Packet.writeBytes p
  let st := s.windowCheck x p.arg p.src bs.length true
  if st ≠ .ok then (st, s.onCore x fun c => c.windowRefuse p.arg p.src st)
  else (.ok, s.writeSram x ((s.core x).windowAddr p.arg) bs)

/-- The answer of a write that asks for one. -/
def State.windowAck (s : State) (x : Site) (p : Packet) (st : Status) : State :=
  if p.expectsResponse then s.unlessSealed x fun s => s.send x (p.response (s.coreEid x) st) else s

def execWrite (p : Packet) (s : State) : Out :=
  .next <| s.request p .write fun s x => (s.windowWrite x p).2

def execWriteAcked (p : Packet) (s : State) : Out :=
  .next <| s.request p .writeAcked fun s x =>
    let r := s.windowWrite x p
    r.2.windowAck x p r.1

/-- SIGNALLED_WRITE: the signal counts only if check 5 passes over the whole operation (R365). -/
def execSignalledWrite (p : Packet) (s : State) : Out :=
  .next <| s.request p .signalledWrite fun s x =>
    let w := (s.core x).win (bits p.arg 23 20)
    let whole := (s.core x).rangeActive (w.base.toNat + bits p.data 24 8) (bits p.data 63 32)
    let r := s.windowWrite x p
    if r.1 ≠ .ok || !bit p.data 6 then r.2.windowAck x p r.1
    else if whole then r.2.unlessSealed x fun s => (s.tallyIncrement (.core x) (bits p.data 5 0) 1 p.src).windowAck x p .ok
    else (r.2.onCore x fun c => c.windowRefuse p.arg p.src .bankParked).windowAck x p .bankParked

/-- COUNTED_WRITE: an accepted packet adds the bytes it wrote (R366). -/
def execCountedWrite (p : Packet) (s : State) : Out :=
  .next <| s.request p .countedWrite fun s x =>
    let r := s.windowWrite x p
    r.2.unlessSealed x fun s =>
      (if r.1 = .ok then s.tallyIncrement (.core x) (bits p.data 5 0) (Packet.writeBytes p).length p.src else s).windowAck x p r.1

/-! ## Windows (R267, R268, R287) -/

/-- A window register as it is read. -/
def Win.ctrl (w : Win) : Nat :=
  w.open_.toNat * 2 ^ 31 + w.closing.toNat * 2 ^ 30 + w.openPending.toNat * 2 ^ 29 + w.peerMode % 4 * 2 ^ 27 +
    w.generation % 256 * 2 ^ 16 + w.write.toNat * 2 + w.read.toNat

/-- Whether a window may open: its range is not empty and lies within SRAM (R268). -/
def Win.fits (w : Win) : Bool := decide (0 < w.size.toNat ∧ w.base.toNat + w.size.toNat ≤ 0x20000)

/-- A close starts, or a pending open is dropped. -/
def Win.close (w : Win) : Win :=
  if w.closing then { w with openPending := false }
  else if w.open_ then { w with closing := true, generation := (w.generation + 1) % 256 }
  else w
/-- A window opens, or will once it has closed. -/
def Win.open (w : Win) : Win := if w.closing then { w with openPending := true } else { w with open_ := true }
/-- Its accepted accesses have completed (R267). -/
def Win.closed (w : Win) : Win :=
  if w.closing then { w with open_ := w.openPending, closing := false, openPending := false } else w

/-- The window after a write of WIN.CTRLw, none where R268 refuses it. -/
def Win.write? (w : Win) (v : Nat) : Option Win :=
  let mode := bits v 28 27
  let same := mode == w.peerMode && bit v 1 == w.write && bit v 0 == w.read
  if bits v 26 24 ≠ 0 || bits v 15 2 ≠ 0 || mode = 3 || (w.open_ && !same) || (bit v 31 && !w.open_ && !w.fits) then none
  else
    let w := { w with peerMode := mode, write := bit v 1, read := bit v 0 }
    some (if bit v 31 then w.open else w.close)

/-- A write of WIN.CTRLw. -/
def State.windowCtrl (s : State) (x : Site) (i v : Nat) : State :=
  s.onCore x fun c =>
    match (c.win i).write? v with
    | some w => c.setWin i w
    | none => c.refuse

/-- A write of WIN.BASEw, WIN.SIZEw or WIN.PEERw (R268): `mask` holds the register's RW bits. -/
def Core.windowField (c : Core) (i : Nat) (v mask : Nat) (old : Win → Word) (put : Win → Word → Win) : Core :=
  let w := c.win i
  if v &&& mask ≠ v ∨ (w.open_ ∧ (old w).toNat ≠ v) then c.refuse else c.setWin i (put w (BitVec.ofNat 32 v))

def execWindowOpen (w : Requester) (x : Site) (win : Fin 16) (v : Word) (s : State) : Out :=
  .next (s.corePut w x fun s => s.windowCtrl x win.val v.toNat)
def execWindowClose (w : Requester) (x : Site) (win : Fin 16) (v : Word) (s : State) : Out :=
  .next (s.corePut w x fun s => s.windowCtrl x win.val v.toNat)
def execWindowClosed (x : Site) (win : Fin 16) (s : State) : Out :=
  .next (if s.coreClocked x then s.onCore x fun c => c.setWin win.val (c.win win.val).closed else s)

/-! ## Responses, notices and time-outs (R195, R196, R273, R281, R345) -/

/-- READ_DATA: the bytes of an RLD, or of part of an RGET, which land in local SRAM. -/
def State.readData (s : State) (x : Site) (p : Packet) : State :=
  match (s.core x).tagOf p.tag with
  | none => s
  | some (i, g) =>
    let n := min (bits p.data 31 0) p.payload.length
    let bs := (p.payload.take n).map (·.toNat)
    let k := g.partOf p.arg
    match g.use with
    | .rld _ => (s.partAnswer x i 0 (max n 1) p.status (BitVec.ofNat 64 (leNat (bs.take 8)))).remoteWake x
    | .rget loff _ _ =>
      if p.status ≠ .ok then (s.partAnswer x i k 1 p.status 0).remoteWake x
      else
        let a := loff + 8192 * k + bits p.data 63 32
        let s := if g.own ≠ .ok then s
          else if 0x20000 < a + n || !(s.core x).rangeActive a n then
            s.onCore x fun c => c.setTag i (some { g with own := .bankParked })
          else s.writeSram x a bs
        s.unlessSealed x fun s => (s.partAnswer x i k (max n 1) .ok 0).remoteWake x
    | _ => s

def execReadData (p : Packet) (s : State) : Out :=
  .next <| s.request p .readData fun s x => s.readData x p

/-- ACK: one packet of an RSTA or RPUT has been answered. -/
def execAck (p : Packet) (s : State) : Out :=
  .next <| s.request p .ack fun s x =>
    match (s.core x).tagOf p.tag with
    | some (i, g) => (s.partAnswer x i (g.partOf p.arg) 1 p.status 0).remoteWake x
    | none => s

/-- A packet that waits for the directory leaves, its operation ended with a status. -/
def missFails (x : Site) (st : Status) (s : State) (h : Held) : State := s.packetFails x h.pkt st

/-- An address-book miss ends without an answer that installs anything: every packet held for its EID is gone (R55). -/
def State.missEnd (s : State) (x : Site) (i eid : Nat) (st : Status) (newEpoch : Bool) : State :=
  let held := (s.core x).missWait.filter fun h => h.pkt.dst == eid && h.tag == some i
  let s := s.onCore x fun c =>
    { c.freeTagNo i newEpoch with missWait := c.missWait.filter fun h => !(h.pkt.dst == eid && h.tag == some i) }
  (held.foldl (missFails x st) s).remoteWake x

/-- The type of the packet a notice is about, its tag field and its destination (R333). -/
def noticeType (p : Packet) : Nat := bits p.data 7 0
def noticeTag (p : Packet) : Nat := bits p.data 31 16

/-- Whether a notice is about a packet of the operation that holds a tag: a posted packet holds none. -/
def Tag.owns (g : Tag) (ty arg : Nat) : Bool :=
  match g.use with
  | .rld _ | .rget _ _ _ => ty == PType.read.code
  | .rsta => ty == PType.writeAcked.code
  | .rput roff =>
    (ty == PType.writeAcked.code || ty == PType.signalledWrite.code || ty == PType.countedWrite.code) &&
      decide (roff ≤ bits arg 19 0) && decide (g.partOf arg < g.parts.length)
  | .miss _ => ty == PType.directory.code

/-- LOSS_NOTICE: it ends the tagged operation it is about, or is counted and recorded. -/
def State.lossNotice (s : State) (x : Site) (p : Packet) : State :=
  let posted (s : State) : State := s.onCore x fun c =>
    ((c.count 0x254 1).setReg 0x214 (BitVec.ofNat 32 (2 ^ 31 + p.status.code * 2 ^ 16 + noticeType p * 2 ^ 8 +
      noticeTag p % 256))).setReg 0x218 (BitVec.ofNat 32 (bits p.data 63 32))
  match (s.core x).tagOf (noticeTag p) with
  | some (i, g) =>
    if g.owns (noticeType p) p.arg then
      match g.use with
      | .miss eid => s.missEnd x i eid p.status false
      | _ => (s.partAnswer x i (g.partOf p.arg) 1 p.status 0).remoteWake x
    else posted s
  | none => posted s

def execLossNotice (p : Packet) (s : State) : Out :=
  .next <| s.request p .lossNotice fun s x => s.lossNotice x p

/-- TAG_TIMEOUT: a tag held for ROUTER.TIMEOUT µs is freed, and its operation ends with TIMEOUT. -/
def execTagTimeout (x : Site) (tag : Fin 64) (s : State) : Out :=
  match (s.core x).tag tag.val with
  | some g =>
    if s.coreClocked x then
      let s := s.elapse (g.since + max 1 ((s.core x).regBits 0x210 15 0) * 1000 - s.now x.field)
      let s := s.onCore x fun c => c.count 0x258 1
      match g.use with
      | .miss eid => .next (s.missEnd x tag.val eid .timeout true)
      | _ => .next ((s.tagEnd x tag.val g .timeout true 0).remoteWake x)
    else .next s
  | none => .next s

/-! ## The directory and the address book (R55, R349 to R353) -/

/-- A packet that has reached the foreman of a field. -/
def State.atForeman (s : State) (p : Packet) (f : Nat) : Bool :=
  p.dst == s.chip * 2 ^ 20 + eidForeman f && (s.field f).foremanUp && s.lands p
/-- A packet for a foreman with its type, taken by that foreman. -/
def State.foremanTakes (s : State) (p : Packet) (ty : PType) (k : State → Nat → State) : State :=
  match (List.range 48).find? fun f => s.atForeman p f with
  | some f =>
    if p.ptype = ty then
      let s := s.consume p
      if p.poisoned then
        match p.endAnswer p.dst .poisoned with
        | some q => s.sendForeman f q
        | none => s
      else k s f
    else s
  | none => s

/-- DIRECTORY: the foreman resolves an EID for the asking core (R55, R350). -/
def execDirectory (p : Packet) (s : State) : Out :=
  .next <| s.foremanTakes p .directory fun s f =>
    match s.siteOf (eidLocal p.src) with
    | none => s
    | some x =>
      let q := Packet.head .directory p.src p.dst p.tag p.job p.arg
      match s.resolve x p.src p.arg with
      | some d =>
        s.sendForeman f { q (d.x + d.y * 2 ^ 10 + d.port.code * 2 ^ 19 + d.chipEntry.toNat * 2 ^ 22 + 2 ^ 63) with
          status := .ok }
      | none => s.sendForeman f { q (2 ^ 63) with status := .noRoute }

/-- The packets held for an EID leave by an exit. -/
def State.releaseHeld (s : State) (x : Site) (eid : Nat) (d : Dest) : State :=
  let held := (s.core x).missWait.filter fun h => h.pkt.dst == eid
  let s := s.onCore x fun c => { c with missWait := c.missWait.filter fun h => h.pkt.dst != eid }
  held.foldl (fun s h => s.inject x.key (h.pkt.toward d)) s

/-- DIRECTORY_ANSWER: the core installs the entry and the waiting operations go on, or end with NO_ROUTE. -/
def execDirectoryAnswer (p : Packet) (s : State) : Out :=
  .next <| if !bit p.data 63 then s else s.request p .directory fun s x =>
    match (s.core x).tagOf p.tag with
    | some (i, g) =>
      match g.use with
      | .miss eid =>
        if p.status ≠ .ok then s.missEnd x i eid .noRoute false
        else
          match Port.ofCode (bits p.data 21 19) with
          | some port =>
            let d : Dest := ⟨bits p.data 9 0, bits p.data 18 10, port, bit p.data 22⟩
            let s := s.onCore x fun c => (c.freeTagNo i false).bookInstall eid d
            (s.releaseHeld x eid d).remoteWake x
          | none => s
      | _ => s
    | none => s

/-- Whether another core of the engine answers to a local endpoint (R349). -/
def State.eidTaken (s : State) (x : Site) (l : Nat) : Bool :=
  match s.siteOf l with
  | some y => y != x
  | none => false

/-- A change of a ROUTER.EID invalidates every translation cache (R395). -/
def State.flushCaches (s : State) : State :=
  { s with seams := s.seams.mapVals (fun _ => Seam.reset) fun _ (l : Seam) => { l with cache := [] } }

/-- A write of ROUTER.EID: no thread of the core may make it, no held or fixed endpoint may be given (R349). -/
def State.writeEid (s : State) (w : Requester) (x : Site) (v : Word) : State :=
  let l := bits v.toNat 19 0
  match w with
  | .thread _ _ => s.onCore x Core.refuse
  | _ =>
    if 0xFFE00 ≤ l || s.eidTaken x l then s.onCore x Core.refuse
    else (s.onCore x fun c => { c with eidLocal := if l = x.key then none else some l }).flushCaches

def execEidWrite (w : Requester) (x : Site) (v : Word) (s : State) : Out :=
  .next (s.corePut w x fun s => s.writeEid w x v)

/-- A write of BOOKi_HI, which takes effect with the LO value then held; reserved bits stay zero (R353). -/
def Core.bookWrite (c : Core) (i : Nat) (v : Word) : Core :=
  let e := c.bookEntry i
  { c with book := c.book.set (fun _ => BookEntry.reset) i ⟨e.lo, e.lo, v &&& 0xFFFFFF80#32⟩ }
/-- A write of BOOKi_LO is held until the next write of HI. -/
def Core.bookLo (c : Core) (i : Nat) (v : Word) : Core :=
  { c with book := c.book.set (fun _ => BookEntry.reset) i { c.bookEntry i with lo := v } }

def execAddressBookWrite (w : Requester) (x : Site) (entry : Fin 256) (v : Word) (s : State) : Out :=
  .next (s.corePut w x fun s => s.onCore x fun c => c.bookWrite entry.val v)

/-! ## Tallies from afar (R357, R359, R363, R368 to R370) -/

/-- A packet for a tally: at a core, or at a foreman. -/
def State.tallyTakes (s : State) (p : Packet) (ty : PType) (k : State → TUnit → State) : State :=
  if (s.arrival p).isSome then s.request p ty fun s x => k s (.core x)
  else s.foremanTakes p ty fun s f => k s (.foreman f)

def execTallySignal (p : Packet) (s : State) : Out :=
  .next <| s.tallyTakes p .tallySignal fun s u => s.tallyIncrement u (bits p.arg 5 0) (bits p.data 31 0) p.src

/-- BARRIER fields (R333). -/
def barrierRound (p : Packet) : Nat := bits p.data 15 0
def barrierFrom (p : Packet) : Nat := bits p.data 22 17

/-- BARRIER_ARRIVAL: counted for its round, or answered with OVERRUN, or with BUSY where no registration is free. In
plain mode the arrival is an increment, and the child is registered. -/
def execBarrierArrival (p : Packet) (s : State) : Out :=
  .next <| if bit p.data 16 then s else s.tallyTakes p .barrier fun s u =>
    let i := bits p.arg 5 0
    let ty := s.tallyOf u i
    let answer (st : Status) (s : State) : State :=
      s.tallySend u (s.barrierPacket u i p.src (barrierFrom p) (barrierRound p) true st)
    let d := (barrierRound p + 2 ^ 16 - ty.round) % 2 ^ 16
    if d ≤ 1 ∧ 8 ≤ ty.regs.length then answer .busy (s.tallyRaise u i 0x0D03 .jobFatal)
    else
      let r := s.tallyArrive u i (barrierRound p) p.src fun next t =>
        { t with regs := t.regs ++ [⟨p.src, barrierFrom p, true, next⟩] }
      if r.2 then r.1 else answer .overrun r.1

/-- BARRIER_RELEASE (R370). -/
def execBarrierRelease (p : Packet) (s : State) : Out :=
  .next <| if !bit p.data 16 then s else s.tallyTakes p .barrier fun s u =>
    let i := bits p.arg 5 0
    let ty := s.tallyOf u i
    if !ty.forwarded || barrierRound p != ty.round then s.tallyRaise u i 0x0D02 .contained
    else if p.status = .ok then (s.closeRound u i).tallySettle u i
    else s

/-- TALLY_TIMEOUT: a TWAIT whose deadline has come ends with TIMEOUT (R363). -/
def execTallyTimeout (x : Site) (t : Fin 4) (s : State) : Out :=
  match (s.thread x t.val).wait with
  | .tally _ i =>
    let ty := (s.core x).tally i
    match ty.waiters.find? fun w => w.thread == t.val with
    | some w =>
      if w.deadline = 0 then .next s
      else
        let s := s.elapse (w.deadline - s.now x.field)
        let s := s.onCore x fun c => c.setTally i ((c.tally i).leave t.val)
        .next (s.releaseThread (.core x) .timeout w)
    | none => .next s
  | _ => .next s

end Sys2Proof.Machine
end

