-- ==== Sys2Proof/Machine/Mesh.lean ====
section
/-! DEFINITION. Routers, route holes and the route map (R18 to R23, R35, R36, R324 to R329, R336 to R347, R558). -/

namespace Sys2Proof.Machine

/-! ## The route map (R340, R35) -/

/-- Routers one step outside the rectangle, corners included, and those of a rectangle enlarged by `k` steps. -/
def Hole.within (h : Hole) (k x y : Nat) : Bool :=
  decide (h.x0 ≤ x + k ∧ x ≤ h.x1 + k ∧ h.y0 ≤ y + k ∧ y ≤ h.y1 + k)
def Hole.borders (h : Hole) (x y : Nat) : Bool := h.within 1 x y && !h.has x y
/-- Two rectangles that touch or lie one router apart (R35). -/
def Hole.close (a b : Hole) : Bool :=
  decide (a.x0 ≤ b.x1 + 2 ∧ b.x0 ≤ a.x1 + 2 ∧ a.y0 ≤ b.y1 + 2 ∧ b.y0 ≤ a.y1 + 2)
/-- The joint bounding rectangle. -/
def Hole.join (a b : Hole) : Hole := ⟨min a.x0 b.x0, max a.x1 b.x1, min a.y0 b.y0, max a.y1 b.y1, false⟩

/-- The holes that the router at (x, y) holds: those of the new map where a route update has already rewritten it (R342).
Routers inside an interior that parks know nothing of its hole (R347). From 5 µs after a stop every interior is one (R452). -/
def State.mapAt (s : State) (x y : Nat) : List Hole :=
  let m := match s.routePending with
    | some _ => ((s.rewritten.find? fun q => q.1 == y * 640 + x).map (·.2)).getD s.holes
    | none => s.holes
  let stop := if s.stopHolds then (List.range 48).map interiorHole else []
  ((m ++ stop).filter fun h => !(h.parked && h.has x y)) ++ foremanHoles
/-- The hole in which the router at (x, y) sees a neighbour. -/
def State.holeAt (s : State) (x y : Nat) (n : Nat × Nat) : Option Hole := (s.mapAt x y).find? fun h => h.has n.1 n.2
/-- The hole a router borders (ROUTER.RING_LO and RING_HI). -/
def State.ringOf (s : State) (x y : Nat) : Option Hole := (s.mapAt x y).find? fun h => h.borders x y

/-- Adds a rectangle to a map, merging until no two holes lie within one router of each other (R35); the fuel is the
number of holes. A merge with a foreman block keeps the block inside the joint rectangle. -/
def addHole : Nat → Hole → List Hole → List Hole
  | 0, h, l => l ++ [h]
  | n + 1, h, l =>
    match l.find? fun o => o.close h with
    | some o => addHole n (o.join h) (l.filter (· != o))
    | none =>
      match foremanHoles.find? fun o => o.close h && !(decide (h.x0 ≤ o.x0 ∧ o.x1 ≤ h.x1 ∧ h.y0 ≤ o.y0 ∧ o.y1 ≤ h.y1)) with
      | some o => addHole n (o.join h) l
      | none => l ++ [h]

/-- Whether a hole cuts the mesh: it touches two opposite edges of the wafer (R342). -/
def Hole.cuts (h : Hole) : Bool := (h.x0 == 0 && h.x1 == 639) || (h.y0 == 0 && h.y1 == 503)

/-- The sites of a rectangle. -/
def Hole.sites (h : Hole) : List Site :=
  (List.range (h.y1 + 1 - h.y0)).flatMap fun j =>
    (List.range (h.x1 + 1 - h.x0)).map fun i => ⟨Fin.ofNat 640 (h.x0 + i), Fin.ofNat 504 (h.y0 + j)⟩

/-- Whether a router forwards: it is no hole, not fenced, and has power — a gallery router from VGAL, an interior one
from its field (R18 to R21, R33, R341). -/
def State.routerOn (s : State) (x : Site) : Bool :=
  !x.foremanBlock && s.siteCode x != 5 && !s.fenced.contains x.key && !s.pithead.inReset &&
    (x.gallery || (s.field x.field).vcoreOn)

/-- Whether a router forwards heads now: its clock runs, too (R21, R427, R430). -/
def State.forwards (s : State) (x : Site) : Bool :=
  let fl := s.field x.field
  s.routerOn x && ((x.gallery && fl.onGalClk) || fl.clocked)

/-! ## The next hop (R337 to R339) -/

/-- The neighbour on a side; none beyond the wafer. -/
def neighbour (x y : Nat) (d : Side) : Option (Nat × Nat) :=
  match d with
  | .n => if y + 1 < 504 then some (x, y + 1) else none
  | .e => if x + 1 < 640 then some (x + 1, y) else none
  | .s => if 0 < y then some (x, y - 1) else none
  | .w => if 0 < x then some (x - 1, y) else none

/-- What a router does with a head. -/
inductive Hop
  /-- Out on its exit port. -/
  | exit
  /-- To a neighbour, in ring mode or not. -/
  | tgt (d : Side) (ring : Option (RingMode × Hole))
  /-- The router ends the packet (R344). -/
  | ends (st : Status)
  /-- The head waits for a VC2 credit. -/
  | waits
  /-- The head escapes to VC3 (R339). -/
  | escapes
deriving DecidableEq, Repr

/-- The dimension-order direction (R337); none at the exit router. -/
def dimensionOrder (x y tx ty : Nat) : Option Side :=
  if x < tx then some .e else if tx < x then some .w else if y < ty then some .n else if ty < y then some .s else none

/-- Whether a hole has a ring row or column on a side. -/
def Hole.ringSide (h : Hole) (d : Side) : Bool :=
  match d with
  | .n => decide (h.y1 < 503) | .e => decide (h.x1 < 639) | .s => decide (0 < h.y0) | .w => decide (0 < h.x0)
def opposite : Side → Side
  | .n => .s | .e => .w | .s => .n | .w => .e

/-- The side a packet takes as it meets a hole (R338); none where the hole reaches across the wafer. -/
def ringSideFor (h : Hole) (x y ty : Nat) (blockedY : Bool) : Option Side :=
  let d : Side :=
    if blockedY then (if x - h.x0 ≤ h.x1 - x then .w else .e)
    else if y < ty then .n else if ty < y then .s
    else if h.y1 + 1 - y ≤ y + 1 - h.y0 then .n else .s
  if h.ringSide d then some d else if h.ringSide (opposite d) then some (opposite d) else none

/-- One hop along the ring of a hole. -/
def ringHop (h : Hole) (m : RingMode) (x y tx ty : Nat) : Side :=
  if m.blockedY then
    let goingN := decide (y < ty)
    let far := if goingN then h.y1 + 1 else h.y0 - 1
    let col := match m.side with | .w => h.x0 - 1 | _ => h.x1 + 1
    if y = far ∨ ty = y then (if x < tx then .e else .w)
    else if x = col then (if goingN then .n else .s)
    else m.side
  else
    let row := match m.side with | .n => h.y1 + 1 | _ => h.y0 - 1
    if y = row then (if x < tx then .e else .w) else m.side

/-- Whether a packet in ring mode leaves it at this router. -/
def ringLeaves (h : Hole) (m : RingMode) (x y tx ty : Nat) : Bool :=
  if m.blockedY then x == tx && ((h.y1 < y && decide (h.y1 < ty)) || (decide (y < h.y0) && decide (ty < h.y0)))
  else
    let row := match m.side with | .n => h.y1 + 1 | _ => h.y0 - 1
    y == row && (x == tx || (decide (x < tx) && x == h.x1 + 1) || (decide (tx < x) && x + 1 == h.x0))

/-- Deterministic routing at a router. A packet goes on in ring mode only where the router borders the hole it travels
round (R342). -/
def State.plainHop (s : State) (q : Flight) (x y : Nat) : Hop :=
  let p := q.pkt
  let ring := match p.ring, q.around with
    | some m, some h => if s.ringOf x y ≠ some h || ringLeaves h m x y p.tx p.ty then none else some (m, h)
    | _, _ => none
  match ring with
  | some (m, h) => .tgt (ringHop h m x y p.tx p.ty) (some (m, h))
  | none =>
    match dimensionOrder x y p.tx p.ty with
    | none => .exit
    | some d =>
      match neighbour x y d with
      | none => .ends .noRoute
      | some n =>
        match s.holeAt x y n with
        | none => .tgt d none
        | some h =>
          let blockedY := d == .n || d == .s
          match ringSideFor h x y p.ty blockedY with
          | none => .ends .noRoute
          | some side =>
            let m : RingMode := ⟨blockedY, side⟩
            .tgt (ringHop h m x y p.tx p.ty) (some (m, h))

/-- Ports that bring a VC2 head nearer and face no hole, edge or foreman block. -/
def State.productive (s : State) (p : Packet) (x y : Nat) : List Side :=
  ([(Side.e, decide (x < p.tx)), (.w, decide (p.tx < x)), (.n, decide (y < p.ty)), (.s, decide (p.ty < y))].filter
    fun q => q.2 && (match neighbour x y q.1 with | some n => (s.holeAt x y n).isNone | none => false)).map (·.1)

/-- Credits of an output for a virtual channel: 8 on an inner link, 24 on a boundary link (R346). -/
def fullCredits (x y : Nat) (d : Side) : Nat :=
  match neighbour x y d with
  | some n => if n.1 / 80 = x / 80 ∧ n.2 / 84 = y / 84 then 8 else 24
  | none => 8
/-- Index of a side among N, E, S, W. -/
def Side.index : Side → Nat
  | .n => 0 | .e => 1 | .s => 2 | .w => 3

/-- Whether port a is chosen before port b: by share of credits, then remaining distance, then X (R339). -/
def portBefore (p : Packet) (x y : Nat) (credits : List Nat) (a b : Side) : Bool :=
  let ca := min (credits.getD (Side.index a) 0) (fullCredits x y a)
  let cb := min (credits.getD (Side.index b) 0) (fullCredits x y b)
  let l := ca * fullCredits x y b
  let r := cb * fullCredits x y a
  let dist (d : Side) : Nat :=
    if d = .e ∨ d = .w then (p.tx - x) + (x - p.tx) else (p.ty - y) + (y - p.ty)
  if l ≠ r then decide (r < l)
  else if dist a ≠ dist b then decide (dist b < dist a)
  else a == .e || a == .w

/-- Adaptive routing of a VC2 head, given the credits the router holds on N, E, S and W. -/
def State.adaptiveHop (s : State) (p : Packet) (x y : Nat) (credits : List Nat) : Hop :=
  if x = p.tx ∧ y = p.ty then .exit
  else
    let ps := s.productive p x y
    if ps = [] then .escapes
    else
      match ps.filter fun d => 0 < credits.getD (Side.index d) 0 with
      | [] => .waits
      | d :: ds => .tgt (ds.foldl (fun best c => if portBefore p x y credits c best then c else best) d) none

/-! ## Credits (R323, R330, R338, R346) -/

def State.link (s : State) (x : Nat) (d : Side) : Link := s.links.get (fun _ => Link.reset) (4 * x + Side.index d)
def State.setLink (s : State) (x : Nat) (d : Side) (l : Link) : State :=
  { s with links := s.links.set (fun _ => Link.reset) (4 * x + Side.index d) l }
def laneKey (vc : Nat) (lane : Bool) : Nat := 2 * vc + lane.toNat
/-- Flits that the buffer behind an output takes: a ring lane holds 4 less than the channel's own buffer. -/
def fullRoom (x : Site) (d : Side) (lane : Bool) : Nat := fullCredits x.x.val x.y.val d - (if lane then 4 else 0)
/-- The credits a router holds for a channel, or its ring lane, of an output. -/
def State.room (s : State) (x : Site) (d : Side) (vc : Nat) (lane : Bool) : Nat :=
  fullRoom x d lane - (s.link x.key d).used.get (fun _ => 0) (laneKey vc lane)
def State.credits2 (s : State) (x : Site) : List Nat := [Side.n, .e, .s, .w].map fun d => s.room x d 2 false

/-- The receiver of a link returns one credit: its counter moves on, and the sender takes the difference from the last
counter it has received. -/
def Link.return_ (l : Link) (vc : Nat) (lane : Bool) : Link :=
  let c := (l.returned.get (fun _ => 0) vc + 1) % 4
  let back := (c + 4 - l.seen.get (fun _ => 0) vc) % 4
  let u := l.used.get (fun _ => 0) (laneKey vc lane)
  { l with
    returned := l.returned.set (fun _ => 0) vc c, seen := l.seen.set (fun _ => 0) vc c
    used := l.used.set (fun _ => 0) (laneKey vc lane) (u - back) }

/-- The side that an input port faces; none for a port of the router's own. -/
def inputSide : Nat → Option Side
  | 1 => some .n | 2 => some .e | 3 => some .s | 4 => some .w | _ => none
/-- A code of an input or output port of a router: 1 N, 2 E, 3 S, 4 W. -/
def Side.portNo (d : Side) : Nat := Side.index d + 1

/-- Flits leave an input buffer of a router, one after another: each returns a credit to the neighbour. -/
def State.freeFlits (s : State) (x : Site) (inp vc : Nat) (lane : Bool) (n : Nat) : State :=
  match (inputSide inp).bind fun d => (neighbour x.x.val x.y.val d).map fun u => (u.2 * 640 + u.1, opposite d) with
  | some (u, d) => s.setLink u d ((List.range n).foldl (fun l _ => l.return_ vc lane) (s.link u d))
  | none => s

/-- The counters of a router that sends flits of a packet on a link. -/
def Core.countFlits (c : Core) (vc n : Nat) : Core :=
  c.count (match vc with | 0 => 0x234 | 1 => 0x238 | 2 => 0x23C | _ => 0x240) n
/-- Flits leave a router on an output: each takes a credit. -/
def State.sendFlits (s : State) (x : Site) (d : Side) (vc : Nat) (lane : Bool) (n : Nat) : State :=
  let l := s.link x.key d
  (s.setLink x.key d { l with
    used := l.used.set (fun _ => 0) (laneKey vc lane) (l.used.get (fun _ => 0) (laneKey vc lane) + n) }).onCore x
      fun c => c.countFlits vc n

/-- Whether the active slot entry names a scheduled flit for output k (1 N to 4 W) in the present beat (R212, R326). -/
def State.slotTakes (s : State) (x : Site) (k : Nat) : Bool :=
  let fl := s.field x.field
  fl.sched == .beats && fl.clocked && !fl.frozen && !(fl.drain.any fun d => d.beatsLeft == 0) &&
    match (s.core x).active with
    | some (_, d) => bits (d.get (fun _ => 0) (768 + 8 * fl.beat + (k - 1) / 2)).toNat (4 * ((k - 1) % 2) + 3) (4 * ((k - 1) % 2)) != 0
    | none => false

/-- Whether a router can put packet flits on an output now: its clock runs, and the output carries no scheduled flit (R326). -/
def State.outputOpen (s : State) (x : Site) (d : Side) : Bool := s.forwards x && !s.slotTakes x (Side.portNo d)

/-- One pass over what follows a head: into the buffer of `vc` and `lane`, which then holds `ahead` flits, move as many
flits as there are credits where the output is open, and so on backward. What it answers: the flits ahead, the segments, the state. -/
def State.moveUp (s : State) (vc : Nat) (lane : Bool) (ahead : Nat) : List Seg → Nat × List Seg × State
  | [] => (ahead, [], s)
  | g :: gs =>
    let x := Site.ofKey g.at_
    let k := if s.outputOpen x g.out then min g.flits (s.room x g.out vc lane) else 0
    let r := ((s.sendFlits x g.out vc lane k).freeFlits x g.inp g.vc g.lane k).moveUp g.vc g.lane (g.flits - k) gs
    (ahead + k, { g with flits := r.1 } :: r.2.1, r.2.2)
/-- Segments past the tail hold their outputs no more. -/
def trimTrail (l : List Seg) : List Seg := (l.reverse.dropWhile fun g => g.flits == 0).reverse
/-- What follows a head moves up as far as credits go; the fuel bounds the hops of a flit. -/
def State.follow : Nat → State → Flight → Flight × State
  | 0, s, q => (q, s)
  | n + 1, s, q =>
    let r := s.moveUp q.vc q.lane q.here q.trail
    r.2.2.follow n { q with here := r.1, trail := trimTrail r.2.1 }

/-- The packets that have left nothing to settle, and those whose flits move up. -/
def State.settleOnce (s : State) : State :=
  let r := s.net.foldl (fun (acc : List Flight × State) q =>
    let v := if q.exited || q.trail.isEmpty then (q, acc.2) else acc.2.follow q.trail.length q
    (acc.1 ++ [v.1], v.2)) ([], s)
  { r.2 with net := r.1 }
/-- Flits move up wherever credits have come free; the fuel is the number of packets. -/
def State.settle (s : State) : State := (List.range s.net.length).foldl (fun s _ => s.settleOnce) s

/-- All flits of a packet come through to where its head stands, and leave every buffer there: `here` flits in the head's
buffer, and those that follow. -/
def State.absorb (s : State) (x : Site) (inp vc : Nat) (lane : Bool) (here : Nat) : List Seg → State
  | [] => s.freeFlits x inp vc lane here
  | g :: gs =>
    let n := (gs.map (·.flits)).foldl (· + ·) g.flits
    let u := Site.ofKey g.at_
    ((s.sendFlits u g.out vc lane n).freeFlits x inp vc lane (here + n)).absorb u g.inp g.vc g.lane g.flits gs

/-! ## Sharing a link (R326) -/

/-- What the router at a site does with a head: first the endings of R344, then routing. -/
def State.hop (s : State) (q : Flight) (x : Site) : Hop :=
  let p := q.pkt
  let px := x.x.val
  let py := x.y.val
  let routed := if p.vc = 2 then s.adaptiveHop p px py (s.credits2 x) else s.plainHop q px py
  match s.ringOf px py with
  | some h => if h.has p.tx p.ty then .ends (if h.parked then .targetSealed else .noRoute) else routed
  | none => routed

/-- Whether two packets stand in one buffer; packets that a router's own ports bring wait by source. -/
def Flight.sameBuffer (a b : Flight) : Bool :=
  a.at_ == b.at_ && a.inp == b.inp && a.vc == b.vc && a.lane == b.lane && (a.inp != 0 || a.pkt.src == b.pkt.src)
/-- Whether flits of a packet that follow its head stand in a head's buffer. -/
def Flight.tailIn (a b : Flight) : Bool :=
  a.trail.any fun g => g.at_ == b.at_ && g.inp == b.inp && g.vc == b.vc && g.lane == b.lane && decide (0 < g.flits) &&
    (g.inp != 0 || a.pkt.src == b.pkt.src)
/-- Whether a head is at the front of its input buffer. -/
def State.front (s : State) (q : Flight) : Bool :=
  !(s.net.any fun a => a.tailIn q) &&
    decide ((s.net.find? fun a => !a.exited && a.sameBuffer q) = some q)

/-- Whether another packet holds a channel of an output (R330). -/
def State.outputHeld (s : State) (x : Site) (d : Side) (vc : Nat) (lane : Bool) : Bool :=
  s.net.any fun a => !a.exited &&
    (a.trail.zip ((a.vc, a.lane) :: a.trail.map fun g => (g.vc, g.lane))).any fun e =>
      e.1.at_ == x.key && e.1.out == d && e.2.1 == vc && e.2.2 == lane

/-- The output, channel and lane for which a head is ready: it is at the front of its buffer, its packet can hold the
channel, and the router has a credit. -/
def State.wants (s : State) (q : Flight) : Option (Side × Nat × Bool) :=
  let x := Site.ofKey q.at_
  if q.exited || !s.front q then none
  else
    match s.hop q x with
    | .tgt d ring =>
      let lane := ring.isSome
      if s.outputHeld x d q.pkt.vc lane || s.room x d q.pkt.vc lane == 0 then none else some (d, q.pkt.vc, lane)
    | _ => none

/-- VC0 goes before VC1, and VC1 before VC2 and VC3. -/
def vcClass (vc : Nat) : Nat := min vc 2
/-- Place of an input in the round of one output channel, after the input served last. -/
def turnOf (last inp : Nat) : Nat := (inp + 9 - last) % 5

/-- Whether the head of `q`, ready for channel `vc` of an output, is the one the link sends. -/
def State.wins (s : State) (q : Flight) (d : Side) (vc : Nat) : Bool :=
  let l := s.link q.at_ d
  let last (v : Nat) : Nat := l.served.get (fun _ => 4) v
  s.net.all fun a =>
    a == q || a.at_ != q.at_ ||
      match s.wants a with
      | some (d', v, _) =>
        d' != d || decide (vcClass vc < vcClass v) ||
          (vcClass v == vcClass vc &&
            if v = vc then decide (turnOf (last v) q.inp ≤ turnOf (last v) a.inp) else l.turn3 == decide (vc = 3))
      | none => true

/-! ## Heads move (R337 to R344, R558) -/

/-- The head at a router that carries a packet: of several with the same one, the oldest that may go now. -/
def State.flight (s : State) (x : Site) (p : Packet) : Option Flight :=
  let l := s.net.filter fun q => q.at_ == x.key && q.pkt == p && s.front q
  (l.find? fun q => match s.wants q with | some (d, vc, _) => s.wins q d vc | none => true) <|> l.head?
/-- Another flight in its place; none takes it off the wafer. -/
def State.onFlight (s : State) (q : Flight) (r : Option Flight) : State :=
  { s with net := match r with
      | some r => s.net.map fun a => if a = q then r else a
      | none => s.net.erase q }

/-- A head moves to VC3 at this router. -/
def State.escape (s : State) (x : Site) (q : Flight) : State :=
  (s.onFlight q (some { q with pkt := { q.pkt with vc := 3, escape := true } })).onCore x fun c => c.count 0x244 1

/-- A router next to a site that goes on forwarding, from which a notice about what was lost there starts; where there is
none, the gallery router of its row. -/
def besides (on : Nat → Bool) (x : Site) : Site :=
  ((([Side.n, .e, .s, .w].filterMap fun d => neighbour x.x.val x.y.val d).filterMap fun q => Site.at? q.1 q.2).find? fun y =>
    on y.key).getD ⟨Fin.ofNat 640 (x.x.val / 80 * 80), x.y⟩

/-- A packet ends at the router where its head stands: its flits are discarded as they come. -/
def State.gone (s : State) (x : Site) (q : Flight) : State :=
  (s.onFlight q none).absorb x q.inp q.vc q.lane q.here q.trail

/-- A head that can no longer be sent on: the packet is lost with a notice (R343). -/
def State.truncate (s : State) (x : Site) (q : Flight) : State := (s.gone x q).losePacket x q.pkt

/-- Whether a fixed endpoint of this engine serves a packet of a type (R559). -/
def servedAt (l : Nat) (t : PType) : Bool :=
  if l < 0xFFE20 then t == .tallySignal
  else if 0xFFF00 ≤ l ∧ l < 0xFFF30 then t == .directory || t == .tallySignal || t == .barrier || t == .heartbeat
  else if l = eidPithead then t == .tallySignal || t == .heartbeat
  else false
/-- Whether a local endpoint is assigned (R348). -/
def assigned (l : Nat) : Bool :=
  decide (l < 0xFFE20 ∨ (0xFFE40 ≤ l ∧ l < 0xFFEA0) ∨ (0xFFF00 ≤ l ∧ l < 0xFFF30)) ||
    [eidHostA, eidHostB, eidPithead].contains l
/-- The status with which a packet that has reached its exit is discarded there: one for an unassigned endpoint (R348), or
for a fixed endpoint that does not serve it (R559). The units behind such endpoints make their own requests without
packets here, so no answer to them is due. -/
def State.unserved (s : State) (p : Packet) : Option Status :=
  let l := eidLocal p.dst
  if eidChip p.dst != s.chip || decide (l < 0xFFE00) then none
  else if !assigned l then some .noRoute
  else if servedAt l p.ptype then none else some .addrRange

/-- A packet leaves on its exit port, whole; one of a reserved type is discarded at a core and counted (R331). -/
def State.exits (s : State) (x : Site) (q : Flight) : State :=
  let p := q.pkt
  let t := s.gone x q
  let reserved := match p.ptype with | .reserved _ => true | _ => false
  if p.port = .local_ ∧ s.siteCode x = 4 then t.endPacket x p .targetSealed
  else
    match s.unserved p with
    | some st => t.endPacket x p st
    | none =>
      if reserved && p.port == .local_ then t.onCore x fun c => c.count 0x254 1
      else ({ t with net := t.net ++ [Flight.landed x.key { p with ring := none }] }).stirs x.field

/-- A head goes on to a neighbour, and what follows it moves up. -/
def State.advance (s : State) (x y : Site) (q : Flight) (d : Side) (ring : Option (RingMode × Hole)) : State :=
  let p := q.pkt
  let lane := ring.isSome
  let l := s.link x.key d
  let s := s.setLink x.key d { l with
    served := l.served.set (fun _ => 4) p.vc q.inp, turn3 := if p.vc = 2 then true else if p.vc = 3 then false else l.turn3 }
  let s := (s.sendFlits x d p.vc lane 1).freeFlits x q.inp q.vc q.lane 1
  let trail := if q.here = 1 && q.trail.isEmpty then [] else ⟨x.key, q.inp, q.vc, q.lane, q.here - 1, d⟩ :: q.trail
  let r : Flight :=
    { at_ := y.key, exited := false, pkt := { p with ring := ring.map (·.1) }, inp := Side.portNo (opposite d), vc := p.vc
      lane := lane, here := 1, around := ring.map (·.2), trail := trail }
  let s := { s with net := s.net.erase q ++ [r] }
  let s := if lane then s.onCore x fun c => c.count 0x248 1 else s
  let s := if x.gallery && s.holes.contains (interiorHole x.field) then s.scount (pageGallery x.field + 0x048) 1 else s
  ((s.settle).stirs x.field).stirs y.field

/-- Whether flits that follow a head stand in a router whose clock does not run, so that they cannot come through. -/
def Flight.stuck (q : Flight) (s : State) : Bool := q.trail.any fun g => !s.forwards (Site.ofKey g.at_)

/-- One head at one router. Where it has to wait, the flits that follow other heads move up all the same. -/
def State.routeHead (s : State) (x : Site) (q : Flight) : State :=
  match s.hop q x with
  | .exit => if q.stuck s then s.settle else (s.exits x q).settle
  | .ends st => ((s.gone x q).endPacket x q.pkt st).settle
  | .waits => s.settle
  | .escapes => s.escape x q
  | .tgt d ring =>
    match (neighbour x.x.val x.y.val d).bind fun n => Site.at? n.1 n.2 with
    | none => s
    | some y =>
      if s.siteCode y = 5 then (s.truncate x q).settle
      else if (s.wants q).isNone || !s.wins q d q.pkt.vc || !s.outputOpen x d then s.settle
      else s.advance x y q d ring

/-- HEAD_ROUTE: a head at the front of its buffer is routed; one that is not, or that loses the output to another, waits.
While the galleries' rail or the auxiliary rail is out of tolerance, traffic through galleries is undefined (R552). -/
def execHeadRoute (x : Site) (p : Packet) (s : State) : Out :=
  match s.flight x p with
  | none => .next s
  | some q =>
    if !s.forwards x then .next s
    else if x.gallery && s.rimLost then .fault .galleryRailLost
    else .next (s.routeHead x q)

/-- VC2_ESCAPE: a VC2 head has waited 32 cycles without a credit on any productive port. -/
def execVc2Escape (x : Site) (p : Packet) (s : State) : Out :=
  match s.flight x p with
  | none => .next s
  | some q =>
    if s.forwards x && decide (p.vc = 2) && decide (s.hop q x = .waits) then .next (s.escape x q) else .next s

/-! ## Link errors (R324, R325) -/

/-- A packet whose head or body has come through an input of a router. -/
def Flight.cameIn (q : Flight) (x : Nat) (inp : Nat) : Bool :=
  !q.exited && ((q.at_ == x && q.inp == inp) || q.trail.any fun g => g.at_ == x && g.inp == inp)

/-- A flit as its sender puts it on the link to input `side` of router x: its 256 data bits and its sideband (R321, R322). -/
def State.sentFlit (s : State) (x : Site) (side : Side) (flit : BadFlit) : Nat × Nat :=
  let credit (v : Nat) : Nat := (s.link x.key side).returned.get (fun _ => 0) v
  match flit with
  | .idle => (0, sideband 0 credit 0 0)
  | .scheduled =>
    match (s.core x).inputs.get (fun _ => none) (Side.portNo side) with
    | some f =>
      let data := leNat (f.data.map BitVec.toNat)
      (data, sideband 1 credit (f.void.toNat * 16 + f.tokValid.toNat * 8 + f.token % 8) data)
    | none => (0, sideband 1 credit 16 0)
  | .head p => let p := { p with poisoned := false }
    (p.headBits, sideband 2 credit (packetLow p.vc true (p.flits == 0) false) p.headBits)
  | .payload p k =>
    let data := leNat ((((p.payload.drop (32 * k)).take 32)).map BitVec.toNat)
    (data, sideband 2 credit (packetLow p.vc false (k + 1 == p.flits) p.poisoned) data)
/-- Whether a flit fails its CRC when these bits of it, data below sideband, arrive inverted. -/
def State.flitFails (s : State) (x : Site) (side : Side) (flit : BadFlit) (errs : BitVec 288) : Bool :=
  let f := s.sentFlit x side flit
  !flitPasses (f.1 ^^^ bits errs.toNat 255 0) (f.2 ^^^ bits errs.toNat 287 256)

/-- LINK_CRC_ERROR: what the receiver makes of a flit that fails. The counters the flit carried are not taken; the next
good flit brings them. -/
def execLinkCrcError (x : Site) (side : Side) (flit : BadFlit) (errs : BitVec 288) (s : State) : Out :=
  if !s.forwards x || !s.flitFails x side flit errs then .next s
  else
    let s := (s.onCore x fun c => c.count 0x24C 1).scount (pageRoute x.field + 0x048) 1
    match flit with
    | .idle => .next s
    | .scheduled =>
      .next ((s.onCore x fun c =>
        { c with inputs := c.inputs.set (fun _ => none) (Side.portNo side) (some Flit.mkVoid) }).raiseCore x 0x0C01 .jobFatal
          (Side.portNo side))
    | .head p =>
      match s.net.find? fun q => q.at_ == x.key && q.inp == Side.portNo side && q.pkt == p && !q.exited with
      | some q => .next ((s.gone x q).settle.raiseCore x 0x0C02 .contained (Side.portNo side))
      | none => .next s
    | .payload p _ =>
      match s.net.find? fun q => q.cameIn x.key (Side.portNo side) && q.pkt == p with
      | some q => .next (s.onFlight q (some { q with pkt := { p with poisoned := true } }))
      | none => .next s

/-! ## Deaths and route updates (R341, R342) -/

/-- Flits in buffers of routers that forward no more are gone. -/
def State.dropSegs (s : State) (l : List Seg) : State :=
  l.foldl (fun s g => s.freeFlits (Site.ofKey g.at_) g.inp g.vc g.lane g.flits) s

/-- A packet some of whose routers forward no more (R343, R558). With its head among them it is truncated by the nearest
router behind the head that still forwards, or, wholly inside, by one beside it, and a notice tells its source. With the
head outside, the flits ahead of the break go on, closed by a tail flit with poisoned set, and the router that closes them sends the
notice; the destination answers as well. -/
def State.strand (s : State) (on : Nat → Bool) (q : Flight) : State :=
  if on q.at_ then
    let kept := q.trail.takeWhile fun g => on g.at_
    let s := s.dropSegs (q.trail.drop kept.length)
    let r := if kept = [] then { q with here := q.here + 1, trail := [] }
      else { q with trail := kept.dropLast ++ (kept.getLast?.map fun g => { g with flits := g.flits + 1 }).toList }
    (s.onFlight q (some { r with pkt := { q.pkt with poisoned := true } })).losePacket
      (Site.ofKey ((kept.getLast?.map (·.at_)).getD q.at_)) q.pkt
  else
    let s := ((s.onFlight q none).dropSegs q.trail).freeFlits (Site.ofKey q.at_) q.inp q.vc q.lane q.here
    match q.trail.find? fun g => on g.at_ with
    | some g => s.losePacket (Site.ofKey g.at_) q.pkt
    | none => s.losePacket (besides on (Site.ofKey q.at_)) q.pkt
/-- Whether a packet on its way has flits or a head in a router that forwards no more. -/
def Flight.broken (q : Flight) (on : Nat → Bool) : Bool := !q.exited && (!on q.at_ || q.trail.any fun g => !on g.at_)
/-- Packets in routers that forward no more are truncated. -/
def State.strandBy (s : State) (on : Nat → Bool) : State :=
  ((s.net.filter fun q => q.broken on).foldl (fun s q => s.strand on q) s).settle
def State.strandAll (s : State) : State := s.strandBy fun k => s.routerOn (Site.ofKey k)

/-- The route map with a new single-site hole, merged where it lies within one router of another (R341). -/
def State.mapWith (s : State) (x : Site) : List Hole :=
  let base := s.routePending.getD s.holes
  addHole (base.length + 49) ⟨x.x.val, x.x.val, x.y.val, x.y.val, false⟩ base

/-- A router has died during a run: its site is a HOLE at once, its core is off, and a route update is due.
Routers that an update in progress has rewritten keep what they hold (R342). -/
def State.routerDies (s : State) (x : Site) : State :=
  if s.siteCode x = 5 || x.foremanBlock then s
  else
    let next := s.mapWith x
    (({ s with routePending := some next }).sealCore x 5).strandAll

def execRouterDeath (x : Site) (s : State) : Out := .next (s.routerDies x)

/-- LINK_DEAD: the router at the sending end counts as dead. -/
def execLinkDead (x : Site) (side : Side) (s : State) : Out :=
  match (neighbour x.x.val x.y.val side).bind fun q => Site.at? q.1 q.2 with
  | some y =>
    if s.routerOn x && s.siteCode y != 5 && !y.foremanBlock then
      let s := s.scount (pageRoute x.field + 0x04C) 1
      let s := s.raise x.field (.space (pageFieldctl x.field)) ⟨0x0C03, .contained, 1, siteWord x (Side.portNo side)⟩
      .next (s.routerDies y)
    else .next s
  | none => .next s

/-- A live router inside a merged rectangle is fenced: it forwards nothing, its core stops (R341). -/
def State.fence (s : State) (x : Site) : State :=
  let s := { s with fenced := s.fenced ++ [x.key] }
  let s := s.onCore x fun c => { Core.reset with eidLocal := c.eidLocal }
  let s := s.onPithead fun p => { p with job := p.job.map fun j => { j with fenced := j.fenced + 1 } }
  let s := s.faultEntry 3 (s.siteCode x) (siteWord x 0) 0 0
  s.raise x.field (.space (pageFieldctl x.field)) ⟨0x0C05, .contained, 2, siteWord x 0⟩

/-- The routers a new map encloses that still work. -/
def State.newlyFenced (s : State) (next : List Hole) : List Site :=
  (next.filter fun h => !s.holes.contains h && !h.parked).flatMap fun h =>
    h.sites.filter fun x => s.routerOn x

/-- ROUTE_MAP_UPDATE: the pithead has written the new map into one router, or with none named into the last of them: the
update ends (R342). -/
def execRouteMapUpdate (x : Option Site) (s : State) : Out :=
  match s.routePending, x with
  | none, _ => .next s
  | some next, some x => .next { s with rewritten := (x.key, next) :: s.rewritten.filter (·.1 != x.key) }
  | some next, none =>
    let fence := s.newlyFenced next
    let cut := next.find? fun h => h.cuts && !s.holes.contains h
    let s := { s with holes := next, routePending := none, rewritten := [] }
    let s := (fence.foldl (fun s x => s.fence x) s).strandAll
    match cut with
    | some h => .next (s.raise (h.y0 / 84 * 8 + h.x0 / 80) (.space pagePithead)
        ⟨0x0C06, .engineFatal, 3, fieldWord (h.y0 / 84 * 8 + h.x0 / 80) 0⟩)
    | none => .next s

end Sys2Proof.Machine
end

