-- ==== Sys2Proof/Machine/ShiftDesc.lean ====
section
/-! DEFINITION. Shift descriptors (R209 to R218, R230): their fields and the checks of R210. -/

namespace Sys2Proof.Machine

/-- The 2,048 bytes of a descriptor by their number; bytes not listed are zero. -/
abbrev Shift := SMap Byte

/-- A little-endian field of n bytes. -/
def Shift.le (d : Shift) (off n : Nat) : Nat := leNat ((List.range n).map fun i => (d.get (fun _ => 0) (off + i)).toNat)
def Shift.byte (d : Shift) (off : Nat) : Nat := (d.get (fun _ => 0) off).toNat
def Shift.zero (d : Shift) (off n : Nat) : Bool := (List.range n).all fun i => d.byte (off + i) == 0

/-! ## Header (R209) -/

def Shift.owner (d : Shift) : Nat := bits (d.byte 1) 0 0
def Shift.stationary (d : Shift) : Bool := bit (d.byte 1) 1
def Shift.chuteMask (d : Shift) (e : Nat) : Bool := bit (d.le 4 4) e
def Shift.windowMask (d : Shift) (w : Nat) : Bool := bit (d.le 8 2) w
def Shift.enters (d : Shift) : List Nat := (List.range 4).filter fun t => bit (d.byte 10) t
def Shift.commands (d : Shift) : Nat := d.byte 11
/-- Entry point of a thread as a byte address. -/
def Shift.entry (d : Shift) (t : Nat) : Nat := bits (d.le (12 + 2 * t) 2) 14 0 * 4
def Shift.expectWidth (d : Shift) : Nat := d.byte 27
/-- Beats in which every scheduled flit reaches its end; the empty shift's is 1 (R227). -/
def Shift.drainBeats (d : Shift) : Nat := d.le 32 2

/-- The stationary tile as a load into a bank (R229). -/
def Shift.load (d : Shift) (bank : Nat) : LoadArgs :=
  let s := d.le 20 4
  ⟨bank, bits s 16 0, bits s 29 17 * 16, bits (d.byte 25) 7 3 + 1, d.byte 24, bits (d.byte 25) 2 0, d.le 28 4⟩
def Shift.preferred (d : Shift) : Nat := bits (d.byte 26) 0 0

/-! ## Cursors, units, entries, commands -/

/-- A stream cursor (R211). -/
structure Cursor where
  kind : Nat
  endpoint : Nat
  base : Nat
  length : Nat
  keep : Bool
deriving DecidableEq, Repr

def Shift.cursor (d : Shift) (k : Nat) : Cursor :=
  let o := 64 + 16 * k
  ⟨d.byte o, bits (d.byte (o + 1)) 4 0, d.le (o + 4) 4, d.le (o + 8) 4, bit (d.byte (o + 12)) 0⟩

/-- A steering unit's configuration (R216). -/
structure Unit2 where
  mode : Nat
  mergeMask : Nat
  dataEp : Nat
  /-- Tokens come from the unit's token queue. -/
  ownTokens : Bool
  tokenEp : Nat
  /-- Endpoints ep0 to ep3 that are valid. -/
  eps : List (Option Nat)
  outEp : Nat
deriving DecidableEq, Repr

def Shift.unit (d : Shift) (u : Nat) : Unit2 :=
  let o := 192 + 16 * u
  { mode := d.byte o, mergeMask := d.byte (o + 1), dataEp := bits (d.byte (o + 2)) 4 0
    ownTokens := bit (d.byte (o + 3)) 5, tokenEp := bits (d.byte (o + 3)) 4 0
    eps := (List.range 4).map fun i =>
      let b := d.byte (o + 4 + i)
      if bit b 7 then some (bits b 4 0) else none
    outEp := bits (d.byte (o + 8)) 4 0 }
/-- Static steer and static merge (R218). -/
def Unit2.static (u : Unit2) : Bool := u.mode == 1 || u.mode == 2

/-- A slot entry (R212). -/
structure Entry where
  /-- Sources of the outputs N, E, S, W and L. -/
  outs : List Nat
  rdCursor : Nat
  wrCursor : Nat
  delayIn : Nat
  /-- Data and token source of each steering unit. -/
  data : Nat → Nat
  token : Nat → Nat

def Shift.entryWord (d : Shift) (i : Nat) : Nat := d.le (768 + 8 * i) 8
def Entry.of (w : Nat) : Entry :=
  { outs := (List.range 5).map fun k => bits w (4 * k + 3) (4 * k)
    rdCursor := bits w 22 20, wrCursor := bits w 26 24, delayIn := bits w 31 28
    data := fun u => bits w (35 + 8 * u) (32 + 8 * u), token := fun u => bits w (39 + 8 * u) (36 + 8 * u) }
def Shift.slot (d : Shift) (i : Nat) : Entry := Entry.of (d.entryWord i)

/-- Whether unit u fires from an entry (R218). -/
def Shift.fires (d : Shift) (e : Entry) (u : Nat) : Bool := (d.unit u).static && e.token u != 15

/-- The source codes an entry's checked fields hold. -/
def Shift.codes (d : Shift) (e : Entry) : List Nat :=
  e.outs ++ [e.delayIn] ++ (List.range 2).flatMap fun u =>
    if d.fires e u then (if (d.unit u).mode = 1 then [e.data u, e.token u] else [e.token u]) else []
/-- Whether an entry reads its rd_cursor: a field uses code 5, or a merge that fires takes it as a candidate. -/
def Shift.usesRead (d : Shift) (e : Entry) : Bool :=
  (d.codes e).contains 5 || (List.range 2).any fun u => d.fires e u && (d.unit u).mode == 2 && bit (d.unit u).mergeMask 4
/-- Whether an entry takes the head of the delay line. -/
def Shift.usesDelay (d : Shift) (e : Entry) : Bool :=
  e.outs.contains 8 || (List.range 2).any fun u => d.fires e u &&
    (if (d.unit u).mode = 1 then e.data u == 8 else bit (d.unit u).mergeMask 5)
/-- Times an entry reads unit u's token queue. -/
def Shift.usesTokens (d : Shift) (e : Entry) (u : Nat) : Bool := d.fires e u && e.token u == 14

/-- A command table entry (R230). -/
structure TableCmd where
  kind : Option ACmdKind
  ga : Nat
  gb : Nat
  beat : Nat
  every : Nat
  phase : Nat
deriving DecidableEq, Repr

def ACmdKind.ofFunc : Nat → Option ACmdKind
  | 0 => some .aload | 1 => some .aopen | 2 => some .apass | 3 => some .aclose | _ => none
def Shift.cmd (d : Shift) (j : Nat) : TableCmd :=
  let o := 256 + 32 * j
  ⟨ACmdKind.ofFunc (d.byte (o + 16)), d.le o 8, d.le (o + 8) 8, d.byte (o + 17), d.le (o + 20) 4, d.le (o + 24) 4⟩
/-- Whether the entry issues in a frame. -/
def TableCmd.due (c : TableCmd) (frame : Nat) : Bool := decide (c.phase ≤ frame) && (frame - c.phase) % max c.every 1 == 0

/-! ## Chute bindings and windows (R263, R287) -/

/-- CFG, PEER and FRAME of a declared binding, and CTRL, BASE, SIZE and PEER of a declared window. -/
def Shift.binding (d : Shift) (e : Nat) : Nat × Nat × Nat := (d.le (1280 + 16 * e) 4, d.le (1284 + 16 * e) 4, d.le (1288 + 16 * e) 4)
def Shift.window (d : Shift) (w : Nat) : Nat × Nat × Nat × Nat :=
  (d.le (1792 + 16 * w) 4, d.le (1796 + 16 * w) 4, d.le (1800 + 16 * w) 4, d.le (1804 + 16 * w) 4)

/-! ## Validity (R210) -/

/-- The side of a port code 1 to 4. -/
def portSide : Nat → Side
  | 1 => .n | 2 => .e | 3 => .s | _ => .w

/-- Whether R214 closes a port of a router: its link crosses a field boundary, faces a hole or a foreman block, or the
router lies at the wafer's edge there. -/
def State.closedPort (s : State) (x : Site) (k : Nat) : Bool :=
  match (neighbour x.x.val x.y.val (portSide k)).bind fun q => Site.at? q.1 q.2 with
  | some y => y.field != x.field || y.foremanBlock || s.siteCode y == 5 || (s.holeAt x.x.val x.y.val (y.x.val, y.y.val)).isSome
  | none => true

def Cursor.valid (c : Cursor) : Bool :=
  decide (c.kind ≤ 3) && (c.kind != 1 ||
    (c.base % 32 == 0 && c.length % 32 == 0 && decide (32 ≤ c.length ∧ c.length ≤ 131072 ∧ c.base + c.length ≤ 0x20000)))
def Shift.cursorsValid (d : Shift) : Bool :=
  (List.range 8).all fun k =>
    let o := 64 + 16 * k
    (d.cursor k).valid && decide (d.byte (o + 1) < 32) && d.zero (o + 2) 2 && decide (d.byte (o + 12) < 2) && d.zero (o + 13) 3

/-- Bits set in a number of 6 bits. -/
def countBits (w : Nat) : Nat := ((List.range 6).filter fun i => bit w i).length
def Shift.unitsValid (d : Shift) : Bool :=
  (List.range 2).all fun u =>
    let o := 192 + 16 * u
    let m := d.byte o
    decide (m ≤ 4) && decide (d.byte (o + 1) < 64) && decide (d.byte (o + 2) < 32) && decide (d.byte (o + 3) < 64) &&
      ((List.range 4).all fun i => bits (d.byte (o + 4 + i)) 6 5 == 0) && decide (d.byte (o + 8) < 32) && d.zero (o + 9) 7 &&
      (m != 2 || decide (countBits (d.byte (o + 1)) ≤ 4))

/-- The command entries of a descriptor (R210). DESIGN CHOICE (log 146): a reserved operand bit of R190 in an entry's ga or gb does
not make the descriptor invalid; the command ends with FORMAT_INVALID when it is issued. -/
def Shift.commandsValid (d : Shift) : Bool :=
  decide (d.commands ≤ 16) && (List.range d.commands).all fun j =>
    let c := d.cmd j
    c.kind.isSome && decide (c.beat < 64) && decide (1 ≤ c.every) && d.zero (256 + 32 * j + 18) 2 && d.zero (256 + 32 * j + 28) 4

/-- One slot entry names only what it may use (R212, R214, R217). The data field of a static unit that does not fire, or that
merges, is coded all the same. -/
def Shift.entryValid (d : Shift) (closed : Nat → Bool) (i : Nat) : Bool :=
  let w := d.entryWord i
  let e := Entry.of w
  let rd := [1, 2].contains (d.cursor e.rdCursor).kind
  let wr := [1, 3].contains (d.cursor e.wrCursor).kind
  let from_ (c : Nat) : Bool := !(decide (1 ≤ c ∧ c ≤ 4) && closed c)
  let out (c : Nat) : Bool := c ≤ 5 || c == 8 || (c == 6 && (d.unit 0).static) || (c == 7 && (d.unit 1).static)
  bits w 63 48 == 0 && !bit w 27 && !bit w 23 && e.outs.all out && decide (e.delayIn ≤ 5) &&
    ((List.range 4).all fun k => e.outs.getD k 0 == 0 || !closed (k + 1)) && (d.codes e).all from_ &&
    ((List.range 2).all fun u => !(d.unit u).static || decide (e.data u ≤ 5) || e.data u == 8) &&
    ((List.range 2).all fun u => !d.fires e u ||
      (let t := e.token u
       ((decide (1 ≤ t ∧ t ≤ 5)) || t == 14 || (t == 0 && (d.unit u).mode == 1)) &&
        ((d.unit u).mode == 2 || decide (1 ≤ e.data u ∧ e.data u ≤ 5) || e.data u == 8))) &&
    ((List.range 2).all fun u => !d.fires e u || (d.unit u).mode != 2 ||
      (List.range 4).all fun k => !(bit (d.unit u).mergeMask k && closed (k + 1))) &&
    (!d.usesRead e || rd) && (e.outs.getD 4 0 == 0 || wr)

/-- The stationary tile is allowed under R125 and lies within SRAM. -/
def Shift.tileValid (d : Shift) : Bool :=
  let l := d.load 0
  match AMode.ofCode l.mode, Base.ofCode l.format with
  | some md, some b => stationaryOk md b && decide (l.src + (l.rows - 1) * l.stride + rowBytes md b 64 ≤ 0x20000)
  | _, _ => false

/-- Declared bindings and windows pass the checks of a register write (R240, R263, R268, R287). -/
def Shift.bindingsValid (d : Shift) : Bool :=
  (List.range 32).all fun e => !d.chuteMask e ||
    (let b := d.binding e
     b.1 &&& 0x00FF0000 == 0 && d.zero (1292 + 16 * e) 4 && (bits b.1 31 30 == 0 || !chuteRefused b.1 b.2.2))
def Shift.windowsValid (d : Shift) : Bool :=
  (List.range 16).all fun w => !d.windowMask w ||
    (let b := d.window w
     b.1 &&& 0x67FFFFFC == 0 && bits b.1 28 27 != 3 && decide (b.2.1 < 0x20000) && b.2.1 % 64 == 0 &&
      decide (b.2.2.1 < 0x40000) && b.2.2.1 % 64 == 0 &&
      (!bit b.1 31 || decide (0 < b.2.2.1 ∧ b.2.1 + b.2.2.1 ≤ 0x20000)))

def Shift.headerValid (d : Shift) : Bool :=
  d.byte 0 == 1 && decide (d.byte 1 < 4) && d.zero 2 2 && decide (d.byte 10 < 16) &&
    ((List.range 4).all fun t => !bit (d.le (12 + 2 * t) 2) 15) && decide (d.le 20 4 < 2 ^ 30) && decide (d.byte 26 < 2) &&
    decide (1 ≤ d.drainBeats ∧ d.drainBeats ≤ 4096) && d.zero 34 30 && d.zero 224 32

/-- A valid descriptor for the router at a site. -/
def Shift.valid (d : Shift) (closed : Nat → Bool) : Bool :=
  d.headerValid && d.cursorsValid && d.unitsValid && d.commandsValid && (!d.stationary || d.tileValid) && d.bindingsValid &&
    d.windowsValid && (List.range 64).all fun i => d.entryValid closed i

end Sys2Proof.Machine
end

