-- ==== Sys2Proof/Machine/Beat.lean ====
section
/-! DEFINITION. One schedule beat of a field (R211 to R221, R227, R230, R233, R281, R328): each core's router follows its
slot entry, cursors move flits, static steering units fire, and the command table issues. -/

namespace Sys2Proof.Machine

/-! ## Counting and reporting -/

def dropped (s : State) (x : Site) (n : Nat) : State := s.onCore x fun c => c.count 0x0A4 n
/-- An entry raised at most once per shift activation (R217, R219, R328). -/
def State.raiseOnce (s : State) (x : Site) (code : Nat) (sev : Severity) (unit : Nat) : State :=
  if (s.core x).shiftRaised.contains code then s
  else (s.onCore x fun c => { c with shiftRaised := c.shiftRaised ++ [code] }).raiseCore x code sev unit
/-- A bad token (R217). -/
def badToken (s : State) (x : Site) (u : Nat) : State :=
  (s.onCore x fun c => c.count 0x0A8 1).raiseOnce x 0x0804 .corrected u
/-- A scheduled cursor access meets a bank that is not active (R281). -/
def schedParked (s : State) (x : Site) (k : Nat) : State :=
  (s.onCore x fun c => c.count 0x0E4 1).raiseCore x 0x0A03 .jobFatal k

/-! ## Cursors (R211, R213) -/

/-- R49's latency of a quadrant from the stream port, which faces quadrant 1. -/
def streamLatency (a : Nat) : Nat :=
  match bits a 16 15 with
  | 1 => 2 | 3 => 4 | _ => 3
/-- That of a flit's 4 entries: an access completes with its last word. -/
def Chute.latency (ch : Chute) : Nat := ((List.range 4).map fun k => streamLatency (ch.slot (ch.taken + k))).foldl max 2

def Core.cursorPos_ (c : Core) (k : Nat) : Nat := c.cursorPos.get (fun _ => 0) k
def Core.moveCursor (c : Core) (k : Nat) (cur : Cursor) : Core :=
  { c with cursorPos := c.cursorPos.set (fun _ => 0) k ((c.cursorPos_ k + 32) % max cur.length 32) }

/-- A flit of data that a cursor has read. What its sideband token bits hold no rule states. -/
def readFlit (ctr : Nat) (bs : List Nat) : Flit :=
  ⟨bs.map (BitVec.ofNat 8), false, Config.freeValue ctr 32 % 2 = 1, Config.freeValue ctr 33 % 8⟩

/-- rd_cursor is used: the flit on its way, the beats until it is there, and the state after it. In a drain every SRAM
read yields a void flit (R233). An uncorrectable word gives open data in an SRAM ring, and a void flit in a chute's (R260). -/
def cursorRead (s : State) (x : Site) (k : Nat) (cur : Cursor) (draining : Bool) : Flit × Nat × State :=
  let c := s.core x
  if cur.kind = 1 then
    let a := cur.base + c.cursorPos_ k
    let s := s.onCore x fun c => c.moveCursor k cur
    if draining then (Flit.mkVoid, streamLatency a, s)
    else if !c.rangeActive a 32 then (Flit.mkVoid, streamLatency a, schedParked s x k)
    else
      let r := s.readSram x a 32
      let v := r.2.2.fresh
      let bs := if r.2.1.isSome then (List.range 32).map fun i => Config.freeValue v.1 i % 256 else r.1
      (readFlit v.1 bs, streamLatency a, v.2)
  else
    let ch := c.chute cur.endpoint
    let n := ch.latency
    let l := s.level x cur.endpoint
    let s := l.2
    if ch.role ≠ .consumer ∨ l.1 < 4 then (Flit.mkVoid, n, s)
    else
      let ok := (List.range 4).all fun k => c.rangeActive (ch.slot (ch.taken + k)) 8
      let r := s.pop x cur.endpoint 4
      if r.2.1.isSome || !ok then (Flit.mkVoid, n, r.2.2)
      else
        let v := r.2.2.fresh
        (readFlit v.1 r.1, n, v.2)

/-- The 4 entries of a flit. -/
def flitEntries (f : Flit) : List DWord :=
  (List.range 4).map fun i => BitVec.ofNat 64 (leNat (((f.data.drop (8 * i)).take 8).map (·.toNat)))

/-- A local write through wr_cursor; a void flit is not written (R215). A push to a chute that sees no room waits (R242, R246,
R249), and in a drain one to a full chute is discarded and counted (R233). -/
def cursorWrite (s : State) (x : Site) (k : Nat) (cur : Cursor) (f : Flit) (draining : Bool) : State :=
  if f.void then s
  else if cur.kind = 1 then
    let c := s.core x
    let a := cur.base + c.cursorPos_ k
    let s := s.onCore x fun c => c.moveCursor k cur
    if c.rangeActive a 32 then s.writeSram x a (f.data.map (·.toNat)) else schedParked s x k
  else
    let ch := (s.core x).chute cur.endpoint
    let l := s.level x cur.endpoint
    let s := l.2
    if ch.role ≠ .producer then dropped s x 1
    else if (s.core x).mayPush cur.endpoint 4 && (ch.record || decide (4 ≤ l.1)) then s.chutePush x cur.endpoint (flitEntries f)
    else if draining && (!ch.ready || (!ch.record && decide (l.1 < 4))) then dropped s x 1
    else s.onCore x fun c => c.setChute cur.endpoint { ch with late := ch.late ++ flitEntries f }

/-! ## Steering units (R217 to R220) -/

/-- What a core's router has at hand in a beat. -/
structure BeatIn where
  beat : Nat
  entry : Entry
  draining : Bool
  /-- Flits on inputs N, E, S and W by port code. -/
  input : Nat → Option Flit
  read : Option Flit
  head : Option Flit

/-- The flit a source code names, steering outputs apart. -/
def BeatIn.source (b : BeatIn) (code : Nat) : Option Flit :=
  match code with
  | 1 | 2 | 3 | 4 => b.input code
  | 5 => b.read
  | 8 => b.head
  | _ => none

/-- The flit on a merge candidate by its bit in merge_mask. -/
def BeatIn.candidate (b : BeatIn) (i : Nat) : Option Flit :=
  match i with
  | 4 => b.read
  | 5 => b.head
  | i => b.input (i + 1)

/-- The flit a unit passes on in a beat: the output ports that carry it, and the entry whose wr_cursor writes it. -/
structure Steered where
  flit : Flit
  ports : List Nat
  entry : Nat
deriving DecidableEq, Repr

/-- Outputs of an entry coded for unit u, in the order N, E, S, W, L. -/
def Entry.coded (e : Entry) (u : Nat) : List Nat := (List.range 5).filter fun k => e.outs.getD k 0 == 6 + u

/-- A token for a flit in steer mode (R217, R218): tokens 0 to 3 name the first four coded outputs. -/
def steerBy (s : State) (x : Site) (u : Nat) (e : Entry) (i : Nat) (f : Flit) (t : Nat) : Option Steered × State :=
  if t = 7 then (none, s)
  else
    match ((e.coded u).take 4)[t]? with
    | some k => (some ⟨f, [k], i⟩, s)
    | none => (none, badToken s x u)

/-- Numbers of the merge candidates. -/
def mergeInputs (mask : Nat) : List Nat := (List.range 6).filter fun i => bit mask i

/-- A token in merge mode: `at_` gives the flit on each candidate (R219). -/
def mergeBy (s : State) (x : Site) (u mask : Nat) (e : Entry) (i : Nat) (draining : Bool) (at_ : Nat → Option Flit)
    (t : Nat) : Option Steered × State :=
  let ins := mergeInputs mask
  if t = 7 then (none, s)
  else
    match (ins.take 4)[t]? with
    | none => (none, badToken s x u)
    | some k =>
      let s := dropped s x ((ins.filter fun j => j != k && (at_ j).isSome).length)
      match at_ k with
      | some f => (if draining && f.void then none else some ⟨f, e.coded u, i⟩, s)
      | none => (none, (s.onCore x fun c => c.count 0x0AC 1).raiseOnce x 0x0805 .contained u)

/-- Pops a unit's token queue. -/
def Core.popToken (c : Core) (u : Nat) : Core := c.setSteer u { c.steerUnit u with tokens := (c.steerUnit u).tokens.tail }

/-- The token an entry gives unit u, none where it is absent (R217, R220). -/
def tokenFor (c : Core) (b : BeatIn) (u : Nat) (own : Option Flit) : Option Nat :=
  let side (f : Option Flit) : Option Nat := f.bind fun f => if f.tokValid then some f.token else none
  match b.entry.token u with
  | 0 => side own
  | 14 => (c.steerUnit u).tokens.head?
  | t => side (b.source t)

/-- A static unit in one beat: a waiting item leaves once its token queue holds a token, and what reaches the unit
meanwhile is discarded; otherwise the unit fires as its entry says. -/
def steer (s : State) (x : Site) (d : Shift) (b : BeatIn) (u : Nat) : Option Steered × State :=
  let c := s.core x
  let cfg := d.unit u
  let st := c.steerUnit u
  let fires := d.fires b.entry u
  let ins := mergeInputs cfg.mergeMask
  let present := if cfg.mode = 2 then ins.filter fun j => (b.candidate j).isSome else []
  let own := if cfg.mode = 1 then (b.source (b.entry.data u)).filter fun f => !f.void else none
  let wait (f : Flit) (k : Nat) (s : State) : State :=
    s.onCore x fun c => c.setSteer u { c.steerUnit u with waiting := some (f, b.beat, k) }
  match st.waiting with
  | some (f, i, k) =>
    let s := if fires then dropped s x (own.isSome.toNat + present.length) else s
    let e := d.slot i
    match (if e.token u = 14 then st.tokens.head? else none) with
    | none => (none, s)
    | some t =>
      let s := s.onCore x fun c => (c.popToken u).setSteer u { (c.popToken u).steerUnit u with waiting := none }
      if cfg.mode = 1 then steerBy s x u e i f t
      else mergeBy s x u cfg.mergeMask e i b.draining (fun j => if j = k then some f else none) t
  | none =>
    if !fires then (none, s)
    else
      let t := tokenFor c b u own
      let s := if t.isSome && b.entry.token u == 14 && (cfg.mode == 2 || own.isSome) then s.onCore x fun c => c.popToken u
        else s
      if cfg.mode = 1 then
        match own, t with
        | none, _ => (none, s)
        | some f, none => (none, wait f 0 s)
        | some f, some t => steerBy s x u b.entry b.beat f t
      else
        match t with
        | some t => mergeBy s x u cfg.mergeMask b.entry b.beat b.draining b.candidate t
        | none =>
          let v := s.fresh
          match present[Config.freeValue v.1 0 % present.length]? with
          | some k =>
            match b.candidate k with
            | some f => (none, wait f k (dropped v.2 x (present.length - 1)))
            | none => (none, s)
          | none => (none, s)

/-! ## One core's beat -/

/-- The flit an output carries: a steering unit's, or that of the source its code names. -/
def outFlit (b : BeatIn) (us : List Steered) (k : Nat) : Option (Flit × Nat) :=
  match us.find? fun q => q.ports.contains k with
  | some q => some (q.flit, q.entry)
  | none => (b.source (b.entry.outs.getD k 0)).map fun f => (f, b.beat)

/-- The reads that are on their way, a beat later: the one that arrives, and the others. -/
def arriveReads (rs : List (Nat × Flit)) : Option Flit × List (Nat × Flit) :=
  let rs := rs.map fun r => (r.1 - 1, r.2)
  ((rs.find? fun r => r.1 == 0).map Prod.snd, rs.filter fun r => r.1 != 0)

/-- Consecutive scheduled beats of an output (R328). -/
def countRun (x : Site) (s : State) (k : Nat) (carries : Bool) : State :=
  let c := s.core x
  let n := if carries then c.schedRun.get (fun _ => 0) k + 1 else 0
  let s := s.setCore x { c with schedRun := c.schedRun.set (fun _ => 0) k n }
  if n = 8 then (s.onCore x fun c => c.count 0x250 1).raiseOnce x 0x0C04 .corrected k else s

/-- The command table's entries due in this beat, in table order (R230); bank 0 names the home bank (R229). -/
def tableCommands (s : State) (x : Site) (d : Shift) (beat frame now : Nat) (residues : List (Fin 32 × Fin 256)) : State :=
  (List.range d.commands).foldl (fun s j =>
    let k := d.cmd j
    match k.kind with
    | some kind =>
      if k.beat = beat && k.due frame && s.coreOn x then
        let flip := (s.core x).regBits 0x094 1 0 == 3
        let gb := match kind with
          | .aload => if flip then k.gb ^^^ 2 ^ 16 else k.gb
          | .apass => if flip then k.gb ^^^ 2 ^ 49 else k.gb
          | _ => k.gb
        s.scheduleCommand x now kind (BitVec.ofNat 64 k.ga) (BitVec.ofNat 64 gb) residues
      else s
    | none => s) s

/-- Pushes into the delay line; a full line discards the flit (R213). -/
def delayPush (s : State) (x : Site) (f : Option Flit) : State :=
  match f with
  | some f =>
    if 8 ≤ (s.core x).delay.length then dropped s x 1 else s.onCore x fun c => { c with delay := c.delay ++ [f] }
  | none => s
/-- Pops the delay line; an empty line yields a void flit and counts. -/
def delayPop (s : State) (x : Site) : Flit × State :=
  match (s.core x).delay with
  | f :: rest => (f, s.onCore x fun c => { c with delay := rest })
  | [] => (Flit.mkVoid, dropped s x 1)

/-- Banks that a cursor's access through the stream port touches: an SRAM ring's, or a consumer's whose ring is read. -/
def Core.cursorBanks (c : Core) (k : Nat) (cur : Cursor) : List Nat :=
  if cur.kind = 1 then [c.bankOf (cur.base + c.cursorPos_ k), c.bankOf (cur.base + c.cursorPos_ k + 16)]
  else if cur.kind = 2 then
    let ch := c.chute cur.endpoint
    (List.range 4).map fun k => c.bankOf (ch.slot (ch.taken + k))
  else []

/-- Banks of the words that a close of the schedule writes between its run and its end. -/
def Core.closeBanks (c : Core) (k : AClose) : List Nat :=
  match CloseCmd.of k.cmd with
  | ⟨_, some d, stride, format⟩ =>
    if k.cmd.issuer.isSome || k.ran.isNone then []
    else
      let n := (c.tile k.slot).m * (((outputFmt format).map (·.width)).getD 0 / 8)
      ((List.range 32).flatMap fun r => (wordsOf (d + r * stride) n).map c.bankOf).eraseDups
  | _ => []
/-- Accesses that the schedule places on the array port and on the stream port meet in one bank in cycle `now` (R52): the stream
port's is served late, which changes no data. In which cycles a close issues its words no rule states: whether one meets the
access is open (log 23). -/
def schedConflict (s : State) (x : Site) (now : Nat) (banks : List Nat) : State :=
  let c := s.core x
  let a := c.array
  let scheduled := !(a.passes.any fun p => p.cmd.issuer.isSome) && !(a.load.any fun l => l.1.issuer.isSome)
  let report (s : State) : State := s.raiseCore x 0x0A04 .jobFatal 0
  if scheduled && (a.passPort ++ a.loadPort).any fun q => q.1 == now && banks.contains q.2 then report s
  else if a.closes.any fun k => (c.closeBanks k).any banks.contains then
    let v := s.fresh
    if Config.freeValue v.1 0 % 2 = 1 then report v.2 else v.2
  else s

/-- The router of a core follows one slot entry in the field's cycle `now`: the flits it drives on its links by port code, and
the state after it. -/
def coreBeat (s : State) (x : Site) (d : Shift) (beat frame now : Nat) (draining : Bool)
    (residues : List (Fin 32 × Fin 256)) : List (Nat × Flit) × State :=
  let e := d.slot beat
  let c := s.core x
  let ar := arriveReads c.reads
  let s := s.setCore x { c with reads := ar.2 }
  let s :=
    if d.usesRead e then
      let r := cursorRead s x e.rdCursor (d.cursor e.rdCursor) draining
      if r.2.2.coreOn x then r.2.2.onCore x fun c => { c with reads := c.reads ++ [(r.2.1, r.1)] } else r.2.2
    else s
  if !s.coreOn x then ([], s)
  else
    let p := if d.usesDelay e then let q := delayPop s x; (some q.1, q.2) else (none, s)
    let b : BeatIn :=
      { beat := beat, entry := e, draining := draining, input := fun k => c.inputs.get (fun _ => none) k, read := ar.1
        head := p.1 }
    let u0 := steer p.2 x d b 0
    let u1 := steer u0.2 x d b 1
    let us := u0.1.toList ++ u1.1.toList
    let s := delayPush u1.2 x (b.source e.delayIn)
    let links := (List.range 4).filterMap fun k => (outFlit b us k).map fun f => (k + 1, f.1)
    let s := s.onCore x fun c => c.count 0x230 links.length
    let s := (List.range 4).foldl (fun s k => countRun x s (k + 1) (outFlit b us k).isSome) s
    let s :=
      match outFlit b us 4 with
      | some f => let w := (d.slot f.2).wrCursor; cursorWrite s x w (d.cursor w) f.1 draining
      | none => s
    let s := tableCommands s x d beat frame now residues
    let rd := if d.usesRead e && !draining then c.cursorBanks e.rdCursor (d.cursor e.rdCursor) else []
    let wr := match outFlit b us 4 with
      | some f => let w := (d.slot f.2).wrCursor; if f.1.void then [] else c.cursorBanks w (d.cursor w)
      | none => []
    (links, (schedConflict s x now (rd ++ wr)).chuteWake x)

/-! ## The field's beat -/

/-- A flit on a link reaches the neighbour's input at the end of the beat. -/
def deliverFlit (s : State) (x : Site) (l : Nat × Flit) : State :=
  match (neighbour x.x.val x.y.val (portSide l.1)).bind fun q => Site.at? q.1 q.2 with
  | some y =>
    if s.coreOn y && y.field == x.field then
      s.onCore y fun c => { c with inputs := c.inputs.set (fun _ => none) (Side.portNo (opposite (portSide l.1))) (some l.2) }
    else s
  | none => s

def rotCtrl (f : Nat) : Nat := pageFieldctl f + 0x040

/-- The rotation step comes (R227): the switch toward `to` is due. -/
def State.rotateTo (s : State) (f : Nat) (tgt : Option Nat) : State :=
  (s.setSregBits (rotCtrl f) 30 30 0).onField f fun fl =>
    { fl with sched := .due tgt, beatAt := if fl.sched = .beats then fl.beatAt else max fl.beatAt fl.ran }

/-- After the last step of a table that does not loop, run clears and done is set. -/
def State.rotationDone (s : State) (f : Nat) : State :=
  ((s.setSregBits (rotCtrl f) 0 0 0).setSflag (rotCtrl f) 31).rotateTo f none

/-- Whether the current frame, numbered `frame`, is the last of its step. -/
def State.lastFrame (s : State) (f frame : Nat) : Bool :=
  let fl := s.field f
  fl.drain.isNone && (!s.sregBit (rotCtrl f) 0 || s.sregBit (rotCtrl f) 30 || (fl.frames != 0 && frame + 1 == fl.frames))

/-- What follows a step's last frame (R227). -/
def State.rotate (s : State) (f : Nat) : State :=
  let k := (s.field f).rotStep
  if !s.sregBit (rotCtrl f) 0 then s.rotateTo f none
  else if k < s.sregBits (rotCtrl f) 10 8 then s.rotateTo f (some (k + 1))
  else if s.sregBit (rotCtrl f) 29 then s.rotateTo f (some 0)
  else s.rotationDone f

/-- The field's counters after a beat. -/
def State.beatEnds (s : State) (f : Nat) (draining : Bool) : State :=
  let s := if draining then s.onField f fun fl => { fl with
    drain := fl.drain.map fun d => { d with beatsLeft := d.beatsLeft - 1 } } else s
  let fl := s.field f
  if fl.beat + 1 < fl.period then s.setField f { fl with beat := fl.beat + 1 }
  else
    let last := s.lastFrame f fl.frame
    let s := s.setField f { fl with beat := 0, frame := fl.frame + 1 }
    if last then s.rotate f else s

/-- Cycles of each 64-cycle window that the slew gate lets the field run (R440). -/
def Field.gateOpen (fl : Field) : Nat := ceilDiv (64 * fl.gate.n) fl.gate.d
/-- Whether the slew gate closes part of each window. -/
def Field.gated (fl : Field) : Bool := decide (fl.gateOpen < 64)
/-- Whether it freezes cycles of the field, which it does in every window while the clock runs and no drain keeps the field from
freezing. -/
def Field.gateFreezes (fl : Field) : Bool := fl.gated && fl.clocked && fl.drain.isNone
/-- Whether the gate has the field frozen at a clock value. -/
def Field.gateShut (fl : Field) (clk : Nat) : Bool := fl.gated && decide (fl.gateOpen ≤ clk / 20 % 64)

/-- Whether a field is frozen at a clock value, by hold or by the gate. -/
def State.shutAt (s : State) (f clk : Nat) : Bool := s.stopHolds || (s.field f).heldAt clk || (s.field f).gateShut clk

/-- Whether a field's next schedule step can run: its clocks run, and in the cycle of that step the field is not frozen (R224);
a drain ends every freeze. -/
def State.schedRuns (s : State) (f : Nat) : Bool :=
  let fl := s.field f
  fl.clocked && !fl.frozen && (fl.drain.isSome || !s.shutAt f (max fl.clk (fl.beatAt + fl.held)))

/-- BEAT: every core follows its slot entry; all link inputs change together at the end. A beat takes one unheld cycle of the
field's clock, which engine time reaches (R212, R223). `residues` names partials of the passes that start in it which the residue
check finds wrong (R473). -/
def execBeat (f : FieldNo) (residues : List (Site × Fin 32 × Fin 256)) (s : State) : Out :=
  let fl := s.field f.val
  let stopped := (fl.drain.map fun d => d.beatsLeft == 0).getD false
  if !s.schedRuns f.val || fl.sched ≠ .beats || stopped then .next s
  else
    let s := (s.reach f.val fl.beatAt).onField f.val fun fl => { fl with beatAt := fl.beatAt + 20 }
    let draining := fl.drain.isSome
    let r := (s.coreSites f.val).foldl (fun (acc : List (Site × Nat × Flit) × State) x =>
      match (acc.2.core x).active with
      | some (_, d) =>
        if acc.2.coreOn x then
          let q := coreBeat acc.2 x d fl.beat fl.frame (fl.beatAt / 20) draining
            ((residues.filter fun r => decide (r.1 = x)).map (·.2))
          (acc.1 ++ q.1.map fun l => (x, l), q.2)
        else acc
      | none => acc) ([], s)
    let s := r.2.mapCores f.val fun _ c => { c with inputs := [] }
    let s := r.1.foldl (fun s l => deliverFlit s l.1 l.2) s
    .next ((s.beatEnds f.val draining).stirs f.val)

end Sys2Proof.Machine
end

