-- ==== Sys2Proof/Machine/EngineSpace.lean ====
section
/-! DEFINITION. Engine addresses and privileged access to what they name (R58 to R61, R275, R290 to R294, R314, R315,
R524, R525): HBM behind the stack ports, core space and foreman memory. Register pages are no part of it. -/

namespace Sys2Proof.Machine

/-! ## The map (R59, R524) -/

/-- What an engine address names. -/
inductive Loc
  | hbm (a : Nat)
  | sram (x : Site) (off : Nat)
  | acc (x : Site) (off : Nat)
  | page (x : Site) (off : Nat)
  | foreman (f off : Nat)
  | space (off : Nat)
  | nowhere
deriving DecidableEq, Repr

/-- An offset of a core's block; positions of a foreman block are no core sites (R17). -/
def Loc.inBlock (x : Site) (off : Nat) : Loc :=
  if x.foremanBlock then .nowhere
  else if off < 0x20000 then .sram x off
  else if off < 0x21000 then .page x (off - 0x20000)
  else if 0x30000 ≤ off ∧ off < 0x38000 then .acc x off
  else .nowhere

def Loc.of (a : Nat) : Loc :=
  if a < 0xC000000000 then .hbm a
  else if 0x100000000000 ≤ a ∧ a < 0x200000000000 then
    match Site.at? (bits a 27 18) (bits a 43 28) with
    | some x => Loc.inBlock x (bits a 17 0)
    | none => .nowhere
  else if 0x200000000000 ≤ a ∧ a < 0x200030000000 then .foreman ((a - 0x200000000000) / 0x1000000) (a % 0x1000000)
  else if 0x300000000000 ≤ a ∧ a < 0x300004000000 then .space (a - 0x300000000000)
  else .nowhere

/-- Engine address of a core's block. -/
def coreBase (x : Site) : Nat := 0x100000000000 + x.y.val * 2 ^ 28 + x.x.val * 2 ^ 18

/-- Whether a range lies in HBM, in one core's SRAM or in foreman memory, whose 48 parts follow one another (R300). -/
def inStore (a n : Nat) : Bool :=
  match Loc.of a, Loc.of (a + n - 1) with
  | .hbm _, .hbm _ => true
  | .sram x _, .sram y _ => x == y
  | .foreman _ _, .foreman _ _ => true
  | _, _ => false

/-! ## HBM (R290 to R293) -/

/-- Stack, pseudo-channel and location of an HBM address; mode 1 is local (R292). -/
def hbmMap (local_ : Bool) (a : Nat) : Nat × Nat × Nat :=
  if local_ then
    let size := 24 * 2 ^ 30
    let g := a % size / 2048
    (a / size, (g % 32) ^^^ (g / 32 % 32), g / 32 * 2048 + a % 2048)
  else
    let g := a / 2048
    let hi := g / 1024
    let pc := (g % 1024) ^^^ ((hi ^^^ (hi / 1024)) % 1024)
    (pc % 32, pc / 32, hi * 2048 + a % 2048)
def State.localMode (s : State) : Bool := s.sregBit (pageStack 0 + 0x044) 0
/-- The stack an HBM address lies in, and its place among all locations of the 32 stacks. -/
def State.stackOf (s : State) (a : Nat) : Nat := (hbmMap s.localMode a).1
def State.hbmPlace (s : State) (a : Nat) : Nat :=
  let m := hbmMap s.localMode a
  (m.1 * 32 + m.2.1) * (24 * 2 ^ 25) + m.2.2

/-- An entry of stack port n, in the ERRLOG of the field that holds its entry router 0; a JOB_FATAL
one drains the running job, whichever fields it uses (R317). -/
def State.raiseStack (s : State) (n code : Nat) (sev : Severity) : State :=
  let f := ((stackEntries n).getD 0 ⟨0, 0⟩).field
  s.raiseBy f (.space (pageStack n)) ⟨code, sev, 4, fieldWord f n⟩ true

/-- The state of the burst an address lies in. -/
def State.burst (s : State) (a : Nat) : Ecc := s.hbmEcc.get (fun _ => .clean) (s.hbmPlace a / 32)
def State.setBurst (s : State) (a : Nat) (v : Ecc) : State :=
  { s with hbmEcc := s.hbmEcc.set (fun _ => .clean) (s.hbmPlace a / 32) v }

/-- A burst is read (R314, R315): one with a correctable error is counted and written back; an uncorrectable one is
counted, recorded, and reported once until it is rewritten. -/
def State.readBurst (s : State) (a : Nat) : State :=
  let n := s.stackOf a
  let page := pageStack n
  match s.burst a with
  | .clean => s
  | .single _ => (s.scount (page + 0x054) 1).setBurst a .clean
  | .double reported =>
    let s := s.scount (page + 0x058) 1
    let b := a / 32 * 32
    let s :=
      if s.sregBit (page + 0x04C) 31 then s
      else (s.setSreg (page + 0x048) (BitVec.ofNat 32 (bits b 31 0))).setSreg (page + 0x04C)
        (BitVec.ofNat 32 (2 ^ 31 + bits b 47 32))
    let s := s.setBurst a (.double true)
    if reported then s else s.raiseStack n 0x0B01 .contained

/-- The bytes of HBM from an address on, within one burst. -/
def State.hbmBytes (s : State) (a n : Nat) : List Nat :=
  (List.range n).map fun i => (s.hbm.get (fun _ => 0) (s.hbmPlace a + i)).toNat
def putBytes (m : SMap Byte) : Nat → List Nat → SMap Byte
  | _, [] => m
  | k, b :: bs => putBytes (m.set (fun _ => 0) k (BitVec.ofNat 8 b)) (k + 1) bs
def State.putHbm (s : State) (a : Nat) (bs : List Nat) : State := { s with hbm := putBytes s.hbm (s.hbmPlace a) bs }

/-- Bytes are written to one burst (R315): a partial write of an uncorrectable burst replaces the rest by zero. -/
def State.writeBurst (s : State) (a : Nat) (bs : List Nat) : State :=
  match s.burst a with
  | .clean => s.putHbm a bs
  | .single _ => (s.putHbm a bs).setBurst a .clean
  | .double _ =>
    let t := (s.putHbm (a / 32 * 32) (List.replicate 32 0)).putHbm a bs |>.setBurst a .clean
    if bs.length = 32 then t
    else
      let n := s.stackOf a
      (t.scount (pageStack n + 0x058) 1).raiseStack n 0x0B02 .contained

/-! ## One privileged access of up to 32 bytes within an aligned 32; HBM is in self-refresh while stopped (R453) -/

/-- Whether a route hole closes a site to packets: some hole of the route map, or, from 5 µs after a stop, its field's interior
(R344, R347, R452). -/
def State.shutBy (s : State) (x : Site) : Option Hole :=
  (s.holes ++ if s.stopHolds then [interiorHole x.field] else []).find? fun h => h.has x.x.val x.y.val
/-- How core space of a site answers (R33, R344, R525). A request to a core whose clocks have stopped (R40, R430) ends as one that
nothing answers. -/
def State.siteStatus (s : State) (x : Site) : Status :=
  if !(s.field x.field).vcoreOn then .targetSealed
  else if s.siteCode x = 5 || s.fenced.contains x.key then .noRoute
  else if s.siteCode x = 4 then .targetSealed
  else
    match s.shutBy x with
    | some h => if h.parked then .targetSealed else .noRoute
    | none => if s.coreClocked x then .ok else .timeout
/-- Whether a hole that cuts the mesh in two lies between two routers (R342). -/
def State.cutOff (s : State) (a b : Site) : Bool :=
  s.holes.any fun h =>
    (h.x0 == 0 && h.x1 == 639 && decide (a.y.val < h.y0) != decide (b.y.val < h.y0)) ||
      (h.y0 == 0 && h.y1 == 503 && decide (a.x.val < h.x0) != decide (b.x.val < h.x0))

/-- What a read gives: its bytes, its status, the bytes before the first that failed, and the state after its reports. -/
structure Peek where
  bytes : List Nat
  status : Status
  good : Nat
  after : State

def Peek.fail (s : State) (n : Nat) (st : Status) : Peek := ⟨List.replicate n 0, st, 0, s⟩

def State.peek (s : State) (a n : Nat) : Peek :=
  match Loc.of a with
  | .hbm _ =>
    if s.flash.stopped then Peek.fail s n .busy
    else if s.stackState (s.stackOf a) ≠ 2 then Peek.fail s n .denied
    else
      match s.burst a with
      | .double _ => Peek.fail (s.readBurst a) n .eccUncorrected
      | _ => ⟨s.hbmBytes a n, .ok, n, s.readBurst a⟩
  | .sram x off =>
    match s.siteStatus x with
    | .ok =>
      if !(s.core x).rangeActive off n then Peek.fail s n .bankParked
      else
        let r := s.readSram x off n
        match r.2.1 with
        | some w => ⟨r.1, .eccUncorrected, w - off, r.2.2⟩
        | none => ⟨r.1, .ok, n, r.2.2⟩
    | st => Peek.fail s n st
  | .acc x off =>
    match s.siteStatus x with
    | .ok => if s.width x = 0 then Peek.fail s n .addrRange else ⟨(s.core x).accBytes off n, .ok, n, s⟩
    | st => Peek.fail s n st
  | .foreman f off =>
    if (s.field f).foremanUp then
      ⟨(List.range n).map fun i => ((s.field f).foremanMem.get (fun _ => 0) (off + i)).toNat, .ok, n, s⟩
    else Peek.fail s n .targetSealed
  | _ => Peek.fail s n .addrRange

/-- A write of up to 32 bytes within an aligned 32: its status, and the state after it. -/
def State.poke (s : State) (a : Nat) (bs : List Nat) : Status × State :=
  match Loc.of a with
  | .hbm _ =>
    if s.flash.stopped then (.busy, s) else if s.stackState (s.stackOf a) ≠ 2 then (.denied, s) else (.ok, s.writeBurst a bs)
  | .sram x off =>
    match s.siteStatus x with
    | .ok => if !(s.core x).rangeActive off bs.length then (.bankParked, s) else (.ok, s.writeSram x off bs)
    | st => (st, s)
  | .acc x off =>
    match s.siteStatus x with
    | .ok =>
      if s.width x = 0 then (.addrRange, s)
      else if (s.core x).array.refuses then (.busy, s) else (.ok, s.onCore x fun c => c.setAccBytes off bs)
    | st => (st, s)
  | .foreman f off =>
    if (s.field f).foremanUp then
      (.ok, s.onField f fun fl => { fl with foremanMem := putBytes fl.foremanMem off bs })
    else (.targetSealed, s)
  | _ => (.addrRange, s)

/-! ## Ranges -/

/-- Whether an access to one core's SRAM meets a bank that is not active: the check covers every bank it touches, so that it is
never half-written (R279). -/
def State.meetsParked (s : State) (a n : Nat) : Bool :=
  match Loc.of a, Loc.of (a + n - 1) with
  | .sram x off, .sram y _ => y == x && s.siteStatus x == .ok && !(s.core x).rangeActive off n
  | _, _ => false

/-- Reads a range access by access: each byte with its status. The fuel bounds the accesses. -/
def State.peeks (s : State) : Nat → Nat → Nat → List (Nat × Status) × State
  | 0, _, _ => ([], s)
  | fuel + 1, a, n =>
    if n = 0 then ([], s)
    else
      let k := min n (32 - a % 32)
      let r := s.peek a k
      let here := (r.bytes.zip (List.range k)).map fun b => (b.1, if b.2 < r.good then Status.ok else r.status)
      let t := r.after.peeks fuel (a + k) (n - k)
      (here ++ t.1, t.2)
def State.readSpan (s : State) (a n : Nat) : List (Nat × Status) × State := s.peeks (n / 32 + 2) a n

/-- Writes a range access by access: the status of each byte. -/
def State.pokes (s : State) : Nat → Nat → List Nat → List Status × State
  | 0, _, _ => ([], s)
  | fuel + 1, a, bs =>
    if bs.isEmpty then ([], s)
    else
      let k := 32 - a % 32
      let r := s.poke a (bs.take k)
      let t := r.2.pokes fuel (a + k) (bs.drop k)
      (List.replicate (bs.take k).length r.1 ++ t.1, t.2)
def State.writeSpan (s : State) (a : Nat) (bs : List Nat) : List Status × State := s.pokes (bs.length / 32 + 2) a bs

/-- The status of a whole access: that of its first byte that failed. -/
def firstBad (l : List Status) : Status := (l.find? fun st => st ≠ .ok).getD .ok

/-! ## Host memory (R422) -/

/-- Whether a port can reach its host's memory. -/
def State.hostUp (s : State) (p : Nat) : Bool := s.sregBit (pageHostport p + 0x040) 8 && !(s.port p).d3hot
def State.hostMem (s : State) (p : Nat) : SMap Byte := if p = 0 then s.hostA else s.hostB
def State.hostBytes (s : State) (p a n : Nat) : List Nat :=
  (List.range n).map fun i => ((s.hostMem p).get (fun _ => 0) (a + i)).toNat
def State.putHost (s : State) (p a : Nat) (bs : List Nat) : State :=
  if p = 0 then { s with hostA := putBytes s.hostA a bs } else { s with hostB := putBytes s.hostB a bs }

end Sys2Proof.Machine
end

