-- ==== Sys2Proof/Machine/HoistDesc.lean ====
section
/-! DEFINITION. Hoist descriptors (R299, R304): their fields, the ranges they name and the checks of R300 and R305; and
the packed tensor that a pack makes from its input (R306, R307). -/

namespace Sys2Proof.Machine

/-! ## Which hoist (R295) -/

/-- The host port of a hoist, where it is one of a port's. -/
def hoistPort (h : Nat) : Option Nat := if 128 ≤ h ∧ h < 160 then some ((h - 128) / 16) else none
/-- Its number within its port. -/
def hoistIndex (h : Nat) : Nat := if h < 128 then h % 4 else if h < 160 then h % 16 else 0
/-- The local endpoint of the unit that owns it. -/
def hoistOwner (h : Nat) : Nat :=
  if h < 128 then eidStackPort (h / 4) else if h < 144 then eidHostA else if h < 160 then eidHostB else eidForeman (h - 160)
/-- The field that holds its port or foreman (R505). -/
def hoistField (h : Nat) : Nat :=
  if h < 128 then ((stackEntries (h / 4)).getD 0 ⟨0, 0⟩).field
  else match hoistPort h with
    | some p => ((hostEntries p).getD 0 ⟨0, 0⟩).field
    | none => h - 160
def State.raiseHoist (s : State) (h code : Nat) (sev : Severity) : State :=
  s.raise (hoistField h) (.space (pageHoist h)) ⟨code, sev, 7, fieldWord (hoistField h) h⟩

/-! ## Descriptors (R299, R304) -/

def leAt (l : List Nat) (off n : Nat) : Nat := leNat ((l.drop off).take n)
def sleAt (l : List Nat) (off : Nat) : Int := sext 32 (leAt l off 4)

structure Desc where
  op : Nat
  flags : Nat
  elem : Nat
  reserved : Nat
  src : Nat
  dst : Nat
  len0 : Nat
  len1 : Nat
  len2 : Nat
  ss1 : Int
  ss2 : Int
  ds1 : Int
  ds2 : Int
  cmpl : Nat
deriving DecidableEq, Repr

def Desc.of (l : List Nat) : Desc :=
  { op := leAt l 0 1, flags := leAt l 1 1, elem := leAt l 2 1, reserved := leAt l 3 5 + leAt l 52 4, src := leAt l 8 8
    dst := leAt l 16 8, len0 := leAt l 24 4, len1 := leAt l 28 4, len2 := leAt l 32 4, ss1 := sleAt l 36
    ss2 := sleAt l 40, ds1 := sleAt l 44, ds2 := sleAt l 48, cmpl := leAt l 56 8 }

def Desc.stop (d : Desc) : Bool := bit d.flags 1
def Desc.signal (d : Desc) : Bool := bit d.flags 2
def Desc.interrupt (d : Desc) : Bool := bit d.flags 3
/-- Address of the completion record. -/
def Desc.record (d : Desc) : Nat := bits d.cmpl 47 0

structure Ext where
  format : Nat
  sparse : Nat
  flags : Nat
  ratio : Nat
  scale : Nat
  k : Nat
  runs : Nat
  seed : Nat
  recBase : Nat
  recSlots : Nat
  span : Nat
  offs : List Nat
  reserved : Nat
deriving DecidableEq, Repr

def Ext.of (l : List Nat) : Ext :=
  { format := leAt l 0 1, sparse := leAt l 1 1, flags := leAt l 2 1, ratio := leAt l 3 1, scale := leAt l 4 4
    k := leAt l 8 4, runs := leAt l 12 4, seed := leAt l 16 8, recBase := leAt l 24 8, recSlots := leAt l 32 4
    span := leAt l 36 4, offs := (List.range 4).map fun i => leAt l (40 + 4 * i) 4, reserved := leAt l 56 8 }

def Ext.stochastic (e : Ext) : Bool := bit e.flags 0
def Ext.writeHeader (e : Ext) : Bool := bit e.flags 1
def Ext.records (e : Ext) : Bool := bit e.flags 2
def Ext.turnIn (e : Ext) : Bool := bit e.flags 3
/-- The header the pack describes (R304 to R306). -/
def Ext.header (e : Ext) : Header :=
  ⟨e.format, e.sparse, 0, e.scale, e.k, e.runs, e.offs.getD 0 0, e.offs.getD 1 0, e.offs.getD 2 0, e.offs.getD 3 0⟩
/-- Runs per record. -/
def Ext.spanRuns (e : Ext) : Nat := if e.span = 0 then e.runs else e.span

/-- Element bits of a turn (R299). -/
def turnBits (elem : Nat) : Nat := [2, 3, 4, 8, 16, 32, 64].getD elem 1
/-- Format and bytes of a pack's input elements. -/
def packInput (elem : Nat) : Option (FloatFmt × Nat) :=
  match elem with
  | 0x02 => some (fp32, 4) | 0x04 => some (bf16, 2) | 0x05 => some (e4m3, 1) | 0x06 => some (e5m2, 1) | _ => none

/-- Bytes of a source row. -/
def Desc.rowBytes (d : Desc) : Nat := if d.op = 2 then ceilDiv (d.len0 * turnBits d.elem) 8 else d.len0
/-- Stream bytes of a descriptor (R300). -/
def Desc.total (d : Desc) : Nat := d.len2 * d.len1 * d.rowBytes

/-- Row r of plane p for each pair in stream order. -/
def Desc.rows (d : Desc) (n : Nat) : List (Nat × Nat) :=
  (List.range d.len2).flatMap fun p => (List.range n).map fun r => (p, r)
def Desc.srcRow (d : Desc) (p r : Nat) : Int := d.src + p * d.ss2 + r * d.ss1
def Desc.dstRow (d : Desc) (p r : Nat) : Int := d.dst + p * d.ds2 + r * d.ds1

/-- The byte ranges named on the source side and on the destination side. -/
def Desc.srcRanges (d : Desc) : List (Int × Nat) :=
  if d.op = 1 then [] else (d.rows d.len1).map fun q => (d.srcRow q.1 q.2, d.rowBytes)
def Desc.dstRanges (d : Desc) (e : Ext) : List (Int × Nat) :=
  if d.op = 2 then (d.rows d.len0).map fun q => (d.dstRow q.1 q.2, ceilDiv (d.len1 * turnBits d.elem) 8)
  else if d.op = 3 then
    let h := e.header
    let at_ (off n : Nat) : List (Int × Nat) := if n = 0 then [] else [((d.dst : Int) + off, n)]
    at_ 0 (if e.writeHeader then 32 else 0) ++ at_ h.elemOff h.elemBytes ++ at_ h.scaleOff h.scaleBytes ++
      at_ h.excOff h.excBytes ++ at_ h.indexOff h.indexStreamBytes
  else (d.rows d.len1).map fun q => (d.dstRow q.1 q.2, d.len0)

/-! ## Checks (R300, R305) -/

/-- A range of engine addresses that a hoist may name, or of host addresses. -/
def engineRange (r : Int × Nat) : Bool := decide (0 ≤ r.1) && inStore r.1.toNat r.2
def hostRange (r : Int × Nat) : Bool := decide (0 ≤ r.1 ∧ r.1.toNat + r.2 ≤ 2 ^ 64)

/-- Whether a completion record's 32 bytes lie in core SRAM. -/
def inCoreSram (a n : Nat) : Bool :=
  inStore a n && (match Loc.of a with | .sram _ _ => true | _ => false)

/-- Whether the pack extension obeys *Packing* (R304, R305). DESIGN CHOICE (log 141): a dst, the header's address, that is no
multiple of 32 is not refused: R72 aligns a header, and R305 checks only the offsets. -/
def packValid (d : Desc) (e : Ext) : Bool :=
  match packInput d.elem with
  | none => false
  | some (_, b) =>
    decide (d.len2 = 1 ∧ d.ds1 = 0 ∧ d.ds2 = 0) &&
      (if e.turnIn then decide (d.len1 = e.k ∧ d.len0 = e.runs * b) else decide (d.len1 = e.runs ∧ d.len0 = e.k * b)) &&
      [0x20, 0x21, 0x22, 0x23].contains (bits e.format 5 0) && e.header.valid && decide (e.scale % 2 ^ 31 ≠ 0) &&
      decide (bits e.flags 7 4 = 0 ∧ bits e.recBase 63 48 = 0 ∧ e.reserved = 0 ∧ e.recBase % 64 = 0) &&
      (!e.records || decide (e.recSlots ≠ 0))

/-- The status of the checks; `hostDst` says which side of a host-port hoist is the host's. -/
def descCheck (host : Bool) (hostDst : Bool) (d : Desc) (e : Ext) : Status :=
  let srcHost := host && !hostDst
  let dstHost := host && hostDst
  let elemOk := match d.op with
    | 2 => decide (d.elem ≤ 6)
    | 3 => packValid d e
    | _ => decide (d.elem = 0)
  let reserved := d.reserved ≠ 0 || bits d.flags 7 4 ≠ 0 || (d.interrupt && !host) || bits d.cmpl 63 54 ≠ 0 ||
    (d.op = 1 && bits d.src 63 32 ≠ 0) || (d.op ≠ 1 && !srcHost && bits d.src 63 48 ≠ 0) ||
    (!dstHost && bits d.dst 63 48 ≠ 0)
  if 3 < d.op || reserved || d.len0 * d.len1 * d.len2 = 0 || 2 ^ 40 ≤ d.len0 * d.len1 * d.len2 || !elemOk ||
      (d.signal && !inCoreSram d.record 32) then .formatInvalid
  else
    let ok (isHost : Bool) (l : List (Int × Nat)) : Bool := l.all fun r => if isHost then hostRange r else engineRange r
    let recs := if d.op = 3 && e.records then [((e.recBase : Int), e.recSlots * 64)] else []
    if ok srcHost d.srcRanges && ok dstHost (d.dstRanges e) && ok false recs && d.record % 32 = 0 &&
        inStore d.record 32 then .ok
    else .addrRange

/-! ## Turning (R302) -/

/-- Byte b of destination row j of one plane: `src i q` gives byte q of source row i and whether it arrived. -/
def turnByte (e len1 j b : Nat) (src : Nat → Nat → Nat × Bool) : Nat × Bool :=
  (List.range 8).foldl (fun acc t =>
    let q := 8 * b + t
    let i := q / e
    if len1 ≤ i then acc
    else
      let o := j * e + q % e
      let v := src i (o / 8)
      (acc.1 + (if bit v.1 (o % 8) then 2 ^ t else 0), acc.2 && v.2)) (0, true)

/-- The destination bytes (row j, byte) that take bits of byte q of source row i. -/
def turnFeeds (e len0 i q : Nat) : List (Nat × Nat) :=
  (((List.range 8).map fun t => 8 * q + t).filter fun n => decide (n / e < len0)).map
    (fun n => (n / e, (i * e + n % e) / 8)) |>.eraseDups
/-- The source bytes (row i, byte) that give bits to byte b of destination row j. -/
def turnFrom (e len1 j b : Nat) : List (Nat × Nat) :=
  (((List.range 8).map fun t => 8 * b + t).filter fun n => decide (n / e < len1)).map
    (fun n => (n / e, (j * e + n % e) / 8)) |>.eraseDups

/-! ## Packing (R306, R307) -/

/-- One packed block: its run, its result, and whether it depends on an input byte that did not arrive. -/
structure PackedBlock where
  run : Nat
  block : Nat
  out : Packed
  bad : Bool
  /-- Magnitudes of its inputs, as FP32 patterns, and those of its pruned positions. -/
  largest : Nat
  pruned : List Dy
deriving DecidableEq, Repr

/-- Packs the blocks in stream order, threading the stream (R112). `datum n p` is the input at position p of run n. -/
def packBlocks (e : Ext) (datum : Nat → Nat → FVal × Bool) : List (Nat × Nat) → DWord → Bool → List PackedBlock
  | [], _, _ => []
  | (n, b) :: rest, g, tainted =>
    let h := e.header
    let bl := h.base.blockLen
    let ins := (List.range bl).map fun i =>
      if b * bl + i < e.k then datum n (b * bl + i) else (FVal.num false 0 0, true)
    let ts := fp32.decode e.scale
    let r := packBlock h.base h.plusX e.stochastic e.sparse (if e.ratio = 0 then 4 else e.ratio) 1
      ((List.range bl).zip ins |>.map fun v => if b * bl + v.1 < e.k then PackIn.ofFVal v.2.1 ts else PackIn.zero) g
    let bad := tainted || ins.any fun v => !v.2
    let mag (v : FVal) : Nat := if v.isFinite then (fp32.roundDy .nearest false v.dy.abs).bits else 0
    ⟨n, b, r, bad, (ins.map fun v => mag v.1).foldl max 0,
      r.pruned.map fun p => ((ins.getD p (FVal.num false 0 0, true)).1).dy.abs⟩ ::
      packBlocks e datum rest r.rng (bad && (tainted || e.stochastic))

/-- The blocks of the descriptor in stream order. -/
def Ext.blocks (e : Ext) : List (Nat × Nat) :=
  (List.range e.runs).flatMap fun n => (List.range e.header.blocks).map fun b => (n, b)

/-- The streams of a pack: offset, bytes, and for each byte the blocks (first and last, by number) it belongs to. -/
def packStreams (e : Ext) (bs : List PackedBlock) : List (Nat × List (Nat × Nat × Nat)) :=
  let h := e.header
  let bits_ := (bs.foldr (fun k acc =>
    let w := packBits h.base k.out.codes
    (w.1 + acc.1 * 2 ^ h.blockBits, acc.2 + h.blockBits)) (0, 0)).1
  let last := bs.length - 1
  let elems := (List.range h.elemBytes).map fun q =>
    (bits bits_ (8 * q + 7) (8 * q), 8 * q / h.blockBits, min last ((8 * q + 7) / h.blockBits))
  let per (n : Nat) (f : PackedBlock → Nat) : List (Nat × Nat × Nat) :=
    (bs.zip (List.range bs.length)).flatMap fun k => (leBytes n (f k.1)).map fun v => (v, k.2, k.2)
  [(h.elemOff, elems)] ++ (if h.base.blockScaled then [(h.scaleOff, per 1 fun k => k.out.scale)] else []) ++
    (if h.plusX then [(h.excOff, per 4 fun k => k.out.excWord)] else []) ++
    (if h.sparse ≠ 0 then [(h.indexOff, per h.indexBytes fun k => packIndices k.out.indices)] else [])

/-- What a span of blocks counts (R99). -/
structure SpanCount where
  first : Nat
  blocks : Nat
  worst : Nat
  saturations : Nat
  malformed : Nat
  exceptions : Nat
  overflows : Nat
  pruned : Nat
  overfull : Bool
  largest : Nat
  mass : Nat
deriving DecidableEq, Repr

def sumOf (l : List Nat) : Nat := l.foldl (· + ·) 0
/-- The index of the largest number, the lowest on a tie. -/
def maxIndex (l : List Nat) : Nat :=
  ((List.range l.length).find? fun i => l.getD i 0 == l.foldl max 0).getD 0

def SpanCount.of (first : Nat) (bs : List PackedBlock) : SpanCount :=
  { first := first, blocks := bs.length, worst := maxIndex (bs.map (·.out.saturations))
    saturations := sumOf (bs.map (·.out.saturations)), malformed := sumOf (bs.map (·.out.malformed))
    exceptions := sumOf (bs.map (·.out.exceptions)), overflows := (bs.filter (·.out.excOverflow)).length
    pruned := sumOf (bs.map (·.out.pruned.length)), overfull := bs.any (·.out.overfull)
    largest := (bs.map (·.largest)).foldl max 0
    mass := (bs.flatMap (·.pruned)).foldl (fun w v => (accAdd w v).1) 0 }

def SpanCount.stopped (k : SpanCount) : Bool :=
  [k.blocks, k.saturations, k.malformed].any (0xFFFFFFFF < ·) || [k.exceptions, k.overflows, k.pruned].any (0xFFFF < ·)

/-- The 64 bytes of a packer record (R99, R105). -/
def SpanCount.record (k : SpanCount) (index source job seq : Nat) (e : Ext) : List Nat :=
  let flags := k.stopped.toNat * 128 + k.overfull.toNat * 4 + (decide (0 < k.malformed)).toNat
  [0x10 + index, e.format, flags, 7 * 8 + e.sparse] ++ leBytes 4 source ++ leBytes 2 job ++ leBytes 2 seq ++
    leBytes 4 k.first ++ leBytes 4 (stopAt 4 k.blocks) ++ leBytes 4 k.worst ++ leBytes 4 (stopAt 4 k.saturations) ++
    leBytes 4 0 ++ leBytes 4 0 ++ leBytes 4 (stopAt 4 k.malformed) ++ leBytes 2 (stopAt 2 k.exceptions) ++
    leBytes 2 (stopAt 2 k.overflows) ++ leBytes 2 0 ++ leBytes 2 (stopAt 2 k.pruned) ++ leBytes 2 0 ++ leBytes 2 0 ++
    leBytes 4 k.largest ++ leBytes 4 k.mass ++ leBytes 4 0

end Sys2Proof.Machine
end

