-- ==== Sys2Proof/Machine/Hoist.lean ====
section
/-! DEFINITION. Hoists and stack ports as machines (R293, R296 to R319, R500): doorbells, descriptors, transfers with
their parts, completion records and signals, pauses and aborts, the interleave mode, and the patrol scrubber. A
descriptor moves its bytes in one event. -/

namespace Sys2Proof.Machine

/-! ## Registers of a HOIST page -/

def hCtrl (h : Nat) : Nat := pageHoist h + 0x054
def State.hoistEn (s : State) (h : Nat) : Bool := s.sregBit (hCtrl h) 0
def State.onHoist (s : State) (h : Nat) (f : Hoist → Hoist) : State := s.setHoist h (f (s.hoist h))
/-- Units the pending count never exceeds (R297). -/
def State.hoistLimit (s : State) (h : Nat) : Nat := min 0xFFFF (2 ^ s.sregBits (pageHoist h + 0x048) 4 0)
/-- Entries of the ring. -/
def State.ringSize (s : State) (h : Nat) : Nat := 2 ^ s.sregBits (pageHoist h + 0x048) 4 0
def State.ringBase (s : State) (h : Nat) : Nat :=
  s.sregBits (pageHoist h + 0x044) 15 0 * 2 ^ 32 + (s.sreg (pageHoist h + 0x040)).toNat / 64 * 64

/-- The job whose job-bound hoist this is, 0 for none (R312, R414). -/
def State.hoistJob (s : State) (h : Nat) : Nat :=
  match hoistPort h with
  | some _ => if (s.hoist h).job = s.jobId then s.jobId else 0
  | none => if 160 ≤ h ∧ !s.jobUses (h - 160) then 0 else s.jobId
/-- Whether a field of the job in progress is draining. -/
def State.jobDraining (s : State) : Bool :=
  match s.pithead.job with
  | some j => (List.range 48).any fun f => bit j.fields f && (s.field f).drain.isSome
  | none => false
/-- Whether a hoist is paused (R312). -/
def State.hoistPaused (s : State) (h : Nat) : Bool :=
  s.sregBit (hCtrl h) 1 || (s.hoistJob h != 0 && s.jobDraining)
/-- Whether the unit that owns a hoist is out of reset. -/
def State.hoistOn (s : State) (h : Nat) : Bool :=
  if h < 128 then 2 ≤ s.stackState (h / 4) else if h < 160 then !s.pithead.inReset else (s.field (h - 160)).foremanUp

/-! ## Doorbells (R297, R500) -/

def State.ringDoorbell (s : State) (h n : Nat) : State :=
  if s.hoistLimit h < (s.hoist h).pending + n then s.raiseHoist h 0x1201 .contained
  else s.onHoist h fun z => { z with pending := z.pending + n }

def execHoistDoorbell (w : Requester) (h : Fin 208) (v : Word) (s : State) : Out :=
  .next (s.pagePut w (hCtrl h.val) fun s => s.ringDoorbell h.val (bits v.toNat 15 0))

/-- The stack port a packet's destination names. -/
def stackOfEid (e : Nat) : Option Nat :=
  if 0xFFE00 ≤ eidLocal e ∧ eidLocal e < 0xFFE20 then some (eidLocal e - 0xFFE00) else none

/-- Whether a packet has reached a stack port: its head has left on the side of the rim at one of its entry routers. -/
def State.atStack (s : State) (p : Packet) (n : Nat) : Bool :=
  s.lands p && eidChip p.dst == s.chip && p.port == .side (stackSide n) && (stackEntries n).any fun x => x.x.val == p.tx && x.y.val == p.ty

/-- A TALLY_SIGNAL to a stack port: its tally names the hoist and its low 16 data bits the units (R297). -/
def execDoorbellRtsig (p : Packet) (s : State) : Out :=
  match stackOfEid p.dst with
  | some n =>
    if p.ptype = .tallySignal ∧ s.atStack p n then
      let s := s.consume p
      .next (if bits p.arg 5 0 < 4 then s.ringDoorbell (4 * n + bits p.arg 5 0) (bits p.data 15 0)
        else s.setSflag (pageStack n + 0x040) 7)
    else .next s
  | none => .next s

/-! ## Control (R311 to R313, R319) -/

/-- The last status and the count of descriptors ended. -/
def State.hoistEnds (s : State) (h : Nat) (st : Status) : State :=
  let s := (s.setSregBits (pageHoist h + 0x058) 15 8 st.code).scount (pageHoist h + 0x05C) 1
  s.onHoist h fun z => { z with run := none }

/-- The completion record of a running descriptor (R310). -/
def State.recordBytes (s : State) (h : Nat) (r : HoistRun) : List Nat :=
  [r.status.code, r.cause.code] ++ leBytes 2 (s.hoistJob h) ++ leBytes 4 r.seq ++ leBytes 8 r.bytesDone ++
    leBytes 8 (r.firstFail.getD (2 ^ 64 - 1)) ++ leBytes 4 r.failStacks ++ leBytes 4 (s.time % 2 ^ 32)

def HoistRun.desc_ (r : HoistRun) : Desc := Desc.of (r.desc.map BitVec.toNat)
def HoistRun.ext_ (r : HoistRun) : Ext := Ext.of (r.ext.map BitVec.toNat)

/-- Writes the completion record, and the interrupt where the descriptor asks for it (R310, R421). -/
def State.hoistRecord (s : State) (h : Nat) (r : HoistRun) : State :=
  let d := r.desc_
  let s := (s.writeSpan d.record (s.recordBytes h r)).2
  match hoistPort h with
  | some p => if d.interrupt then s.msix p (16 + hoistIndex h) else s
  | none => s

/-- Where a hoist's packets enter the mesh for a core (R294). -/
def State.hoistEntry (s : State) (h : Nat) (x : Site) : Option Site :=
  if h < 128 then s.entryRouter (stackEntries (h / 4)) ((x.x.val + x.y.val) % 16)
  else match hoistPort h with
    | some p => s.entryRouter (hostEntries p) ((x.x.val + x.y.val) % 16)
    | none => none

/-- Adds 1 to the tally the descriptor names, on VC0 (R310). -/
def State.hoistSignal (s : State) (h : Nat) (d : Desc) : State :=
  match Loc.of d.record with
  | .sram x _ =>
    let p := Packet.head .tallySignal (s.coreEid x) (s.chip * 2 ^ 20 + hoistOwner h) 0 (s.hoistJob h) (bits d.cmpl 53 48) 1
    match hoistPort h with
    | none =>
      if h < 128 then
        match s.hoistEntry h x with
        | some r => s.inject r.key (p.toward (Dest.of x .local_ false))
        | none => s
      else s.sendForeman (h - 160) p
    | some _ =>
      match s.hoistEntry h x with
      | some r => s.inject r.key (p.toward (Dest.of x .local_ false))
      | none => s
  | _ => s

/-- The running descriptor is over; one that ends other than OK with its stop flag set stops the chain (R311). -/
def State.hoistOver (s : State) (h : Nat) (r : HoistRun) : State :=
  let s := s.hoistEnds h r.status
  if r.status ≠ .ok && r.desc_.stop then s.setSregBits (hCtrl h) 0 0 0 else s

/-- R313: the running descriptor ends with ABORTED, its record and signal are sent, and no descriptor follows; an idle
hoist only forgets its pending units. -/
def State.hoistAbort (s : State) (h : Nat) : State :=
  let z := s.hoist h
  let s := s.setHoist h { z with pending := 0 }
  match z.run with
  | none => s
  | some r =>
    let total := r.desc_.total
    let k : HoistRun := { r with
      status := .aborted
      cause := if r.cause = .ok then .aborted else r.cause
      firstFail := if r.bytesDone = total && r.firstFail.isNone then none else some (r.firstFail.getD r.bytesDone) }
    let s := if r.recorded then s else s.hoistRecord h k
    let s := if r.desc_.signal then s.hoistSignal h r.desc_ else s
    (s.hoistEnds h (if r.recorded then r.status else .aborted)).setSregBits (hCtrl h) 1 0 0

/-- The hoists that run the job in progress (R312): those of the stack ports and of its fields' foremen, and those its
slate binds. -/
def State.jobHoists (s : State) : List Nat :=
  match s.pithead.job with
  | some _ => (List.range 208).filter fun h => s.hoistJob h != 0
  | none => []
/-- The end of a job's drains aborts its job-bound hoists (R313). -/
def State.abortJobHoists (s : State) : State :=
  (s.jobHoists.foldl (fun s h => s.hoistAbort h) s).onPithead fun p =>
    { p with job := p.job.map fun j => { j with hoistsEnded := true } }

/-- A write of HOIST.CTRL. -/
def State.hoistCtrl (s : State) (h : Nat) (v : Word) : State :=
  let s := s.setSregBits (hCtrl h) 1 0 (bits v.toNat 1 0)
  if bit v.toNat 2 then s.hoistAbort h else s
def execHoistEnable (w : Requester) (h : Fin 208) (v : Word) (s : State) : Out :=
  .next (s.pagePut w (hCtrl h.val) fun s => s.hoistCtrl h.val v)
def execHoistPause (w : Requester) (h : Fin 208) (v : Word) (s : State) : Out :=
  .next (s.pagePut w (hCtrl h.val) fun s => s.hoistCtrl h.val v)
def execHoistAbort (w : Requester) (h : Fin 208) (v : Word) (s : State) : Out :=
  .next (s.pagePut w (hCtrl h.val) fun s => s.hoistCtrl h.val v)

/-! ## Fetching a descriptor (R296, R298, R300) -/

/-- Ring entry i: its 64 bytes, or the status of the read. -/
def State.ringEntry (s : State) (h i : Nat) : List Nat × Status × State :=
  let r := s.readSpan (s.ringBase h + 64 * (i % s.ringSize h)) 64
  (r.1.map Prod.fst, firstBad (r.1.map Prod.snd), r.2)

/-- A ring entry that cannot be read stops fetching, its status in HOIST.STATUS. -/
def State.ringFails (s : State) (h : Nat) (st : Status) : State :=
  (s.setSregBits (pageHoist h + 0x058) 15 8 st.code).setSregBits (hCtrl h) 0 0 0

/-- A fetched descriptor with its checks; one that fails a check moves nothing. -/
def State.hoistTakes (s : State) (h : Nat) (l x : List Nat) : State :=
  let z := s.hoist h
  let units := if leAt l 0 1 = 3 then 2 else 1
  let host := (hoistPort h).isSome
  let hostDst := match hoistPort h with
    | some p => s.sregBit (pageHostport p + 0x064) (hoistIndex h)
    | none => false
  let st := descCheck host hostDst (Desc.of l) (Ext.of x)
  let run : HoistRun := ⟨l.map (BitVec.ofNat 8), x.map (BitVec.ofNat 8), z.head, st ≠ .ok, false, st, st, 0,
    if st = .ok ∨ (Desc.of l).total = 0 then none else some 0, 0⟩
  let s := s.setHoist h { z with
    pending := z.pending - units, head := (z.head + units) % s.ringSize h, run := some run }
  if st = .ok then s else s.raiseHoist h 0x0B04 .contained

def execDescriptorStart (h : Fin 208) (s : State) : Out :=
  let z := s.hoist h.val
  if !s.hoistOn h.val || !s.hoistEn h.val || s.hoistPaused h.val || z.run.isSome || z.pending = 0 then .next s
  else
    let r := s.ringEntry h.val z.head
    if r.2.1 ≠ .ok then .next (r.2.2.ringFails h.val r.2.1)
    else if leAt r.1 0 1 ≠ 3 then .next (r.2.2.hoistTakes h.val r.1 [])
    else if z.pending < 2 then .next r.2.2
    else
      let e := r.2.2.ringEntry h.val (z.head + 1)
      .next (if e.2.1 ≠ .ok then e.2.2.ringFails h.val e.2.1 else e.2.2.hoistTakes h.val r.1 e.1)

/-! ## Moving bytes (R301, R302, R306 to R309) -/

/-- One end of a transfer. -/
inductive End
  | eng (a : Nat)
  | host (p a : Nat)
deriving DecidableEq, Repr

def End.addr : End → Nat
  | .eng a => a
  | .host _ a => a
def End.plus : End → Nat → End
  | .eng a, n => .eng (a + n)
  | .host p a, n => .host p (a + n)
/-- The stack of an end that lies in HBM. -/
def State.endStack (s : State) : End → Option Nat
  | .eng a => match Loc.of a with
    | .hbm _ => some (s.stackOf a)
    | _ => none
  | .host _ _ => none

/-- The source or destination side of a hoist at an address. -/
def State.hoistEnd (s : State) (h : Nat) (dst : Bool) (a : Int) : End :=
  match hoistPort h with
  | some p => if s.sregBit (pageHostport p + 0x064) (hoistIndex h) = dst then .host p a.toNat else .eng a.toNat
  | none => .eng a.toNat

def State.endRead (s : State) (e : End) (n : Nat) : Peek :=
  match e with
  | .eng a => s.peek a n
  | .host p a => if s.hostUp p then ⟨s.hostBytes p a n, .ok, n, s⟩ else Peek.fail s n .poisoned
/-- A read whose bytes from one on are in host memory that does not answer, or answers with an error (R422). -/
def State.endReadBut (s : State) (bad : List (Nat × Nat)) (e : End) (n : Nat) : Peek :=
  let r := s.endRead e n
  match e with
  | .eng _ => r
  | .host _ a =>
    match (List.range r.good).find? fun i => bad.any fun b => decide (b.1 ≤ a + i) && decide (a + i < b.1 + b.2) with
    | some i => { r with status := .poisoned, good := i }
    | none => r
def State.endWrite (s : State) (e : End) (bs : List Nat) : Status × State :=
  match e with
  | .eng a => s.poke a bs
  | .host p a => if s.hostUp p then (.ok, s.putHost p a bs) else (.poisoned, s)

/-- A transfer on its way: the parts that have failed, each with its lowest failing stream offset and status. -/
structure Xfer where
  st : State
  /-- Engine ranges of the source, address and length: what the destination holds there is undefined (R300). -/
  src : List (Nat × Nat)
  /-- Host memory, address and length, that does not deliver (R422). -/
  bad : List (Nat × Nat)
  failed : List (Nat × Nat × Status)
  /-- Stream bytes whose data have reached the destination. -/
  done : Nat
  /-- Stream bytes of failed parts whose bursts may or may not have been issued. -/
  open_ : Nat

def Xfer.failing (x : Xfer) (ps : List Nat) : Bool := x.failed.any fun f => ps.contains f.1
/-- A part fails at a stream offset, unless it has failed lower. -/
def Xfer.fail (x : Xfer) (part off : Nat) (st : Status) : Xfer :=
  if x.failed.any fun f => f.1 == part then
    { x with failed := x.failed.map fun f => if f.1 = part ∧ off < f.2.1 then (part, off, st) else f }
  else { x with failed := x.failed ++ [(part, off, st)] }
/-- The parts a chunk belongs to (R308): its stacks, or part 0. -/
def Xfer.parts (x : Xfer) (src : Option End) (dst : End) : List Nat :=
  match (src.bind x.st.endStack).toList ++ (x.st.endStack dst).toList with
  | [] => [0]
  | l => l

/-- What is written at a destination: bytes that lie in the source are undefined (R300). -/
def Xfer.written (x : Xfer) (dst : End) (bs : List Nat) : List Nat × Xfer :=
  match dst with
  | .host _ _ => (bs, x)
  | .eng a =>
    let hit (i : Nat) : Bool := x.src.any fun q => decide (q.1 ≤ a + i) && decide (a + i < q.1 + q.2)
    if (List.range bs.length).any hit then
      let v := x.st.fresh
      ((bs.zip (List.range bs.length)).map fun b => if hit b.2 then Config.freeValue v.1 b.2 % 256 else b.1,
        { x with st := v.2 })
    else (bs, x)

/-- Undefined bytes at a destination. -/
def Xfer.scramble (x : Xfer) (dst : End) (n : Nat) : Xfer :=
  if n = 0 then x
  else
    let v := x.st.fresh
    { x with st := (v.2.endWrite dst ((List.range n).map fun i => Config.freeValue v.1 i % 256)).2 }

/-- The bytes up to the next aligned 32. -/
def End.upTo (e : End) (n : Nat) : Nat := min n (32 - e.addr % 32)

/-- Reads up to 32 bytes of a copy: each byte, with the part that fails where its write fails; no part for a byte that did not
arrive. -/
def Xfer.fetch (x : Xfer) (off : Nat) (src dst : End) (n : Nat) : List (Nat × Option Nat) × Xfer :=
  let ps := x.parts (some src) dst
  if n = 0 then ([], x)
  else if x.failing ps then (List.replicate n (0, none), { x with open_ := x.open_ + n })
  else
    let p := (x.st.endStack src).getD (ps.getD 0 0)
    let r := x.st.endReadBut x.bad src n
    let x := { x with st := r.after }
    ((r.bytes.zip (List.range n)).map fun b => (b.1, if b.2 < r.good then some p else none),
      if r.good = n then x else x.fail p (off + r.good) r.status)

/-- Bytes of a copy that are made, not read. -/
def Xfer.made (x : Xfer) (dst : End) (bs : List Nat) : List (Nat × Option Nat) × Xfer :=
  let ps := x.parts none dst
  if x.failing ps then (bs.map fun _ => (0, none), { x with open_ := x.open_ + bs.length })
  else (bs.map fun b => (b, some (ps.getD 0 0)), x)

/-- Writes bytes of one aligned 32 that have all arrived, or leaves undefined bytes where none has. A write that fails, fails
the stack it goes to, else each byte's part (R309). -/
def Xfer.put (x : Xfer) (off : Nat) (dst : End) (g : List (Nat × Option Nat)) : Xfer :=
  if g.all fun b => b.2.isNone then x.scramble dst g.length
  else
    let o := x.written dst (g.map Prod.fst)
    let w := o.2.st.endWrite dst o.1
    let x := { o.2 with st := w.2 }
    if w.1 = .ok then { x with done := x.done + g.length }
    else
      let ps := (g.zip (List.range g.length)).filterMap fun b => b.1.2.map fun p => ((x.st.endStack dst).getD p, off + b.2)
      (ps.foldl (fun x q => x.fail q.1 q.2 w.1) x).scramble dst g.length

/-- Moves one row, a destination burst at a time, so that a burst whose bytes all arrive is written whole (R315); the fuel
bounds the bursts. `make j` gives byte j of a row that is made, not read. -/
def Xfer.row (x : Xfer) (off : Nat) (src : Option End) (dst : End) (make : Nat → Nat) (j : Nat) : Nat → Nat → Xfer
  | 0, _ => x
  | fuel + 1, n =>
    if n = 0 then x
    else
      let k := dst.upTo n
      let g := match src with
        | none => x.made dst ((List.range k).map fun i => make (j + i))
        | some e =>
          let a := e.upTo k
          let r := x.fetch off e dst a
          let t := r.2.fetch (off + a) (e.plus a) (dst.plus a) (k - a)
          (r.1 ++ t.1, t.2)
      let x := ((g.1.splitBy fun a b => a.2.isSome == b.2.isSome).foldl (fun q l =>
        (q.1 + l.length, q.2.put (off + q.1) (dst.plus q.1) l)) (0, g.2)).2
      x.row (off + k) (src.map fun e => e.plus k) (dst.plus k) make (j + k) fuel (n - k)

/-- Where a descriptor's source lies in engine space. -/
def State.sourceRanges (s : State) (h : Nat) (d : Desc) : List (Nat × Nat) :=
  (d.rows d.len1).filterMap fun q =>
    match s.hoistEnd h false (d.srcRow q.1 q.2) with
    | .eng a => some (a, d.rowBytes)
    | .host _ _ => none

/-- Copy and fill (R301). -/
def State.moveRows (s : State) (h : Nat) (d : Desc) (bad : List (Nat × Nat)) : Xfer :=
  (d.rows d.len1).foldl (fun x q =>
    let off := (q.1 * d.len1 + q.2) * d.len0
    let src := if d.op = 1 then none else some (x.st.hoistEnd h false (d.srcRow q.1 q.2))
    x.row off src (x.st.hoistEnd h true (d.dstRow q.1 q.2)) (fun j => bits d.src (j % 4 * 8 + 7) (j % 4 * 8)) 0
      (d.len0 / 32 + 2) d.len0) ⟨s, if d.op = 1 then [] else s.sourceRanges h d, bad, [], 0, 0⟩

/-- A run of bytes fails: each at its stream offset, in every part that carries it (R309). -/
def Xfer.failAll (x : Xfer) (bs : List (Nat × List Nat)) (st : Status) : Xfer :=
  bs.foldl (fun x b => b.2.foldl (fun x p => x.fail p b.1 st) x) x

/-- The parts of a byte of a turn or a pack: the stack its own end lies in, else those that `carry` names, else part 0. -/
def Xfer.carriers (x : Xfer) (e : End) (carry : List Nat) : List Nat :=
  match x.st.endStack e with
  | some p => [p]
  | none => if carry.isEmpty then [0] else carry

/-- Reads the source of a turn or a pack in stream order: each byte, and whether it arrived. `carry j` gives the parts of byte j
of a row that is not in HBM: the stacks of the destination bytes it feeds. -/
def Xfer.gather (x : Xfer) (carry : Nat → List Nat) (off : Nat) (src : End) (j : Nat) : Nat → Nat → List (Nat × Bool) × Xfer
  | 0, _ => ([], x)
  | fuel + 1, n =>
    if n = 0 then ([], x)
    else
      let k := src.upTo n
      let ps := (List.range k).map fun i => (off + i, x.carriers src (carry (j + i)))
      let r : List (Nat × Bool) × Xfer :=
        if ps.all fun q => x.failing q.2 then (List.replicate k (0, false), x)
        else
          let r := x.st.endReadBut x.bad src k
          ((r.bytes.zip (List.range k)).map fun b => (b.1, decide (b.2 < r.good)),
            { x with st := r.after }.failAll (ps.drop r.good) r.status)
      let t := r.2.gather carry (off + k) (src.plus k) (j + k) fuel (n - k)
      (r.1 ++ t.1, t.2)
/-- All source rows of a turn or a pack; `carry r k` for byte k of row r. -/
def State.gatherRows (s : State) (h : Nat) (d : Desc) (bad : List (Nat × Nat)) (carry : Nat → Nat → List Nat) : List (Nat × Bool) × Xfer :=
  (d.rows d.len1).foldl (fun acc q =>
    let row := q.1 * d.len1 + q.2
    let r := acc.2.gather (carry row) (row * d.rowBytes) (acc.2.st.hoistEnd h false (d.srcRow q.1 q.2)) 0 (d.rowBytes / 32 + 2)
      d.rowBytes
    (acc.1 ++ r.1, r.2)) ([], ⟨s, s.sourceRanges h d, bad, [], 0, 0⟩)

/-- Writes made bytes from an address on: each byte's value and whether it is defined; `off` gives the lowest stream
offset that feeds a byte and `carry` the stacks its source lies in. The answer says which bytes stand. -/
def Xfer.scatter (x : Xfer) (dst : End) (carry : Nat → List Nat) (off : Nat → Nat) (j : Nat) :
    Nat → List (Nat × Bool) → List Bool × Xfer
  | 0, _ => ([], x)
  | fuel + 1, bs =>
    if bs.isEmpty then ([], x)
    else
      let k := dst.upTo bs.length
      let ps := (List.range k).map fun i => (off (j + i), x.carriers dst (carry (j + i)))
      let here := bs.take k
      let v := x.st.fresh
      let vals := (here.zip (List.range k)).map fun b => if b.1.2 then b.1.1 else Config.freeValue v.1 b.2 % 256
      let x := if here.all (·.2) then x else { x with st := v.2 }
      let r : List Bool × Xfer :=
        if ps.all fun q => x.failing q.2 then (List.replicate k false, x.scramble dst k)
        else
          let o := x.written dst vals
          let w := o.2.st.endWrite dst o.1
          let x := { o.2 with st := w.2 }
          if w.1 = .ok then (here.map (·.2), x) else (List.replicate k false, x.failAll ps w.1)
      let t := r.2.scatter (dst.plus k) carry off (j + k) fuel (bs.drop k)
      (r.1 ++ t.1, t.2)

/-- Turn (R302): the stream bytes that have completed, in stream order. -/
def State.turnRows (s : State) (h : Nat) (d : Desc) (bad : List (Nat × Nat)) : List Bool × Xfer :=
  let e := turnBits d.elem
  let rb := d.rowBytes
  let ob := ceilDiv (d.len1 * e) 8
  let into (row k : Nat) : List Nat :=
    (turnFeeds e d.len0 (row % d.len1) k).filterMap fun t => s.endStack ((s.hoistEnd h true (d.dstRow (row / d.len1) t.1)).plus t.2)
  let g := s.gatherRows h d bad into
  let w := (d.rows d.len0).foldl (fun acc q =>
    let src (i k : Nat) : Nat × Bool := g.1.getD ((q.1 * d.len1 + i) * rb + k) (0, false)
    let bs := (List.range ob).map fun b => turnByte e d.len1 q.2 b src
    let off (b : Nat) : Nat := (((turnFrom e d.len1 q.2 b).map fun t => (q.1 * d.len1 + t.1) * rb + t.2).min?).getD 0
    let from_ (b : Nat) : List Nat := (turnFrom e d.len1 q.2 b).filterMap fun t =>
      s.endStack ((s.hoistEnd h false (d.srcRow q.1 t.1)).plus t.2)
    let r := acc.2.scatter (acc.2.st.hoistEnd h true (d.dstRow q.1 q.2)) from_ off 0 (ob / 32 + 2) bs
    (acc.1 ++ r.1, r.2)) (([] : List Bool), g.2)
  let done := (d.rows d.len1).flatMap fun q => (List.range rb).map fun k =>
    (g.1.getD ((q.1 * d.len1 + q.2) * rb + k) (0, false)).2 &&
      (turnFeeds e d.len0 q.2 k).all fun t => w.1.getD ((q.1 * d.len0 + t.1) * ob + t.2) false
  (done, w.2)

/-! ## Pack totals (R307, R319) -/

/-- A Pack total would pass its maximum. -/
def State.packTotalFull (s : State) (h : Nat) (q : Nat × Nat) : Bool :=
  decide (0xFFFFFFFF < (s.sreg (pageHoist h + q.1)).toNat + q.2)

/-- One Pack total, which stops at its maximum and then sets PACK_STATUS.counter_saturated. -/
def State.packTotal (s : State) (h : Nat) (q : Nat × Nat) : State :=
  let full := s.packTotalFull h q
  let s := s.scount (pageHoist h + q.1) q.2
  if full then s.setSflag (pageHoist h + 0x060) 3 else s

/-- What a span counts reaches the totals and flags, of its packed blocks alone where others lack input (R307). A span raises
one entry of each code (R117). DESIGN CHOICE (log 142): the mass of a span is summed in the order of its stream, and
PACK_PRUNED_MASS takes that rounded sum in one addition. -/
def State.packTotals (s : State) (h : Nat) (k : SpanCount) (record : Bool) : State :=
  let page := pageHoist h
  let totals := [(0x064, k.saturations), (0x068, k.malformed), (0x06C, k.exceptions), (0x070, k.overflows),
    (0x074, k.pruned), (0x078, if record then 1 else 0)]
  let full := totals.any (s.packTotalFull h) || (record && k.stopped)
  let s := totals.foldl (fun s q => s.packTotal h q) s
  let s := s.setSreg (page + 0x07C)
    (BitVec.ofNat 32 (accAdd (s.sreg (page + 0x07C)).toNat (fp32.decode k.mass).dy).1)
  let s := if full then s.raiseHoist h 0x0403 .corrected else s
  let s := if k.malformed = 0 then s else (s.setSflag (page + 0x060) 0).raiseHoist h 0x0404 .corrected
  let s := if k.overflows = 0 then s else s.setSflag (page + 0x060) 1
  if k.overfull then (s.setSflag (page + 0x060) 2).raiseHoist h 0x0602 .corrected else s

/-- The record of span i, whose bytes all stand (R105, R307). -/
def State.packRecord (s : State) (h : Nat) (e : Ext) (i : Nat) (k : SpanCount) : State :=
  let z := s.hoist h
  let bs := k.record (hoistIndex h) (s.chip * 2 ^ 20 + hoistOwner h) s.jobId z.recSeq e
  let s := s.setHoist h { z with recSeq := (z.recSeq + 1) % 2 ^ 16 }
  (s.writeSpan (e.recBase + i % e.recSlots * 64) bs).2

/-- One span: `bs` are its blocks, `whole` says that its bytes all stand. -/
def State.packSpan (s : State) (h : Nat) (e : Ext) (i : Nat) (first : Nat) (bs : List PackedBlock) (whole : Bool) : State :=
  let record := e.records && whole
  let k := SpanCount.of first (bs.filter fun b => !b.bad)
  let s := s.packTotals h k record
  if record then s.packRecord h e i k else s

/-- Pack (R306, R307): the stream bytes that have completed. -/
def State.packRun (s : State) (h : Nat) (d : Desc) (e : Ext) (bad : List (Nat × Nat)) : List Bool × Xfer :=
  let fmt := (packInput d.elem).getD (fp32, 4)
  let hd := e.header
  let bl := hd.base.blockLen
  -- the block a source byte feeds, the stream bytes of a block, and the source bytes of a block
  let blockOf (row k : Nat) : Nat :=
    let n := if e.turnIn then k / fmt.2 else row
    let p := if e.turnIn then row else k / fmt.2
    n * hd.blocks + p / bl
  let out (b : Nat) : List Nat :=
    let per (on : Bool) (off n : Nat) : List Nat := if on then (List.range n).map (off + b * n + ·) else []
    ((List.range ((b * hd.blockBits + hd.blockBits - 1) / 8 + 1 - b * hd.blockBits / 8)).map
      (hd.elemOff + b * hd.blockBits / 8 + ·)) ++ per hd.base.blockScaled hd.scaleOff 1 ++ per hd.plusX hd.excOff 4 ++
      per (hd.sparse ≠ 0) hd.indexOff hd.indexBytes
  let into (row k : Nat) : List Nat :=
    ((out (blockOf row k)).filterMap fun o => s.endStack (s.hoistEnd h true (d.dst + o : Nat))).eraseDups
  let at_ (n p : Nat) : Nat := if e.turnIn then p * d.len0 + n * fmt.2 else n * d.len0 + p * fmt.2
  let srcOf (b : Nat) : List Nat :=
    ((List.range (min bl (e.k - b % hd.blocks * bl))).flatMap fun i =>
      (List.range fmt.2).filterMap fun t =>
        let q := at_ (b / hd.blocks) (b % hd.blocks * bl + i) + t
        s.endStack (s.hoistEnd h false (d.srcRow 0 (q / d.len0) + (q % d.len0 : Nat)))).eraseDups
  let g := s.gatherRows h d bad into
  let datum (n p : Nat) : FVal × Bool :=
    let bs := (List.range fmt.2).map fun i => g.1.getD (at_ n p + i) (0, false)
    (fmt.1.decode (leNat (bs.map Prod.fst)), bs.all (·.2))
  let blocks := packBlocks e datum e.blocks (rngSeed (BitVec.ofNat 64 e.seed)) false
  let lacks (lo hi : Nat) : Bool := ((blocks.drop lo).take (hi + 1 - lo)).any (·.bad)
  let first (b : Nat) : Nat := at_ (b / hd.blocks) (b % hd.blocks * bl)
  let w := (packStreams e blocks).foldl (fun acc q =>
    let bs := q.2.map fun v => (v.1, !lacks v.2.1 v.2.2)
    let ends (j : Nat) : Nat × Nat := (q.2.getD j (0, 0, 0)).2
    let r := acc.2.scatter (acc.2.st.hoistEnd h true (d.dst + q.1)) (fun j => srcOf (ends j).1 ++ srcOf (ends j).2)
      (fun j => first (ends j).1) 0 (bs.length / 32 + 2) bs
    let lost := (q.2.zip r.1).flatMap fun v => if v.2 then [] else [v.1.2.1, v.1.2.2]
    (acc.1 ++ lost, r.2)) (([] : List Nat), g.2)
  let ok (b : Nat) : Bool := !w.1.contains b
  let x := w.2
  let x :=
    if e.writeHeader && x.failed.isEmpty then
      (x.scatter (x.st.hoistEnd h true d.dst) (fun _ => (srcOf 0).take 1) (fun _ => 0) 0 3 (hd.bytes.map fun b => (b, true))).2
    else x
  let s := (List.range (ceilDiv e.runs e.spanRuns)).foldl (fun s i =>
    let lo := i * e.spanRuns * hd.blocks
    let n := min e.spanRuns (e.runs - i * e.spanRuns) * hd.blocks
    s.packSpan h e i (i * e.spanRuns) ((blocks.drop lo).take n) ((List.range n).all fun b => ok (lo + b))) x.st
  let done := (List.range d.total).map fun q =>
    (g.1.getD q (0, false)).2 && ok (blockOf (q / d.len0) (q % d.len0))
  (done, { x with st := s })

/-! ## The end of a descriptor's parts (R309, R310) -/

/-- The failing part with the lowest failing stream offset. -/
def lowestFail : List (Nat × Nat × Status) → Option (Nat × Status)
  | [] => none
  | f :: fs =>
    match lowestFail fs with
    | some k => if k.1 < f.2.1 then some k else some f.2
    | none => some f.2

/-- All parts have ended: the record's fields, and each failed part counted at its port. PARTIAL takes a stream byte that
completed and one that failed. -/
def Xfer.finish (x : Xfer) (h : Nat) (r : HoistRun) (done : Nat) (first : Option Nat) : State :=
  let hbm := (r.desc_.srcRanges.any fun q => (x.st.endStack (x.st.hoistEnd h false q.1)).isSome) ||
    (r.desc_.dstRanges r.ext_).any fun q => (x.st.endStack (x.st.hoistEnd h true q.1)).isSome
  let s := if hbm then x.failed.foldl (fun s f => s.scount (pageStack f.1 + 0x05C) 1) x.st else x.st
  let cause := ((lowestFail x.failed).map Prod.snd).getD .ok
  let status : Status := if x.failed.isEmpty then .ok else if done = 0 || first.isNone then cause else .part
  let stackPorts := (x.failed.map Prod.fst).eraseDups.foldl (fun a p => a + 2 ^ p) 0
  s.onHoist h fun z => { z with run := some { r with
    moved := true, status := status, cause := cause, bytesDone := done, firstFail := first, failStacks := stackPorts } }

/-- A running descriptor of operation `op` moves its bytes, unless its hoist is paused. -/
def State.hoistRuns (s : State) (h op : Nat) (k : HoistRun → State) : Out :=
  match (s.hoist h).run with
  | some r => if r.desc_.op = op && !r.moved && s.hoistOn h && !s.hoistPaused h then s.throughRim (.next (k r)) else .next s
  | none => .next s

/-- Copy or fill. The bursts that a failed part had issued past its failure are open. -/
def State.hoistMoves (s : State) (h : Nat) (r : HoistRun) (bad : List (Nat × Nat)) : State :=
  let x := s.moveRows h r.desc_ bad
  let v := x.st.fresh
  let more := if x.open_ = 0 then 0 else Config.freeValue v.1 0 % (x.open_ + 1)
  let x := if x.open_ = 0 then x else { x with st := v.2 }
  x.finish h r (x.done + more) ((lowestFail x.failed).map Prod.fst)

def execCopy (h : Fin 208) (bad : List (Nat × Nat)) (s : State) : Out := s.hoistRuns h.val 0 fun r => s.hoistMoves h.val r bad
def execFill (h : Fin 208) (s : State) : Out := s.hoistRuns h.val 1 fun r => s.hoistMoves h.val r []

/-- The stream bytes completed, and the lowest that did not. -/
def Xfer.finishStream (x : Xfer) (h : Nat) (r : HoistRun) (done : List Bool) : State :=
  x.finish h r (done.filter id).length ((List.range done.length).find? fun i => !(done.getD i true))

def execTurn (h : Fin 208) (bad : List (Nat × Nat)) (s : State) : Out :=
  s.hoistRuns h.val 2 fun r =>
    let w := s.turnRows h.val r.desc_ bad
    w.2.finishStream h.val r w.1
def execPack (h : Fin 208) (bad : List (Nat × Nat)) (s : State) : Out :=
  s.hoistRuns h.val 3 fun r =>
    let w := s.packRun h.val r.desc_ r.ext_ bad
    w.2.finishStream h.val r w.1

/-- The record is written; without a signal the descriptor is over. -/
def execHoistCompletion (h : Fin 208) (s : State) : Out :=
  match (s.hoist h.val).run with
  | some r =>
    if r.moved && !r.recorded && s.hoistOn h.val then
      let s := s.hoistRecord h.val r
      .next (if r.desc_.signal then s.onHoist h.val fun z => { z with run := some { r with recorded := true } }
        else s.hoistOver h.val r)
    else .next s
  | none => .next s

/-- The record has been acknowledged: the tally is signalled and the descriptor is over. -/
def execHoistSignal (h : Fin 208) (s : State) : Out :=
  match (s.hoist h.val).run with
  | some r => .next (if r.recorded && s.hoistOn h.val then (s.hoistSignal h.val r.desc_).hoistOver h.val r else s)
  | none => .next s

/-! ## Stack ports (R293, R316, R317) -/

/-- A write of STACKPORT.INTERLEAVE of port 0 (R293): refused while a job runs or a hoist is busy. -/
def State.interleave (s : State) (v : Word) : State :=
  let off := pageStack 0 + 0x044
  let s := if bit v.toNat 1 then s.setSregBits off 1 1 0 else s
  if s.pithead.job.isSome || (List.range 208).any fun h => (s.hoist h).run.isSome then s.setSflag off 1
  else s.setSregBits off 0 0 (bits v.toNat 0 0)
def execInterleaveWrite (w : Requester) (v : Word) (s : State) : Out :=
  .next (s.pagePut w (pageStack 0 + 0x044) fun s => s.interleave v)

/-- The HBM address of a burst of a stack: the inverse of R292's map, found by channel and location. -/
def State.burstAddr (s : State) (n k : Nat) : Nat :=
  let channel := k / (24 * 2 ^ 20)
  let loc := k % (24 * 2 ^ 20) * 32
  if s.localMode then
    let g := loc / 2048
    n * (24 * 2 ^ 30) + (g * 32 + (channel ^^^ (g % 32))) * 2048 + loc % 2048
  else
    let hi := loc / 2048
    let pc := channel * 32 + n
    (hi * 1024 + (pc ^^^ ((hi ^^^ (hi / 1024)) % 1024))) * 2048 + loc % 2048

/-- The patrol scrubber reads its next burst (R316). -/
def execPatrolScrub (stack : Fin 32) (s : State) : Out :=
  if s.stackState stack.val ≠ 2 || s.flash.stopped || !s.sregBit (pageStack stack.val + 0x050) 31 then .next s
  else
    let k := s.patrol.get (fun _ => 0) stack.val
    let s := { s with patrol := s.patrol.set (fun _ => 0) stack.val ((k + 1) % (32 * 24 * 2 ^ 20)) }
    .next (s.readBurst (s.burstAddr stack.val k))

/-- A stack port goes OFFLINE (R317): whatever job runs is drained. -/
def execStackOffline (stack : Fin 32) (_cause : OfflineCause) (s : State) : Out :=
  if s.stackState stack.val ≠ 2 then .next s
  else .next ({ s with stackPorts := s.stackPorts.set (fun _ => 0) stack.val 3 }.raiseStack stack.val 0x0B03 .jobFatal)

end Sys2Proof.Machine
end

