-- ==== Sys2Proof/Machine/Memory.lean ====
section
/-! DEFINITION. Parking and waking the banks of core SRAM, and the scrubber (R277 to R286). -/

namespace Sys2Proof.Machine

/-- Whether a write of CORE.MEM_PARK is refused as a whole (R278). -/
def Core.parkRefused (c : Core) (v : Nat) : Bool :=
  let park (b : Nat) : Bool := bit v b
  (List.range 16).any fun b =>
    park b && (bit v (16 + b) || decide (c.bank b = .waking) ||
      (!c.linear (b / 4) && !(List.range 4).all fun i => park (b / 4 * 4 + i)))

/-- What an accepted write does to one bank. -/
def Bank.request (k : Bank) (park wake : Bool) : Bank :=
  match k with
  | .active => if park then .closing false else .active
  | .parked => if wake then .waking else .parked
  | .closing w => .closing (w || wake)
  | .waking => .waking

/-- A bank's words are gone: they read zero, with valid check bits, once it wakes (R280). -/
def Core.clearBank (c : Core) (b : Nat) : Core :=
  { c with sram := c.sram.filter fun e => e.1 / 8192 != b, ecc := c.ecc.filter fun e => e.1 / 512 != b }

/-- A bank starts waking in cycle `now` of its field's clock. -/
def Core.wake (c : Core) (b now : Nat) : Core :=
  { c.setBank b .waking with wakeAt := c.wakeAt.set (fun _ => 0) b now }

/-- A write of CORE.MEM_PARK (R278). -/
def Core.memPark (c : Core) (v now : Nat) : Core :=
  if c.parkRefused v then c.refuse
  else (List.range 16).foldl (fun c b =>
    match (c.bank b).request (bit v b) (bit v (16 + b)) with
    | .waking => if c.bank b = .waking then c else c.wake b now
    | k => c.setBank b k) c
def State.memPark (s : State) (w : Requester) (x : Site) (v : Word) : State :=
  s.corePut w x fun s => s.onCore x fun c => c.memPark v.toNat ((s.field x.field).clk / 20)

def execBankPark (w : Requester) (x : Site) (v : Word) (s : State) : Out := .next (s.memPark w x v)
def execBankWake (w : Requester) (x : Site) (v : Word) (s : State) : Out := .next (s.memPark w x v)

/-- The last access accepted before the close has committed (R279): parked, or waking where a wake came meanwhile. -/
def Core.bankParked (c : Core) (b now : Nat) : Core :=
  match c.bank b with
  | .closing wake => if wake then (c.clearBank b).wake b now else (c.clearBank b).setBank b .parked
  | _ => c
def execBankParkedDone (x : Site) (bank : Fin 16) (s : State) : Out :=
  .next (if s.coreClocked x then s.onCore x fun c => c.bankParked bank.val ((s.field x.field).clk / 20) else s)

/-- 544 cycles after waking starts: the bank reads zero (R280). -/
def Core.bankWoken (c : Core) (b : Nat) : Core :=
  match c.bank b with
  | .waking => (c.clearBank b).setBank b .active
  | _ => c
/-- CORE_CLK cycles from the start of waking to an active bank. -/
def wakeCycles : Nat := 544
/-- ns until a waking bank of a core is active. -/
def State.wakeLeft (s : State) (x : Site) (b : Nat) : Nat :=
  let c := s.core x
  let fl := s.field x.field
  if c.bank b = .waking then ceilDiv (20 * (c.wakeAt.get (fun _ => 0) b + wakeCycles) - fl.clk) fl.rate else 0
def execBankActive (x : Site) (bank : Fin 16) (s : State) : Out :=
  .next (if s.coreClocked x then
    (s.elapse (s.wakeLeft x bank.val)).onCore x fun c => c.bankWoken bank.val
  else s)

/-- Every bank of a core that is closing or parked starts waking (R282). -/
def Core.wakeBanks (c : Core) (now : Nat) : Core :=
  (List.range 16).foldl (fun c b =>
    match c.bank b with
    | .closing _ | .parked => (c.clearBank b).wake b now
    | _ => c) c

/-- Cycles from one read of the scrubber to the next (R285). -/
def Core.scrubInterval (c : Core) : Nat := max 64 (c.regBits 0x0C0 11 0)

/-- The scrubber reads its next word, or skips one in a bank that is not active (R285): an interval after the one before,
which engine time reaches. -/
def execScrubRead (x : Site) (s : State) : Out :=
  let c := s.core x
  if !s.coreClocked x || !c.regBit 0x0C0 31 then .next s
  else
    let fl := s.field x.field
    let due := c.scrubAt + c.scrubInterval
    let s := (s.elapse (ceilDiv (20 * due - fl.clk) fl.rate)).onCore x fun c => { c with scrubAt := max due (fl.clk / 20) }
    let w := c.regBits 0x0C0 29 17
    let s := s.onCore x fun c => c.setRegBits 0x0C0 29 17 ((w + 1) % 8192)
    .next (if c.activeAt (w * 16) then s.readWord x (w * 16) else s)

/-- The write-back of a corrected word; a word written meanwhile has fresh check bits and nothing waits (R286). -/
def execEccWriteback (x : Site) (word : Fin 8192) (s : State) : Out :=
  let a := word.val * 16
  match (s.core x).eccAt a with
  | .single true => .next (if s.coreClocked x then s.onCore x fun c => c.setEcc a .clean else s)
  | _ => .next s

end Sys2Proof.Machine
end

