-- ==== Sys2Proof/Machine/Spmv.lean ====
section
/-! DEFINITION. Sparse matrix–vector products on the gather lanes (R157 to R169) and the instructions that start and
await them (R189). -/

namespace Sys2Proof.Machine

/-! ## Descriptor and start (R157, R158) -/

namespace Spmv

/-- Bytes of a value and of an x element, and of an element of y. -/
def valueBytes (d : Spmv) : Nat := match d.format with | 1 => 8 | 2 => 4 | _ => 2
def yBytes (d : Spmv) : Nat := if d.format = 1 then 8 else 4
/-- The format of sums and of y (R164). -/
def sumFmt (d : Spmv) : FloatFmt := if d.format = 1 then fp64 else fp32
/-- Rows, or block rows, that row_ptr describes. -/
def ptrRows (d : Spmv) : Nat := if d.blocked then ceilDiv d.rows 16 else d.rows
/-- Bytes of the values of one entry. -/
def entryBytes (d : Spmv) : Nat := if d.blocked then 16 * d.valueBytes else d.valueBytes

/-- A value or an x element in the format of the sums, which holds it exactly. -/
def widen (d : Spmv) (w : Nat) : Nat :=
  match d.format with
  | 3 => (fp32.convert .nearest 0 (fp16.decode w)).bits
  | 4 => (fp32.convert .nearest 0 (bf16.decode w)).bits
  | _ => w

/-- Byte ranges whose places the descriptor alone gives. -/
def fixedRanges (d : Spmv) : List (Nat × Nat) :=
  [(d.rowPtr, 4 * (d.ptrRows + 1)), (d.x, d.cols * d.valueBytes), (d.y, d.rows * d.yBytes)]
/-- The col_idx and values entries from row_ptr[0] to the last row_ptr entry. -/
def entryRanges (d : Spmv) : List (Nat × Nat) :=
  [(d.colIdx + 4 * d.first, 4 * (d.last - d.first)),
    (d.values + d.entryBytes * d.first, d.entryBytes * (d.last - d.first))]

/-- The fields of the descriptor at an offset (R157). -/
def parse (rd : Nat → Nat) (a : Nat) : Spmv where
  format := rd a % 256
  accumulate := bit (rd (a + 1)) 0
  blocked := bit (rd (a + 1)) 1
  rows := rdLe rd (a + 4) 4
  cols := rdLe rd (a + 8) 4
  rowPtr := rdLe rd (a + 12) 4
  colIdx := rdLe rd (a + 16) 4
  values := rdLe rd (a + 20) 4
  x := rdLe rd (a + 24) 4
  y := rdLe rd (a + 28) 4
  first := 0
  last := 0
  start := .ok
  since := 0

/-- Whether the descriptor's own fields are valid (R158). -/
def formatOk (d : Spmv) (rd : Nat → Nat) (a : Nat) : Bool :=
  decide (1 ≤ d.format ∧ d.format ≤ 4) && decide (rd (a + 1) % 256 < 4) && decide (rdLe rd (a + 2) 2 = 0) &&
    decide (1 ≤ d.rows ∧ d.rows ≤ 2 ^ 17) && decide (d.cols ≠ 0)

end Spmv

/-- The operation as it starts in a cycle: its fields, row_ptr[0] and the last entry, and the status of the checks of R158. A word
of row_ptr that cannot be read ends it as R167 states. DESIGN CHOICES where the spec states no order or no outcome: the checks
are made in the order they stand here, so a parked descriptor comes before FORMAT_INVALID, and a parked x or y before ADDR_RANGE
of the entry arrays (log 125); empty entry arrays at an offset beyond SRAM are beyond SRAM (log 126, `rangesInSram`); an
uncorrectable word of the descriptor ends it as one of row_ptr does, with FAIL_ROW 0 (log 128). -/
def spmvStart (s : State) (x : Site) (a : Nat) : Spmv × State :=
  let now := s.cycleOf x
  if !(s.core x).rangeActive a 32 then ({ Spmv.parse (fun _ => 0) 0 with start := .bankParked, since := now }, s) else
  let hd := s.readSram x a 32
  let s := hd.2.2
  let c := s.core x
  let d : Spmv := { Spmv.parse c.rd a with since := now }
  let active (rs : List (Nat × Nat)) : Bool := rs.all fun r => c.rangeActive r.1 r.2
  if hd.2.1.isSome then ({ d with start := .eccUncorrected }, s)
  else if !d.formatOk c.rd a then ({ d with start := .formatInvalid }, s)
  else if !rangesInSram d.fixedRanges || decide (d.x % d.valueBytes ≠ 0) || decide (d.y % d.yBytes ≠ 0) then
    ({ d with start := .addrRange }, s)
  else if !active d.fixedRanges then ({ d with start := .bankParked }, s)
  else
    let ends := [(d.rowPtr, 4), (d.rowPtr + 4 * d.ptrRows, 4)]
    let rs := s.readRanges x ends
    let d := { d with first := rdLe c.rd d.rowPtr 4, last := rdLe c.rd (d.rowPtr + 4 * d.ptrRows) 4 }
    if rs.1.isSome then ({ d with start := .eccUncorrected }, rs.2)
    else if d.last < d.first || !rangesInSram d.entryRanges then ({ d with start := .addrRange }, rs.2)
    else if !active d.entryRanges then ({ d with start := .bankParked }, rs.2)
    else (d, rs.2)

/-- VSPMV: checks its descriptor's place, stalls while another operation runs, and starts the operation. -/
def execVspmv (i : Iss) (a : GReg) (s : State) : Out :=
  .next <| issue i [a.val] s fun th =>
    let at_ := (th.get a.val).toNat
    if at_ % 32 ≠ 0 then s.precise i.site i.thread.val 0x02 .addrRange at_
    else if 0x20000 < at_ + 32 then s.precise i.site i.thread.val 0x03 .addrRange at_
    else if (s.core i.site).spmv.isSome then s
    else
      let r := spmvStart s i.site at_
      r.2.unlessSealed i.site fun s =>
        (s.onCore i.site fun c => { c with spmv := some r.1 }).onThread i.site i.thread.val Thread.advance

/-- What VSWAIT gives: gd takes SPMV.STATUS.last_status. -/
def vswaitDone (s : State) (x : Site) (t d : Nat) : State :=
  s.onThread x t fun th =>
    { (th.put d (BitVec.ofNat 64 (s.core x).spmvLast.code)).advance with wait := .none, state := .running }

/-- VSWAIT completes at once when no operation runs, and otherwise stalls, RUNNING, until it has ended. -/
def execVswait (i : Iss) (d : GReg) (s : State) : Out :=
  .next <| issue i [d.val] s fun th =>
    if (s.core i.site).spmv.isSome then s.setThread i.site i.thread.val { th with wait := .vswait d.val }
    else vswaitDone s i.site i.thread.val d.val

/-! ## Rows (R159 to R164) -/

/-- The split length in force (R163). -/
def splitLen (len : Nat) : Nat := if len = 0 then 0 else min 4096 (max 16 len)

/-- The segments of entries [lo, hi): first entry and count. -/
def segments (l lo hi : Nat) : List (Nat × Nat) :=
  if l = 0 ∨ hi - lo ≤ l then [(lo, hi - lo)]
  else (List.range (ceilDiv (hi - lo) l)).map fun k => (lo + k * l, min l (hi - lo - k * l))

/-- A lane's sum over a segment, entry by entry, each step rounded to nearest even: the spec names no rounding mode for the
gather lanes, and FCSR.rm is a thread's (DESIGN CHOICE, log 124). Entries whose column is not below cols contribute zero. `lane` is the
lane of a block row. -/
def laneSum (d : Spmv) (rd : Nat → Nat) (lane : Nat) (seg : Nat × Nat) : Nat :=
  (List.range seg.2).foldl (fun acc k =>
    let e := seg.1 + k
    let col := rdLe rd (d.colIdx + 4 * e) 4
    if d.cols ≤ col then acc
    else
      let v := rdLe rd (d.values + d.entryBytes * e + d.valueBytes * lane) d.valueBytes
      let x := rdLe rd (d.x + d.valueBytes * col) d.valueBytes
      (d.sumFmt.fma .nearest false (d.widen v) (d.widen x) acc).bits) 0

/-- One level of the segmented-sum tree. -/
def mergeLevel (f : FloatFmt) : List Nat → List Nat
  | a :: b :: rest => (f.addSub .nearest false a b).bits :: mergeLevel f rest
  | l => l
/-- The tree of R163; the fuel is at least its depth. -/
def mergeTree (f : FloatFmt) : Nat → List Nat → Nat
  | _, [] => 0
  | _, [a] => a
  | 0, a :: _ => a
  | n + 1, l => mergeTree f n (mergeLevel f l)

/-- The result of a row or of one lane of a block row, before accumulation. -/
def rowSum (d : Spmv) (rd : Nat → Nat) (l lane lo hi : Nat) : Nat :=
  let parts := (segments l lo hi).map (laneSum d rd lane)
  mergeTree d.sumFmt parts.length parts

/-- What a run of rows has counted so far; `entries` are the non-zeros of each queue entry issued, latest first. -/
structure SpmvCounts where
  nnz : Nat
  entries : List Nat
  splits : Nat
  range : Nat
  malformed : Nat
  fail : Option (Nat × Status)
  /-- No entry past those issued so far was issued (R167). -/
  ended : Bool
  /-- What the rows have had read: their non-zeros by place, rows of y written, and elements of y read under accumulate. -/
  seen : List Nat
  written : Nat
  reread : Nat
  /-- The greatest tree depth among split rows (R163). -/
  depth : Nat

def SpmvCounts.zero : SpmvCounts := ⟨0, [], 0, 0, 0, none, false, [], 0, 0, 0⟩

/-- The rows of y that a row of row_ptr holds: number and lane. -/
def Spmv.lanes (d : Spmv) (r : Nat) : List (Nat × Nat) :=
  if d.blocked then ((List.range 16).map fun i => (16 * r + i, i)).filter fun p => decide (p.1 < d.rows) else [(r, 0)]

/-- Byte ranges the lanes read for entries [lo, hi) of a row: indices, values of entries within cols, gathers, and the
old elements of y under accumulate. -/
def Spmv.reads (d : Spmv) (rd : Nat → Nat) (r lo hi : Nat) : List (Nat × Nat) :=
  let es := (List.range (hi - lo)).map (lo + ·)
  let live := es.filter fun e => decide (rdLe rd (d.colIdx + 4 * e) 4 < d.cols)
  [(d.colIdx + 4 * lo, 4 * (hi - lo))] ++
    live.map (fun e => (d.values + d.entryBytes * e, d.entryBytes)) ++
    live.map (fun e => (d.x + d.valueBytes * rdLe rd (d.colIdx + 4 * e) 4, d.valueBytes)) ++
    (if d.accumulate && decide (lo < hi) then (d.lanes r).map fun p => (d.y + d.yBytes * p.1, d.yBytes) else [])

/-- The new element of y from a lane's result (R164); an empty row gives +0, or leaves y under accumulate. -/
def Spmv.yValue (d : Spmv) (rd : Nat → Nat) (l row lane lo hi : Nat) : Nat :=
  let old := rdLe rd (d.y + d.yBytes * row) d.yBytes
  if hi ≤ lo then if d.accumulate then old else 0
  else
    let v := rowSum d rd l lane lo hi
    if d.accumulate then (d.sumFmt.addSub .nearest false old v).bits else v

/-- Writes the elements of y of one row of row_ptr. -/
def Spmv.writeRow (d : Spmv) (s : State) (x : Site) (r : Nat) (f : Nat × Nat → Nat) : State :=
  (d.lanes r).foldl (fun s p =>
    s.unlessSealed x fun s => s.writeSram x (d.y + d.yBytes * p.1) (leBytes d.yBytes (f p))) s

/-- What a read of these ranges meets: a bank that is not active, or an uncorrectable word. -/
def readFail (s : State) (x : Site) (rs : List (Nat × Nat)) : Option Status × State :=
  if !(rs.all fun r => (s.core x).rangeActive r.1 r.2) then (some .bankParked, s)
  else
    let a := s.readRanges x rs
    (a.1.map fun _ => .eccUncorrected, a.2)

/-- Depth of the tree over a row's segments. -/
def treeDepth (segs : Nat) : Nat := if segs ≤ 1 then 0 else (segs - 1).log2 + 1

/-- One row of row_ptr: its pointers, its entries and its elements of y. A row whose read fails leaves open values; of its
entries at least the one that met the failure has been issued, and how many more, how many of its non-zeros were processed and
how many of those lay beyond cols is open. Where the dispatcher's own read of row_ptr fails, it issues nothing more. PRESUMED
(log 139): a write of y that meets a bank which has begun parking fails as a read does, with FAIL_ROW and mem_error. -/
def Spmv.row (d : Spmv) (x : Site) (l r : Nat) (s : State) (k : SpmvCounts) : State × SpmvCounts :=
  let y := (d.lanes r).map fun p => (d.y + d.yBytes * p.1, d.yBytes)
  let failed (st : Status) (segs : List (Nat × Nat)) (out : Nat) (s : State) : State × SpmvCounts :=
    let w := s.fresh
    let s := if segs = [] then s else w.2
    let run := segs.take (1 + Config.freeValue w.1 0 % segs.length)
    let done := Config.freeValue w.1 1 % (((run.map Prod.snd).foldl (· + ·) 0) + 1)
    let k := { k with
      entries := (run.map Prod.snd).reverse ++ k.entries
      nnz := k.nnz + done
      splits := k.splits + (decide (1 < segs.length)).toNat
      range := k.range + Config.freeValue w.1 2 % (min out done + 1)
      ended := k.ended || segs.isEmpty }
    if k.fail.isSome then (s, k)
    else
      let v := s.fresh
      (if y.all fun q => (s.core x).rangeActive q.1 q.2 then
          d.writeRow v.2 x r fun p => Config.freeValue v.1 p.2
        else v.2, { k with fail := some (r, st) })
  let p := readFail s x [(d.rowPtr + 4 * r, 8)]
  match p.1 with
  | some st => failed st [] 0 p.2
  | none =>
    let rd := (p.2.core x).rd
    let a := rdLe rd (d.rowPtr + 4 * r) 4
    let b := rdLe rd (d.rowPtr + 4 * r + 4) 4
    let bad := decide (b < a) || decide (a < d.first) || decide (d.last < b)
    let lo := if bad then 0 else a
    let hi := if bad then 0 else b
    let q := readFail p.2 x (d.reads rd r lo hi)
    let segs := segments l lo hi
    let out := ((List.range (hi - lo)).filter fun e => decide (d.cols ≤ rdLe rd (d.colIdx + 4 * (lo + e)) 4)).length
    match q.1 with
    | some st => failed st segs out q.2
    | none =>
      let keeps := d.accumulate && decide (hi ≤ lo)
      if !keeps && !(y.all fun q' => (q.2.core x).rangeActive q'.1 q'.2) then failed .bankParked segs out q.2
      else if !q.2.coreOn x then (q.2, k)
      else
        let s := if keeps then q.2
          else d.writeRow q.2 x r fun p => d.yValue rd l p.1 p.2 lo hi
        (s, { k with
          nnz := k.nnz + (hi - lo)
          entries := (segs.map Prod.snd).reverse ++ k.entries
          splits := k.splits + (if 1 < segs.length then 1 else 0)
          range := k.range + out
          malformed := k.malformed + bad.toNat
          seen := k.seen ++ (List.range (hi - lo)).map (lo + ·)
          written := k.written + (if keeps then 0 else y.length)
          reread := k.reread + (if d.accumulate && decide (lo < hi) then y.length else 0)
          depth := max k.depth (treeDepth segs.length) })

/-- Rows in increasing order. Past a failure, the rows whose entries had been issued by then, a run right after the failed one,
are computed too; how many they are R167 leaves open. -/
def Spmv.rowsFrom (d : Spmv) (x : Site) (l ctr : Nat) : Nat → Nat → State → SpmvCounts → State × SpmvCounts
  | 0, _, s, k => (s, k)
  | n + 1, r, s, k =>
    if !s.coreOn x || k.ended || (k.fail.isSome && !Config.spmvIssued ctr r) then
      d.rowsFrom x l ctr n (r + 1) s { k with ended := true }
    else
      let a := d.row x l r s k
      d.rowsFrom x l ctr n (r + 1) a.1 a.2

/-! ## Lane queues (R162) -/

/-- A lane goes on by one cycle, or is held up in it. -/
def laneStep (goes : Bool) : List Nat → List Nat
  | n :: rest => if !goes then n :: rest else if n ≤ 1 then rest else (n - 1) :: rest
  | [] => []
/-- The lane a queue entry goes to: of those with room, the one with the fewest queued non-zeros, the lowest on a tie. -/
def laneFor (qs : List (List Nat)) : Option Nat :=
  let cands := (List.range qs.length).filter fun i => (qs.getD i []).length < 16
  let load (i : Nat) : Nat := (qs.getD i []).foldl (· + ·) 0
  match (cands.map load).min? with
  | some m => cands.find? fun i => load i == m
  | none => none
/-- The greatest number of entries one lane queue holds as the entries are issued, one a cycle. A lane works at up to one
non-zero a cycle, so in which cycles it goes on is free; where every queue is full, one lane, a free one, ends an entry
first. -/
def queuePeak (ctr : Nat) : Nat → List Nat → List (List Nat) → Nat
  | _, [], _ => 0
  | j, e :: es, qs =>
    let qs := ((List.range qs.length).zip qs).map fun q => laneStep (Config.freeValue ctr (32 * j + q.1 + 64) % 2 == 1) q.2
    let i := Config.freeValue ctr (32 * j + 80) % qs.length
    let qs := if (laneFor qs).isSome then qs else qs.set i (qs.getD i []).tail
    match laneFor qs with
    | some l =>
      let q := qs.getD l [] ++ [e]
      max q.length (queuePeak ctr (j + 1) es (qs.set l q))
    | none => 0

/-- W of R165: the words that an operation has read and written. -/
def Spmv.wordCount (d : Spmv) (rd : Nat → Nat) (k : SpmvCounts) : Nat :=
  let live := k.seen.filter fun e => decide (rdLe rd (d.colIdx + 4 * e) 4 < d.cols)
  let words (rs : List (Nat × Nat)) : Nat := (rs.flatMap fun r => wordsOf r.1 r.2).eraseDups.length
  words [(d.rowPtr, 4 * (d.ptrRows + 1))] + words (k.seen.map fun e => (d.colIdx + 4 * e, 4)) +
    words (live.map fun e => (d.values + d.entryBytes * e, d.entryBytes)) + live.length + k.written + k.reread
/-- The cycles a whole operation takes at least (R165). -/
def Spmv.least (d : Spmv) (rd : Nat → Nat) (k : SpmvCounts) : Nat :=
  max (max k.entries.length (ceilDiv (d.wordCount rd k) 4)) (k.entries.foldl max 0) + 16 + 4 * k.depth

/-- The counters and status bits of an ended operation (R159, R160, R165, R168). In blocked mode every lane takes part in
every entry (R161), so one queue stands for all. In which of its `cycles` the unit's words were delayed follows from timing
that no rule fixes: how many they are is free. -/
def Core.spmvCount (c : Core) (k : SpmvCounts) (blocked : Bool) (ctr cycles : Nat) : Core :=
  let c := ((c.count 0x1D0 k.nnz).count 0x1D4 k.entries.length).count 0x1D8 k.splits
  let c := (c.count 0x1E0 k.range).count 0x1E4 k.malformed
  let c := c.count 0x1DC (Config.freeValue ctr 1 % (cycles + 1))
  let peak := queuePeak ctr 0 k.entries.reverse (List.replicate (if blocked then 1 else 16) [])
  let c := c.setReg 0x1CC (BitVec.ofNat 32 (max (c.reg 0x1CC).toNat peak))
  let c := if k.range = 0 then c else (c.setFlag 0x1C4 1).setFlag 0x154 1
  let c := if k.malformed = 0 then c else c.setFlag 0x1C4 2
  match k.fail with
  | some f => (c.setFlag 0x1C4 3).setReg 0x1C8 (BitVec.ofNat 32 f.1)
  | none => c

/-- The running operation, if any, ends with a status: VSWAITs complete. -/
def spmvFinish (s : State) (x : Site) (st : Status) : State :=
  let s := s.onCore x fun c => { c with spmv := none, spmvLast := st }
  (List.range 4).foldl (fun s t =>
    match (s.thread x t).wait with
    | .vswait d => vswaitDone s x t d
    | _ => s) s

/-- SPMV_END: the operation's rows are computed and written, and it ends, and where nothing failed no sooner than R165 lets it: engine
time reaches that cycle. While the field is frozen it stands (R166). One that
meets both a malformed row and a failed read ends with the failed read's status, which the spec does not say (DESIGN CHOICE,
log 127). -/
def execSpmvEnd (x : Site) (s : State) : Out :=
  match (s.core x).spmv with
  | none => .next s
  | some d =>
    if !s.coreRuns x then .next s
    else if d.start = .eccUncorrected then
      .next (spmvFinish (s.onCore x fun c => (c.setFlag 0x1C4 3).setReg 0x1C8 0) x .eccUncorrected)
    else if d.start ≠ .ok then .next (spmvFinish s x d.start)
    else
      let v := s.fresh
      let r := d.rowsFrom x (splitLen ((s.core x).regBits 0x1C0 12 0)) v.1 d.ptrRows 0 v.2 SpmvCounts.zero
      .next <| r.1.unlessSealed x fun s =>
        let k := r.2
        let s := if k.fail.isSome then s else s.reach x.field (20 * (d.since + d.least (s.core x).rd k))
        let cycles := s.cycleOf x - d.since
        let k := { k with fail := k.fail.map fun f => (if d.blocked then 16 * f.1 else f.1, f.2) }
        let s := (s.onCore x fun c => c.spmvCount k d.blocked v.1 cycles).assayTotal x 0x1B0 k.range
        let s := if k.range = 0 then s else s.raiseCore x 0x0601 .corrected 0
        let s := if k.malformed = 0 then s else s.raiseCore x 0x0603 .contained 0
        spmvFinish s x (match k.fail with
          | some f => f.2
          | none => if k.malformed = 0 then .ok else .formatInvalid)

end Sys2Proof.Machine
end

