-- ==== Sys2Proof/Machine/Shifts.lean ====
section
/-! DEFINITION. Shift loads (R208), rotation and switches (R227 to R232), hold (R223 to R225), token queues and elastic
steering (R220 to R222), and drains (R233, R234). -/

namespace Sys2Proof.Machine

/-! ## Shift loads (R208) -/

/-- Whether a switch is in progress in a core's field, or its rotation step has come. -/
def Sched.switches : Sched → Bool
  | .switching _ | .due _ => true
  | _ => false

/-- A write of CORE.SHIFT_LOAD (R208, R236). -/
def State.shiftLoadWrite (s : State) (x : Site) (v : Nat) : State :=
  let c := s.core x
  let slot := bits v 30 28
  let store (c : Core) : Core := (c.setRegBits 0x090 30 28 slot).setRegBits 0x090 16 0 (bits v 16 0)
  if !bit v 31 then s.setCore x (store c)
  else if (c.active.any fun a => a.1 == slot) || Sched.switches (s.field x.field).sched || c.shiftLoad.isSome then
    s.setCore x ((c.setRegBits 0x090 24 17 Status.busy.code).refuse)
  else s.setCore x { store c with shiftLoad := some (slot, bits v 16 0) }

def execShiftLoad (w : Requester) (x : Site) (v : Word) (s : State) : Out :=
  .next (s.corePut w x fun s => s.shiftLoadWrite x v.toNat)

/-- A load ends: its status, and what becomes of the slot. -/
def State.shiftLoadEnds (s : State) (x : Site) (slot off : Nat) : State :=
  let fin (st : Status) (s : State) : State :=
    s.onCore x fun c => { c.setRegBits 0x090 24 17 st.code with shiftLoad := none }
  let clear (s : State) : State := s.onCore x fun c => c.setShift slot ShiftSlot.empty
  if off % 64 ≠ 0 ∨ 0x20000 < off + 2048 then fin .addrRange s
  else if !(s.core x).rangeActive off 2048 then fin .bankParked (clear s)
  else
    let r := s.readSram x off 2048
    r.2.2.unlessSealed x fun s =>
      if r.2.1.isSome then fin .eccUncorrected (clear s)
      else
        let d : Shift := putBytes [] 0 r.1
        if d.valid (s.closedPort x) then fin .ok (s.onCore x fun c => c.setShift slot ⟨d, true⟩)
        else (fin .formatInvalid (clear s)).raiseCore x 0x0803 .contained slot

def execShiftLoadEnd (x : Site) (s : State) : Out :=
  match (s.core x).shiftLoad with
  | some (slot, off) => .next (if s.coreClocked x then s.shiftLoadEnds x slot off else s)
  | none => .next s

/-! ## The rotation table (R227, R235) -/

/-- A write of ROT_CTRL. While run is 1 it acts only through advance and run. -/
def State.rotWrite (s : State) (f v : Nat) : State :=
  let r := rotCtrl f
  if s.sregBit r 0 then
    let differs := bit v 29 != s.sregBit r 29 || bits v 10 8 != s.sregBits r 10 8
    let s := if differs then s.setSflag r 2 else s
    let s := if bit v 30 then s.setSflag r 30 else s
    if bit v 0 then s else s.setSregBits r 0 0 0
  else
    let s := if bit v 2 then s.setSregBits r 2 2 0 else s
    let s := (s.setSregBits r 29 29 (bits v 29 29)).setSregBits r 10 8 (bits v 10 8)
    let s := if bit v 30 then s.setSflag r 30 else s
    if bit v 0 then
      let s := (s.setSflag r 0).setSregBits r 31 31 0
      if (s.field f).drain.isSome then s else s.rotateTo f (some 0)
    else s

def execRotRun (w : Requester) (f : FieldNo) (v : Word) (s : State) : Out :=
  .next (s.fieldPut w f.val (rotCtrl f.val) fun s => s.rotWrite f.val v.toNat)
def execRotAdvance (w : Requester) (f : FieldNo) (v : Word) (s : State) : Out :=
  .next (s.fieldPut w f.val (rotCtrl f.val) fun s => s.rotWrite f.val v.toNat)
def execRotStop (w : Requester) (f : FieldNo) (v : Word) (s : State) : Out :=
  .next (s.fieldPut w f.val (rotCtrl f.val) fun s => s.rotWrite f.val v.toNat)

/-- Offsets of ROT_STEPk_LO and ROT_STEPk_HI. -/
def rotStepLo (f k : Nat) : Nat := pageFieldctl f + 0x060 + 8 * k
def rotStepHi (f k : Nat) : Nat := pageFieldctl f + 0x064 + 8 * k

/-! ## The switch (R228, R229, R231) -/

/-- The field's wired request follows its cores (R223): a change is noted with its time, and old ones are forgotten. -/
def State.noteRequest (s : State) (f : Nat) : State :=
  let now := (s.coreSites f).any fun y => s.coreOn y && (s.core y).holdReq.isSome
  let fl := s.field f
  let was := (fl.holdLog.getLast?.map (·.2)).getD false
  if now = was then s
  else
    let kept := fl.holdLog.filter fun e => decide (fl.heldFrom ≤ e.1 + 160) || decide (fl.clk ≤ e.1 + 160)
    let base := ((fl.holdLog.filter fun e => !kept.contains e).getLast?).toList
    s.setField f { fl with holdLog := base ++ kept ++ [(fl.clk, now)] }

/-- The empty shift on a core (R227): no home bank, owner and expect_width 0. -/
def Core.emptyShift (c : Core) : Core :=
  let c := ((c.setRegBits 0x100 8 8 0).setRegBits 0x100 6 0 0).setReg 0x094 0
  { c with
    active := none, entering := [], cursorPos := [], inputs := [], reads := [], shiftRaised := [], schedRun := [], holdReq := none }

/-- Cursor positions that the switch keeps (R211). -/
def keptCursors (c : Core) (d : Shift) : SMap Nat :=
  match c.active with
  | none => []
  | some (_, o) =>
    c.cursorPos.filter fun kv =>
      (d.cursor kv.1).keep && (List.range 16).all fun i => d.byte (64 + 16 * kv.1 + i) == Shift.byte o (64 + 16 * kv.1 + i)

/-- Whether a bank's tag matches the stationary tile (R129, R141). -/
def ABank.resident (k : ABank) (l : LoadArgs) : Bool :=
  k.state == .ready && k.src == l.src && k.mode.code == l.mode && k.format == l.format &&
    k.rowsM1 + 1 == l.rows

/-- A declared chute binding is applied (R231). -/
def bindDeclared (x : Site) (d : Shift) (s : State) (e : Nat) : State :=
  let b := d.binding e
  let ch := (s.core x).chute e
  if ch.cfgRw = b.1 &&& chuteRwMask ∧ ch.peer.toNat = b.2.1 ∧ ch.frame.toNat = b.2.2 then s
  else
    let s := if ch.role = .unbound then s else s.chuteUnbind x e
    let s := s.onCore x fun c => c.setChute e { c.chute e with
      peer := BitVec.ofNat 32 b.2.1, frame := BitVec.ofNat 32 b.2.2 }
    if bits b.1 31 30 = 0 then
      s.onCore x fun c => c.setChute e { c.chute e with
        record := bit b.1 29, async := bit b.1 28, size := bits b.1 27 24, peerEp := bits b.1 15 11, base := bits b.1 10 0 }
    else s.chuteBind x e b.1

/-- A declared window is applied (R231, R276): one that differs closes, with a new generation, and opens as declared once
closed. -/
def windowDeclared (d : Shift) (c : Core) (i : Nat) : Core :=
  let b := d.window i
  let w := c.win i
  let same := w.ctrl &&& 0x98000003 == b.1 &&& 0x98000003 && w.base.toNat == b.2.1 && w.size.toNat == b.2.2.1 &&
    w.peer.toNat == b.2.2.2
  if same then c
  else
    let shut := w.close
    let w := { shut with
      peerMode := bits b.1 28 27, write := bit b.1 1, read := bit b.1 0, base := BitVec.ofNat 32 b.2.1
      size := BitVec.ofNat 32 b.2.2.1, peer := BitVec.ofNat 32 b.2.2.2, openPending := false }
    c.setWin i (if bit b.1 31 then w.open else w)

/-- The home bank is chosen (R229): whether it must be loaded. -/
def chooseHome (s : State) (x : Site) (d : Shift) : Bool × State :=
  if !d.stationary then (false, s.onCore x fun c => c.setReg 0x094 0)
  else
    let c := s.core x
    match (List.range 2).find? fun b => (c.abank b).resident (d.load b) with
    | some b => (false, s.onCore x fun c => c.setReg 0x094 (BitVec.ofNat 32 (2 + b)))
    | none =>
      (true, s.onCore x fun c => (c.setReg 0x094 (BitVec.ofNat 32 (2 + d.preferred))).setAbank d.preferred
        { ABank.reset with state := .loading })

/-- L of a core (R228): the cycles in which its stationary load issues its words. -/
def loadCycles (s : State) (x : Site) (d : Shift) : Nat :=
  let l := d.load 0
  match l.formats with
  | none => 0
  | some (md, b) =>
    ((l.plan (s.core x) [] 0 (rowBytes md b (s.width x))).getLast?.map fun q => q.1 + 1).getD 0

/-- What the checks of cycle 0 find on a core (R228): whether its array is not idle, and the threads that are STOPPED. -/
def State.atStep (s : State) (x : Site) : Bool × List Nat :=
  let c := s.core x
  (c.array.busy, (List.range 4).filter fun t => (c.thread t).state == .stopped)

/-- One core at a rotation step: what the checks found raises its errors, the descriptor is copied, and the declared bindings and
windows and the home bank follow. The number is L for this core. -/
def switchCore (x : Site) (slot : Option Nat) (found : Bool × List Nat) (s : State) : Nat × State :=
  let s := s.holdReqFlush x
  let s := if found.1 then s.raiseCore x 0x0501 .jobFatal 0 else s
  match (slot.map fun k => (k, (s.core x).shiftSlot k)).filter fun k => k.2.valid with
  | none => (0, s.onCore x Core.emptyShift)
  | some (k, sl) =>
    let d : Shift := sl.bytes
    let ready := d.enters.filter found.2.contains
    let s := if ready.length = d.enters.length then s else s.raiseCore x 0x0802 .jobFatal 0
    let s := s.onCore x fun c =>
      let kept := keptCursors c d
      let c := (c.emptyShift.setRegBits 0x100 8 8 d.owner).setRegBits 0x100 6 0 d.expectWidth
      { c with active := some (k, d), entering := ready, cursorPos := kept }
    let s := ((List.range 32).filter d.chuteMask).foldl (bindDeclared x d) s
    let s := s.onCore x fun c => ((List.range 16).filter d.windowMask).foldl (windowDeclared d) c
    let h := chooseHome s x d
    (if h.1 then loadCycles h.2 x d else 0, h.2.chuteWake x)

def execShiftSwitch (f : FieldNo) (s : State) : Out :=
  match (s.field f.val).sched with
  | .due tgt =>
    if !s.schedRuns f.val then .next s
    else
      let s := s.reach f.val (s.field f.val).beatAt
      let step := tgt.getD (s.field f.val).rotStep
      let slot := tgt.map fun k => bits (s.sreg (rotStepHi f.val k)).toNat 2 0
      let found := (s.coreSites f.val).map fun x => (x, s.atStep x)
      let r := found.foldl (fun (acc : Nat × State) q =>
        if acc.2.coreOn q.1 then let k := switchCore q.1 slot q.2 acc.2; (max acc.1 k.1, k.2) else acc) (0, s)
      let s := r.2.noteRequest f.val
      .next ((s.onField f.val fun fl => { fl with
        switchFrom := fl.beatAt, sched := .switching tgt, rotStep := step, period := bits (s.sreg (rotStepHi f.val step)).toNat 13 8 + 1
        frames := (s.sreg (rotStepLo f.val step)).toNat, beat := 0, frame := 0
        beatAt := fl.beatAt + 20 * (16 + r.1) }).stirs f.val)
  | _ => .next s

/-- The stationary load of a switch ends (R229): one that fails leaves the bank empty, and the shift slips. -/
def homeLoad (s : State) (x : Site) (d : Shift) : State :=
  let bank := (s.core x).regBits 0x094 0 0
  let l := d.load bank
  let st := l.check s x
  let fail (st : Status) (s : State) : State := (s.bankLoaded x bank st).raiseCore x 0x0802 .jobFatal 0
  match l.formats with
  | some (md, b) =>
    if st ≠ .ok || s.width x == 0 then fail (if st = .ok then .denied else st) s
    else
      let r := s.fillBank x l md b
      r.2.unlessSealed x fun s => if r.1 = .ok then s.bankLoaded x bank .ok else fail r.1 s
  | none => fail .formatInvalid s

/-- An entering thread starts at its entry point. -/
def enterThread (d : Shift) (c : Core) (t : Nat) : Core :=
  let th := c.thread t
  ((c.leaveHandler t).setThread t { th with
    pc := d.entry t, state := .running, handler := false, wait := .none }).setRunBit t true

/-- A stationary load of the switch that has not ended yet ends. -/
def switchLoad (s : State) (x : Site) : State :=
  match (s.core x).active with
  | some (_, d) =>
    let c := s.core x
    if s.coreOn x && c.regBit 0x094 1 && (c.abank (c.regBits 0x094 0 0)).state == .loading && c.array.load.isNone then
      homeLoad s x d
    else s
  | none => s

/-- Beat 0 on one core: entering threads start. In a drain, which clears every run bit (R233 step 3), they stop at once where
they started. -/
def beatZero (draining : Bool) (s : State) (x : Site) : State :=
  if !s.coreOn x then s
  else
    match (s.core x).active with
    | none => s
    | some (_, d) =>
      let ts := (s.core x).entering
      let s := s.onCore x fun c => { ts.foldl (enterThread d) c with entering := [] }
      if draining then ts.foldl (fun s t => s.stopThread x t) s else s

def execSwitchBeat0 (f : FieldNo) (s : State) : Out :=
  match (s.field f.val).sched with
  | .switching tgt =>
    if !s.schedRuns f.val then .next s
    else
      let s := (s.reach f.val (s.field f.val).beatAt).switchFlush f.val
      let s := (s.coreSites f.val).foldl switchLoad s
      let s := (s.coreSites f.val).foldl (beatZero (s.field f.val).drain.isSome) s
      .next (s.onField f.val fun fl => { fl with
        sched := if tgt.isSome then .beats else .idle, beat := 0, frame := 0 })
  | _ => .next s

/-! ## Hold (R223, R224) -/

/-- The next n beats the field will run in its present step, from one on. -/
def State.beatsAhead (s : State) (f : Nat) : Nat → Nat → Nat → List Nat
  | 0, _, _ => []
  | n + 1, beat, frame =>
    beat :: (if beat + 1 < (s.field f).period then s.beatsAhead f n (beat + 1) frame
      else if s.lastFrame f frame then [] else s.beatsAhead f n 0 (frame + 1))

/-- The beats among the next 8 schedule steps; `left` steps of a switch in progress come first. -/
def State.window8 (s : State) (f left : Nat) : List Nat :=
  let fl := s.field f
  match fl.sched with
  | .beats => s.beatsAhead f 8 fl.beat fl.frame
  | .switching (some _) => s.beatsAhead f (8 - left) 0 0
  | _ => []

/-- Whether cursor k falls short of its demand: 4 entries a use, against the level seen (R223, R244). -/
def cursorShort (x : Site) (d : Shift) (es : List Entry) (kind : Nat) (acc : Bool × State) (k : Nat) : Bool × State :=
  let cur := d.cursor k
  let uses := (es.filter fun e =>
    if kind = 2 then d.usesRead e && e.rdCursor == k else e.outs.getD 4 0 != 0 && e.wrCursor == k).length
  if acc.1 || cur.kind ≠ kind || uses = 0 then acc
  else
    let l := acc.2.level x cur.endpoint
    let role := if kind = 2 then Role.consumer else .producer
    (decide (((acc.2.core x).chute cur.endpoint).role ≠ role) || decide (l.1 < 4 * uses) ||
      (kind == 3 && !((acc.2.core x).chute cur.endpoint).ready), l.2)

/-- Whether a steering unit waits for a token: its item is steered once its queue holds one (R220). -/
def Core.unitWaits (c : Core) (d : Shift) (u : Nat) : Bool :=
  match (c.steerUnit u).waiting with
  | some (_, i, _) => !((d.slot i).token u == 14 && !(c.steerUnit u).tokens.isEmpty)
  | none => false
/-- The same against the core's active shift. -/
def Core.waits (c : Core) (u : Nat) : Bool :=
  match c.active with
  | some (_, d) => c.unitWaits d u
  | none => false

/-- The cause of a core's hold request, if it raises one (R223, R235). -/
def holdCause (s : State) (x : Site) (left : Nat) : Option Nat × State :=
  match (s.core x).active with
  | none => (none, s)
  | some (_, d) =>
    let c := s.core x
    let es := (s.window8 x.field left).map (Shift.slot d)
    let rd := (List.range 8).foldl (cursorShort x d es 2) (false, s)
    let wr := (List.range 8).foldl (cursorShort x d es 3) (false, rd.2)
    let tokens := (List.range 2).any fun u =>
      decide ((c.steerUnit u).tokens.length < (es.filter fun e => Shift.usesTokens d e u).length)
    let waits := (List.range 2).any fun u => c.unitWaits d u
    (if rd.1 then some 1 else if wr.1 then some 2 else if tokens then some 3 else if waits then some 4 else none, wr.2)

/-- HOLD_REQUEST: a core compares its demand with what it sees, in one cycle. -/
def execHoldRequest (x : Site) (switchLeft : Nat) (s : State) : Out :=
  if !s.coreOn x || (s.field x.field).clockGated then .next s
  else
    let r := holdCause s x switchLeft
    let s := r.2
    let first := r.1.isSome && !((s.coreSites x.field).any fun y => s.coreOn y && (s.core y).holdReq.isSome)
    let s := ((s.holdReqFlush x).onCore x fun c =>
      { c with holdReq := r.1, holdFrom := (s.field x.field).clk }).noteRequest x.field
    .next (if first then
      s.setSreg (pageFieldctl x.field + 0x054)
        (BitVec.ofNat 32 (2 ^ 31 + x.x.val * 2 ^ 19 + x.y.val * 2 ^ 10 + r.1.getD 0))
    else s)

/-- ns until the field's clock reaches a value. -/
def Field.until (fl : Field) (clk : Nat) : Nat := ceilDiv (clk - fl.clk) fl.rate
/-- Clock values, from the present one on, at which the field may freeze or go on: 8 cycles after its request changes, and
where the gate shuts and opens. -/
def Field.turns (fl : Field) : List Nat :=
  let w := fl.clk / 20 / 64 * 64
  fl.clk :: ((fl.holdLog.map fun (e : Nat × Bool) => e.1 + 160) ++ [20 * (w + fl.gateOpen), 20 * (w + 64), 20 * (w + 64 + fl.gateOpen)]).filter
    fun (t : Nat) => decide (fl.clk ≤ t)
def Field.firstTurn (fl : Field) (ok : Nat → Bool) : Option Nat := (fl.turns.filter ok).min?

/-- The field freezes; a freeze by the slew gate alone is not counted (R440). -/
def State.freeze (s : State) (f : Nat) : State :=
  let fl := s.field f
  let held := s.stopHolds || fl.heldAt fl.clk
  (s.setField f { fl with
    frozen := true, freezeAt := fl.clk, heldFrom := fl.clk, longHold := false, gateFrozen := !held
    holdIn := fl.holdIn || held, slewIn := fl.slewIn || !held }).scount (pageFieldctl f + 0x04C) held.toNat

/-- FIELD_FREEZE: 8 cycles after a hold request, or where the gate shuts. -/
def execFieldFreeze (f : FieldNo) (s : State) : Out :=
  let s := s.noteRequest f.val
  let fl := s.field f.val
  if !fl.clocked || fl.frozen || fl.drain.isSome then .next s
  else
    match fl.firstTurn fun t => s.shutAt f.val t with
    | some t => .next ((s.elapse (fl.until t)).freeze f.val)
    | none => .next s

/-- What held threads of a core do at release (R180): waits that ended during the hold end now. -/
def releaseCore (s : State) (x : Site) : State :=
  let s := (List.range 4).foldl (fun s t =>
    let th := s.thread x t
    match th.wait with
    | .released d st =>
      s.setThread x t { (th.put d (BitVec.ofNat 64 st.code)).advance with state := .running, wait := .none }
    | _ => s.remoteRelease x t) s
  (s.chuteWake x).remoteWake x

/-- FIELD_RESUME: 8 cycles after the last hold request drops, and where the gate opens. -/
def execFieldResume (f : FieldNo) (s : State) : Out :=
  let s := s.noteRequest f.val
  let fl := s.field f.val
  if !fl.clocked || !fl.frozen then .next s
  else
    match fl.firstTurn fun t => !s.shutAt f.val t with
    | some t =>
      let s := (s.elapse (fl.until t)).unfreeze f.val
      .next ((s.coreSites f.val).foldl releaseCore s)
    | none => .next s

/-! ## Token queues and elastic units (R220 to R222) -/

def Core.pushToken (c : Core) (u v : Nat) : Core :=
  let st := c.steerUnit u
  if 4 ≤ st.tokens.length then c.refuse else c.setSteer u { st with tokens := st.tokens ++ [v % 8] }

def execSteerTokenPush (w : Requester) (x : Site) (u : Fin 2) (v : Word) (s : State) : Out :=
  .next (s.corePut w x fun s => s.onCore x fun c => c.pushToken u.val v.toNat)

/-- Takes one entry of an endpoint, where it sees one. -/
def takeItem (s : State) (x : Site) (e : Nat) : Option DWord × State :=
  if ((s.core x).chute e).role ≠ .consumer then (none, s)
  else
    let l := s.level x e
    if l.1 = 0 then (none, l.2)
    else
      let r := l.2.pop x e 1
      (some (BitVec.ofNat 64 (leNat r.1)), r.2.2)

/-- Moves up to n tokens into a unit's token pairing queue, from its token queue or its endpoint. -/
def fillTokens (x : Site) (u : Nat) (cfg : Unit2) : Nat → State → State
  | 0, s => s
  | n + 1, s =>
    let st := (s.core x).steerUnit u
    if !s.coreOn x || decide (4 ≤ st.tokenQ.length) then s
    else if cfg.ownTokens then
      match st.tokens with
      | t :: rest => fillTokens x u cfg n (s.onCore x fun c => c.setSteer u { st with tokens := rest, tokenQ := st.tokenQ ++ [t] })
      | [] => s
    else
      let r := takeItem s x cfg.tokenEp
      match r.1 with
      | some v => fillTokens x u cfg n (r.2.onCore x fun c =>
          let st := c.steerUnit u
          c.setSteer u { st with tokenQ := st.tokenQ ++ [v.toNat % 8] })
      | none => r.2

/-- Moves up to n items into a unit's data pairing queue. -/
def fillData (x : Site) (u ep : Nat) : Nat → State → State
  | 0, s => s
  | n + 1, s =>
    if !s.coreOn x || decide (4 ≤ ((s.core x).steerUnit u).dataQ.length) then s
    else
      let r := takeItem s x ep
      match r.1 with
      | some v => fillData x u ep n (r.2.onCore x fun c =>
          let st := c.steerUnit u
          c.setSteer u { st with dataQ := st.dataQ ++ [v] })
      | none => r.2

def pushItem (s : State) (x : Site) (e : Nat) (v : DWord) : State :=
  s.chutePush x e [v]
/-- Whether an endpoint can take one more entry. -/
def hasRoom (c : Core) (e : Nat) : Bool := decide ((c.chute e).role = .producer) && c.mayPush e 1

/-- The heads of both pairing queues leave. -/
def Core.popPair (c : Core) (u : Nat) : Core :=
  let st := c.steerUnit u
  c.setSteer u { st with dataQ := st.dataQ.tail, tokenQ := st.tokenQ.tail }

def execElasticSteer (x : Site) (u : Fin 2) (s : State) : Out :=
  match (s.core x).active with
  | none => .next s
  | some (_, d) =>
    let cfg := Shift.unit d u.val
    if !s.coreClocked x || cfg.mode ≠ 3 then .next s
    else
      let s := fillTokens x u.val cfg 4 (fillData x u.val cfg.dataEp 4 s)
      .next <| s.unlessSealed x fun s =>
        let st := (s.core x).steerUnit u.val
        let pop (s : State) : State := s.onCore x fun c => c.popPair u.val
        match st.dataQ, st.tokenQ with
        | v :: _, t :: _ =>
          if t = 7 then pop s
          else
            match (cfg.eps[t]?).join with
            | none => badToken (pop s) x u.val
            | some e => if hasRoom (s.core x) e then pushItem (pop s) x e v else s
        | _, _ => s

def execElasticMerge (x : Site) (u : Fin 2) (s : State) : Out :=
  match (s.core x).active with
  | none => .next s
  | some (_, d) =>
    let cfg := Shift.unit d u.val
    if !s.coreClocked x || cfg.mode ≠ 4 then .next s
    else
      let s := fillTokens x u.val cfg 4 s
      .next <| s.unlessSealed x fun s =>
        match ((s.core x).steerUnit u.val).tokenQ with
        | t :: _ =>
          let pop (s : State) : State := s.onCore x fun c => c.popPair u.val
          if t = 7 then pop s
          else
            match (cfg.eps[t]?).join with
            | none => badToken (pop s) x u.val
            | some e =>
              if hasRoom (s.core x) cfg.outEp then
                let r := takeItem s x e
                match r.1 with
                | some v => r.2.unlessSealed x fun s => pushItem (pop s) x cfg.outEp v
                | none => r.2
              else s
        | [] => s

/-- STEER_TIMEOUT: the field has stood frozen for 4,096 cycles while a unit waits. -/
def execSteerTimeout (x : Site) (u : Fin 2) (s : State) : Out :=
  .next (if s.coreOn x && (s.field x.field).frozen && (s.core x).waits u.val then
    let fl := s.field x.field
    (s.elapse (fl.until (fl.freezeAt + 20 * 4096))).raiseCore x 0x0801 .jobFatal u.val else s)

/-! ## Drains (R233, R234) -/

def drainStatus (f : Nat) : Nat := pageFieldctl f + 0x05C

/-- A write of DRAIN_STATUS. -/
def State.drainWrite (s : State) (f v : Nat) : State :=
  let r := drainStatus f
  let s := if bit v 31 then s.setSregBits r 31 31 0 else s
  let s := if bit v 30 then s.setSregBits r 30 30 0 else s
  if bit v 0 then s.startDrain f else s

def execDrainStart (w : Requester) (f : FieldNo) (v : Word) (s : State) : Out :=
  .next (s.fieldPut w f.val (drainStatus f.val) fun s => s.drainWrite f.val v.toNat)

/-- Step 4: the schedule stops. -/
def execDrainScheduleStop (f : FieldNo) (s : State) : Out :=
  let fl := s.field f.val
  match fl.drain with
  | some d =>
    if !d.schedStopped && (fl.sched == .idle || (fl.sched == .beats && d.beatsLeft == 0)) then
      let s := (s.switchFlush f.val).onField f.val fun fl =>
        { fl with sched := .idle, drain := some { d with schedStopped := true } }
      .next (s.mapCores f.val fun _ c => (c.onArray fun a => { a with queue := [] }).freeTiles)
    else .next s
  | none => .next s

/-- Scheduled flits with data that a core's router holds. -/
def Core.flitsHeld (c : Core) : Nat :=
  (c.inputs.filter fun i => i.2.any fun f => !f.void).length + (c.delay.filter fun f => !f.void).length +
    (c.reads.filter fun r => !r.2.void).length + (c.steer.filter fun u => u.2.waiting.isSome).length

/-- A drained core (R233 step 5). -/
def Core.drained (c : Core) : Bool :=
  c.flitsHeld == 0 && !c.array.busy && c.spmv.isNone && ((List.range 4).all fun t => (c.thread t).state == .stopped) &&
    c.tagsInUse == 0

/-- The drain of a field ends (R234): `und` cores were not drained. -/
def State.drainEnds (s : State) (f : Nat) (expired : Bool) (und : Nat) : State :=
  let r := drainStatus f
  let s := (s.setSflag r 31).setSregBits r 15 1 (min und 0x7FFF)
  let s := if expired then s.setSflag r 30 else s
  let s := ((s.coreSites f).foldl State.holdReqFlush (s.switchFlush f)).mapCores f fun _ c =>
    { c.emptyShift.freeTiles with
      delay := [], steer := c.steer.mapVals (fun _ => Steer.reset) fun _ (u : Steer) => { u with waiting := none } }
  let s := (s.setSregBits (rotCtrl f) 0 0 0).onField f fun fl => { fl with drain := none, sched := .idle }
  if s.jobUses f && !s.jobDraining then s.abortJobHoists else s

def execDrainEnd (f : FieldNo) (s : State) : Out :=
  match (s.field f.val).drain with
  | some d =>
    if d.schedStopped && (s.coreSites f.val).all fun x => !s.coreOn x || (s.core x).drained then
      .next (s.drainEnds f.val false 0)
    else .next s
  | none => .next s

/-- Writes open values to a range where its banks are active. -/
def scramble (x : Site) (a n : Nat) (s : State) : State :=
  let v := s.fresh
  (writeActive x (n / 16 + 2) a ((List.range n).map fun i => Config.freeValue v.1 i % 256) v.2).2

/-- Started array commands stop where they are (R142): entries of their tiles and the destinations of unfinished closes
are open, a bank in loading is empty. -/
def stopArray (s : State) (x : Site) : State :=
  let a := (s.core x).array
  let slots := ((a.opening.map Prod.snd) ++ a.passes.map (·.slot) ++ a.closes.map (·.slot)).eraseDups
  let v := s.fresh
  let s := slots.foldl (fun s i =>
    let t := (s.core x).tile i
    s.onCore x fun c => (List.range 32).foldl (fun c r => (List.range t.m).foldl (fun c n =>
      c.setAcc (r * 256 + t.a0 + n) (Config.freeValue v.1 (r * 256 + t.a0 + n))) c) c) v.2
  let s := (a.closes.filter fun k => k.ran.isNone).foldl (fun s k =>
    let q := CloseCmd.of k.cmd
    match q.dest, outputFmt q.format with
    | some d, some f => (List.range 32).foldl (fun s r =>
        scramble x (d + r * q.stride) (((s.core x).tile k.slot).m * (f.width / 8)) s) s
    | _, _ => s) s
  s.onCore x fun c =>
    let c := match c.array.load with
      | some (_, b, _) => c.setAbank b ABank.reset
      | none => c
    (c.busyTo (s.cycleOf x)).onArray fun a => { a with
      tiles := [], queue := [], load := none, loadPort := [], opening := [], passes := [], closes := [], checkHold := [] }

/-- A started SpMV operation stops (R166): rows of y not yet written are open. DESIGN CHOICE (log 140): the SPMV counters,
QUEUE_PEAK and last_status stay as they were. -/
def stopSpmv (s : State) (x : Site) : State :=
  match (s.core x).spmv with
  | none => s
  | some d =>
    let s := if d.start = .ok then scramble x d.y (d.rows * d.yBytes) s else s
    s.onCore x fun c => { c with spmv := none }

/-- What step 6 discards on a core that is not drained, and CORE.DRAIN_STATE (R236). -/
def expireCore (s : State) (x : Site) : State :=
  let c := s.core x
  let running := (List.range 4).filter fun t => (c.thread t).state != .stopped
  let v := 2 ^ 31 + c.array.busy.toNat * 2 ^ 30 + c.spmv.isSome.toNat * 2 ^ 29 + (decide (c.tagsInUse ≠ 0)).toNat * 2 ^ 28 +
    (running.map fun t => 2 ^ (24 + t)).foldl (· + ·) 0 + min c.flitsHeld 0xFFFF
  let s := if c.array.busy then stopArray s x else s
  let s := (stopSpmv s x).onCore x fun c =>
    let c := (List.range 64).foldl (fun c i => if (c.tag i).isSome then c.freeTagNo i true else c) c
    let c := { c with missWait := [], delay := [], inputs := [], reads := [], chuteWait := [] }
    let c := running.foldl (fun c t =>
      c.setThread t { c.thread t with state := .stopped, wait := .none, pendingG := [] }) c
    c.setReg 0x0B4 (BitVec.ofNat 32 v)
  let s := running.foldl (fun s t => s.settleStop x t) s
  if (s.field x.field).resetDue then s else s.faultEntry 4 0 (siteWord x 0) v 0

/-- The cores of a field that are not drained. -/
def State.undrained (s : State) (f : Nat) : List Site :=
  (s.coreSites f).filter fun x => s.coreOn x && !(s.core x).drained

/-- Step 6: whatever is not drained is discarded. -/
def State.drainExpires (s : State) (f : Nat) : State :=
  let left := s.undrained f
  let s := if s.jobUses f then s.onPithead fun p => { p with
      job := p.job.map fun j => { j with undrained := j.undrained + left.length, limitExpired := true } } else s
  let s := left.foldl expireCore s
  (s.raise f (.space (pageFieldctl f)) ⟨0x0806, .contained, 2, fieldWord f 0⟩).drainEnds f true left.length

/-- The limit expires; where every core is drained by then, the drain ends without step 6 (R234). -/
def execDrainLimitExpiry (f : FieldNo) (s : State) : Out :=
  match (s.field f.val).drain with
  | some d =>
    let limit := (s.sreg (pageFieldctl f.val + 0x058)).toNat
    let s := s.elapse ((s.field f.val).until (d.since + 20 * limit))
    .next (if s.undrained f.val = [] then s.drainEnds f.val false 0 else s.drainExpires f.val)
  | none => .next s

end Sys2Proof.Machine
end

