-- ==== Sys2Proof/Machine/CorePage.lean ====
section
/-! DEFINITION. The register page of a core (R62 to R64, R120, R145, R168, R205, R236, R263, R287, R288, R352, R353,
R379, R531, R534): what a read shows and clears, and what a write does; and the instructions that reach the own page
(R197). -/

namespace Sys2Proof.Machine

/-! ## Reads -/

/-- Numbers with bit i set where `f i` holds. -/
def bitSet (n : Nat) (f : Nat → Bool) : Nat := ((List.range n).map fun i => (f i).toNat * 2 ^ i).foldl (· + ·) 0

def BankState.code : BankState → Nat
  | .empty => 0 | .loading => 1 | .ready => 2 | .inUse => 3

/-- Whether tailings run: the field asks for them and the array is idle. -/
def State.tailing (s : State) (x : Site) : Bool := s.arrayIdle x && (s.field x.field).duty.n != 0

/-- ARRAY.STATUS: promoting while the budget cycles of a pass run (R107). -/
def State.arrayStatus (s : State) (x : Site) : Nat :=
  let c := s.core x
  let a := c.array
  let now := s.cycleOf x
  let promoting := a.passes.any fun p => decide (p.lastWord < now ∧ now ≤ p.budgetEnd)
  let poisoned := (List.range 2).any fun i => (c.tile i).open_ && (c.tile i).poisoned
  a.lastStatus.code * 2 ^ 16 + a.queue.length * 2 ^ 12 + (s.tailing x).toNat * 2 ^ 9 + poisoned.toNat * 2 ^ 8 +
    bitSet 2 (fun i => (c.tile i).open_) * 2 ^ 6 + BankState.code (c.bankAt now 1) * 2 ^ 4 +
    BankState.code (c.bankAt now 0) * 2 ^ 2 + promoting.toNat * 2 + (a.runs || s.tailing x).toNat

/-- A bank's tag, recorded when its load completes and kept until the next load into it (R129). -/
def ABank.tag (k : ABank) : Nat :=
  if k.state = .empty ∨ k.state = .loading then 0
  else k.format % 256 * 2 ^ 24 + k.mode.code * 2 ^ 21 + k.rowsM1 % 32 * 2 ^ 16 + k.src / 16 % 2 ^ 13
def Tile.word (t : Tile) : Nat :=
  if t.open_ then 2 ^ 31 + t.poisoned.toNat * 2 ^ 30 + t.mode.code * 2 ^ 27 + (t.m - 1) % 256 * 2 ^ 8 + t.a0 % 256 else 0
/-- ARRAY.WIDTH from the harvest map (R468). -/
def State.arrayWidth (s : State) (x : Site) : Nat :=
  let e := (s.siteEntry x).toNat
  match s.siteCode x with
  | 1 => 2 ^ 7 + bits e 5 0
  | 2 => 2 ^ 15 + bits e 11 6 * 2 ^ 8 + 2 ^ 7 + bits e 5 0
  | _ => 0

/-- Ports of a router by bit 0 N, 1 E, 2 S, 3 W. -/
def State.portBits (_ : State) (x : Site) (f : Option Site → Bool) : Nat :=
  bitSet 4 fun k => f ((neighbour x.x.val x.y.val (portSide (k + 1))).bind fun q => Site.at? q.1 q.2)
/-- ROUTER.PORTS: a port at the wafer's edge counts as absent. -/
def State.routerPorts (s : State) (x : Site) : Nat :=
  let has (o : Option Site) (f : Site → Bool) : Bool := match o with | some y => f y | none => false
  (s.fenced.contains x.key).toNat * 2 ^ 16 + s.portBits x (fun o => has o fun y => y.foremanBlock) * 2 ^ 12 +
    s.portBits x (fun o => has o fun y => y.field != x.field) * 2 ^ 8 + s.portBits x (fun o => o.isNone) * 2 ^ 4 +
    s.portBits x (fun o => has o fun y => (s.holeAt x.x.val x.y.val (y.x.val, y.y.val)).isSome)

/-- CHUTE.CFGe as it is read. -/
def Chute.cfg (e : Chute) : Nat :=
  e.cfgRw + e.ready.toNat * 2 ^ 23 + e.recOpen.toNat * 2 ^ 22 + e.refusing.toNat * 2 ^ 21 + e.underrun.toNat * 2 ^ 20 +
    e.misuse.toNat * 2 ^ 19 + e.bindError.toNat * 2 ^ 18 + e.fault.toNat * 2 ^ 17
/-- CHUTE.STATEe at one moment. -/
def State.chuteState (s : State) (x : Site) (e : Nat) : Nat × State :=
  let l := s.level x e
  (((s.core x).chute e).lost % 2 ^ 16 * 2 ^ 16 + l.1 % 2 ^ 14, l.2)

/-- CORE.STEER_STATUS. -/
def Core.steerStatus (c : Core) : Nat :=
  let u (i : Nat) : Steer := c.steerUnit i
  (u 1).tokenQ.length * 2 ^ 15 + (u 1).dataQ.length * 2 ^ 12 + (u 0).tokenQ.length * 2 ^ 9 + (u 0).dataQ.length * 2 ^ 6 +
    c.delay.length * 2 ^ 2 + (u 1).waiting.isSome.toNat * 2 + (u 0).waiting.isSome.toNat

/-- CORE.SRAM_CONFLICT as counted up to the present cycle (R50). In which cycles the vector and the remote port lose a bank is
timing that the commands do not tell, so how much the count has grown is free, up to one for each port and cycle. -/
def State.conflictsNow (s : State) (x : Site) : Nat × State :=
  let c := s.core x
  let v := s.fresh
  let now := (s.field x.field).clk / 20
  let n := min ((c.reg 0x064).toNat + Config.freeValue v.1 0 % (2 * (now - c.conflictFrom) + 1)) 0xFFFFFFFF
  (n, v.2.setCore x { c.setReg 0x064 (BitVec.ofNat 32 n) with conflictFrom := now })

/-- PAGE_STATUS of a field's blocks and of its cores': in reset while its bring-up or its field reset runs, then shadowed where the
field is parked or lost, else ready. -/
def State.fieldStatus (s : State) (f : Nat) : Nat :=
  let fl := s.field f
  if fl.bringup == .testing || (fl.bringup == .down && s.bringing) then 2 ^ 29
  else if s.pithead.inReset then 0
  else if !fl.vcoreOn then 2 ^ 30
  else 2 ^ 31

/-- Core control registers that show the state behind them. -/
def State.controlView (s : State) (x : Site) (off : Nat) : Nat × State :=
  let c := s.core x
  let frozen := (s.field x.field).frozen
  match off with
  | 0x000 => (0x040 * 2 ^ 20 + x.field * 2 ^ 8 + 1, s)
  | 0x008 => (s.fieldStatus x.field, s)
  | 0x040 => (s.siteCode x * 2 ^ 29 + x.x.val * 2 ^ 19 + x.y.val * 2 ^ 10 + s.width x, s)
  | 0x048 => (((List.range 4).map fun t => (c.thread t).stateCode frozen * 16 ^ t).foldl (· + ·) 0, s)
  | 0x04C =>
    (bitSet 8 (fun k => (c.shiftSlot k).valid) * 2 ^ 16 + (Sched.switches (s.field x.field).sched).toNat * 8 +
      (c.active.map Prod.fst).getD 0, s)
  | 0x050 => ((c.thread 0).pc / 4 * 4, s)
  | 0x054 => ((c.thread 1).pc / 4 * 4, s)
  | 0x058 => ((c.thread 2).pc / 4 * 4, s)
  | 0x05C => ((c.thread 3).pc / 4 * 4, s)
  | 0x060 => (bitSet 16 (fun b => c.bank b != .active) * 2 ^ 16 + c.regBits 0x060 3 0, s)
  | 0x064 => s.conflictsNow x
  | 0x068 => (c.tagsInUse, s)
  | 0x0B0 => let s := s.holdReqFlush x; (((s.core x).reg 0x0B0).toNat, s)
  | 0x090 => (c.shiftLoad.isSome.toNat * 2 ^ 31 + c.regBits 0x090 30 0, s)
  | 0x098 => ((c.steerUnit 0).tokens.length * 2 ^ 16, s)
  | 0x09C => ((c.steerUnit 1).tokens.length * 2 ^ 16, s)
  | 0x0A0 => (c.steerStatus, s)
  | 0x0BC =>
    (bitSet 16 (fun b => c.bank b == .waking) * 2 ^ 16 +
      bitSet 16 (fun b => match c.bank b with | .closing _ => true | _ => false), s)
  | _ => ((c.reg off).toNat, s)

/-- Registers of the array, the generator, the gather lanes and the router that show the state behind them. -/
def State.unitView (s : State) (x : Site) (off : Nat) : Nat × State :=
  let c := s.core x
  match off with
  | 0x104 => (s.arrayStatus x, s)
  | 0x108 => ((c.abank 0).tag, s)
  | 0x10C => ((c.abank 1).tag, s)
  | 0x110 => ((c.tile 0).word, s)
  | 0x114 => ((c.tile 1).word, s)
  | 0x118 => (s.arrayWidth x, s)
  | 0x124 =>
    let s := s.onCore x (Core.busyTo (s.cycleOf x))
    (((s.core x).reg 0x124).toNat, s)
  | 0x1C4 => (c.spmvLast.code * 2 ^ 16 + c.regBits 0x1C4 3 1 * 2 + c.spmv.isSome.toNat, s)
  | 0x200 => (bits (s.coreEid x) 31 0, s)
  | 0x204 => (s.routerPorts x, s)
  | 0x208 =>
    (match s.ringOf x.x.val x.y.val with
      | some h => 2 ^ 31 + h.parked.toNat * 2 ^ 30 + h.x1 * 2 ^ 10 + h.x0
      | none => 0, s)
  | 0x20C => (match s.ringOf x.x.val x.y.val with | some h => h.y1 * 2 ^ 9 + h.y0 | none => 0, s)
  | 0x220 => ((c.active.map fun a => bits (Shift.entryWord a.2 (c.regBits 0x21C 5 0)) 31 0).getD 0, s)
  | 0x224 => ((c.active.map fun a => bits (Shift.entryWord a.2 (c.regBits 0x21C 5 0)) 63 32).getD 0, s)
  | _ =>
    if 0x160 ≤ off ∧ off < 0x188 then
      let v := (c.stream ((off - 0x160) / 8)).toNat
      (if off % 8 = 0 then bits v 31 0 else bits v 63 32, s)
    else ((c.reg off).toNat, s)

/-- What a 4-byte read of a core page shows, without the clearing of RC fields. -/
def State.coreView (s : State) (x : Site) (off : Nat) : Nat × State :=
  let c := s.core x
  if off < 0x100 then s.controlView x off
  else if off < 0x300 then s.unitView x off
  else if off < 0x400 then
    let w := c.win ((off - 0x300) / 16)
    (match off % 16 with
      | 0 => w.ctrl
      | 4 => w.base.toNat
      | 8 => w.size.toNat
      | _ => w.peer.toNat, s)
  else if off < 0x600 then
    let t := c.tally ((off - 0x400) / 8)
    (if off % 8 = 0 then t.value % 2 ^ 32 else t.target % 2 ^ 32, s)
  else if off < 0x800 then
    let k := (off - 0x600) / 16
    match off % 16 with
    | 0 => ((c.chute k).cfg, s)
    | 4 => ((c.chute k).peer.toNat, s)
    | 8 => ((c.chute k).frame.toNat, s)
    | _ => s.chuteState x k
  else
    let e := c.bookEntry ((off - 0x800) / 8)
    (if off % 8 = 0 then e.lo.toNat else e.hi.toNat, s)

/-- A read clears RC fields (R101). -/
def Core.readClear (c : Core) (off : Nat) : Core :=
  if 0x600 ≤ off ∧ off < 0x800 ∧ off % 16 = 12 then
    let k := (off - 0x600) / 16
    c.setChute k { c.chute k with lost := 0 }
  else
    match findReg corePageRegs off with
    | some r => if r.rc = 0 then c else c.setReg off (c.reg off &&& ~~~(BitVec.ofNat 32 r.rc))
    | none => c

/-- _LO registers whose _HI a 4-byte read captures (R534). -/
def corePair (off : Nat) : Bool :=
  off % 8 == 0 && ((decide (0x160 ≤ off) && decide (off < 0x188)) || off == 0x208 || off == 0x220 || decide (0x800 ≤ off))

/-- A register of the page is read: its value and the state after it. -/
def State.coreRead1 (s : State) (x : Site) (off : Nat) : Nat × State :=
  let v := s.coreView x off
  (v.1, v.2.onCore x fun c => c.readClear off)

/-- A read of 4 or 8 bytes by a requester (R534). -/
def State.coreRead (s : State) (w : Requester) (x : Site) (off n : Nat) : Nat × State :=
  let held := ((s.core x).latch.get (fun _ => (0, 0)) w.num)
  let s := s.onCore x fun c => { c with latch := c.latch.del w.num }
  if n = 8 then
    let a := s.coreRead1 x off
    let b := a.2.coreRead1 x (off + 4)
    (a.1 + b.1 * 2 ^ 32, b.2)
  else if held.1 = off ∧ off ≠ 0 then (held.2.toNat, s)
  else
    let a := s.coreRead1 x off
    if corePair off then
      let h := a.2.coreView x (off + 4)
      (a.1, h.2.onCore x fun c =>
        { c with latch := c.latch.set (fun _ => (0, 0)) w.num (off + 4, BitVec.ofNat 32 h.1) })
    else a

/-! ## Writes -/

/-- A write of CORE.PCt (R64). -/
def Core.writePc (c : Core) (t v : Nat) : Core :=
  let th := c.thread t
  if th.state = .stopped then c.setThread t { th with pc := bits v 16 2 * 4 } else c.refuse

/-- A write of CORE.SRAM_MAP (R47). -/
def Core.writeMap (c : Core) (v : Nat) : Core :=
  let bad (q : Nat) : Bool := c.linear q && !bit v q && (List.range 4).any fun i => c.bank (4 * q + i) != .active
  if (List.range 4).any bad then c.refuse else c.setRegBits 0x060 3 0 (bits v 3 0)

/-- A write by the row's access codes (R533). -/
def Core.writeReg (c : Core) (off : Nat) (v : Word) : Core :=
  match findReg corePageRegs off with
  | some r => c.setReg off (r.write (c.reg off) v)
  | none => c

/-- A write of the core control range, the array, the generator, the gather lanes or the router. -/
def State.writeControl (s : State) (w : Requester) (x : Site) (off : Nat) (v : Word) : State :=
  let n := v.toNat
  match off with
  | 0x044 => writeRun s x v
  | 0x050 => s.onCore x fun c => c.writePc 0 n
  | 0x054 => s.onCore x fun c => c.writePc 1 n
  | 0x058 => s.onCore x fun c => c.writePc 2 n
  | 0x05C => s.onCore x fun c => c.writePc 3 n
  | 0x060 => s.onCore x fun c => c.writeMap n
  | 0x090 => s.shiftLoadWrite x n
  | 0x098 => s.onCore x fun c => c.pushToken 0 n
  | 0x09C => s.onCore x fun c => c.pushToken 1 n
  | 0x0B8 => s.memPark w x v
  | 0x100 =>
    s.onCore x fun c => if bit n 8 != c.regBit 0x100 8 && c.array.busy then c.refuse else c.writeReg 0x100 v
  | 0x144 => s.onCore x fun c => if c.array.passes.isEmpty then c.writeReg 0x144 v else c.refuse
  | 0x150 =>
    s.onCore x fun c => if (c.tile 0).open_ || (c.tile 1).open_ then c.refuse else c.writeReg 0x150 v
  | 0x1C0 => s.onCore x fun c => if c.spmv.isSome then c.refuse else c.writeReg 0x1C0 v
  | 0x200 => s.writeEid w x v
  | _ =>
    if 0x160 ≤ off ∧ off < 0x188 then
      let i := (off - 0x160) / 8
      if off % 8 = 0 then s.onCore x fun c => { c with seedLo := c.seedLo.put i v } else s.onCore x fun c => c.seedLoad i v
    else s.onCore x fun c => c.writeReg off v

/-- Whether a write of one register is refused with BUSY (R107, R113, R120, R166, R208). -/
def State.pageBusy (s : State) (x : Site) (off v : Nat) : Bool :=
  let c := s.core x
  match off with
  | 0x090 =>
    bit v 31 && ((c.active.any fun a => a.1 == bits v 30 28) || Sched.switches (s.field x.field).sched || c.shiftLoad.isSome)
  | 0x144 => !c.array.passes.isEmpty
  | 0x150 => (c.tile 0).open_ || (c.tile 1).open_
  | 0x184 => c.array.load.isSome || !c.array.passes.isEmpty
  | 0x1C0 => c.spmv.isSome
  | _ => false
/-- The status of a privileged write of n bytes of a page. -/
def State.pageWriteStatus (s : State) (x : Site) (off n v : Nat) : Status :=
  if s.pageBusy x off (v % 2 ^ 32) || (n == 8 && s.pageBusy x (off + 4) (v / 2 ^ 32)) then .busy else .ok

/-- A write of one 32-bit register of a core page. -/
def State.coreWrite1 (s : State) (w : Requester) (x : Site) (off : Nat) (v : Word) : State :=
  let n := v.toNat
  if off < 0x300 then s.writeControl w x off v
  else if off < 0x400 then
    let k := (off - 0x300) / 16
    match off % 16 with
    | 0 => s.windowCtrl x k n
    | 4 => s.onCore x fun c => c.windowField k n 0x1FFC0 (fun w => w.base) fun w v => { w with base := v }
    | 8 => s.onCore x fun c => c.windowField k n 0x3FFC0 (fun w => w.size) fun w v => { w with size := v }
    | _ => s.onCore x fun c => c.windowField k n 0xFFFFFFFF (fun w => w.peer) fun w v => { w with peer := v }
  else if off < 0x600 then
    let i := (off - 0x400) / 8
    if off % 8 = 0 then s.tallySet x i n else s.tallyTarget x i n
  else if off < 0x800 then
    let k := (off - 0x600) / 16
    match off % 16 with
    | 0 => s.chuteCfg x k n
    | 4 => s.onCore x fun c => c.chutePeer k v
    | 8 => s.onCore x fun c => c.chuteFrame k v
    | _ => s
  else
    let i := (off - 0x800) / 8
    if off % 8 = 0 then s.onCore x fun c => c.bookLo i v else s.onCore x fun c => c.bookWrite i v

/-- A write of 4 or 8 bytes by a requester (R534): it discards what the requester had captured. -/
def State.coreWrite (s : State) (w : Requester) (x : Site) (off n v : Nat) : State :=
  let s := s.onCore x fun c => { c with latch := c.latch.del w.num }
  let s := s.coreWrite1 w x off (BitVec.ofNat 32 v)
  if n = 8 then s.coreWrite1 w x (off + 4) (BitVec.ofNat 32 (v / 2 ^ 32)) else s

/-! ## RDREG and WRREG (R197) -/

/-- The exception the offset of RDREG or WRREG meets, else what it does. -/
def pageInsn (i : Iss) (rs : List Nat) (a : GReg) (imm : BitVec 12) (s : State) (k : Thread → Nat → State) : Out :=
  .next <| issue i rs s fun th =>
    let off := pageOffset (th.get a.val) imm
    if off % 4 ≠ 0 then s.precise i.site i.thread.val 0x02 .addrRange off
    else if 0x1000 ≤ off then s.precise i.site i.thread.val 0x03 .addrRange off
    else k th off

def execRdreg (i : Iss) (d a : GReg) (imm : BitVec 12) (s : State) : Out :=
  pageInsn i [d.val, a.val] a imm s fun _ off =>
    let r := s.coreRead (.thread i.site i.thread) i.site off 4
    r.2.onThread i.site i.thread.val fun th => (th.put d.val (BitVec.ofNat 64 r.1)).advance

def execWrreg (i : Iss) (d a : GReg) (imm : BitVec 12) (s : State) : Out :=
  pageInsn i [d.val, a.val] a imm s fun th off =>
    (s.setThread i.site i.thread.val th.advance).coreWrite (.thread i.site i.thread) i.site off 4
      (bits (th.get d.val).toNat 31 0)

end Sys2Proof.Machine
end

