-- ==== Sys2Proof/Machine/Canary.lean ====
section
/-! DEFINITION. The debugger's view of a tally (R380), the canary (R374 to R377, R381) and the watchdog (R378). -/

namespace Sys2Proof.Machine

/-! ## TALLYDBG (R380) -/

/-- The tally unit and number that TALLYDBG.SEL names; none where it names no core or foreman of the field. -/
def State.dbgUnit (s : State) (f : Nat) : Option (TUnit × Nat) :=
  let v := (s.sreg (pageTallydbg f + 0x040)).toNat
  if bit v 30 then some (.foreman f, bits v 5 0)
  else
    match Site.at? (bits v 28 19) (bits v 18 10) with
    | some x => if x.field = f ∧ s.coreOn x then some (.core x, bits v 5 0) else none
    | none => none

/-- The registers of a captured tally, by page offset; the low 32 bits of each count. -/
def Tally.captured (ty : Tally) : List (Nat × Nat) :=
  let waits (f : Waiter → Bool) : Nat :=
    ((List.range 4).map fun t => (ty.waiters.any fun w => w.thread == t && f w).toNat * 2 ^ t).foldl (· + ·) 0
  let ctrl := ty.barrier.toNat * 2 ^ 31 + ty.parentEn.toNat * 2 ^ 30 + ty.forwarded.toNat * 2 ^ 29 +
    ty.surplus.toNat * 2 ^ 28 + ty.saturated.toNat * 2 ^ 27 + ty.parentTally % 64 * 2 ^ 20 +
    waits (fun w => w.next) * 16 + waits fun _ => true
  let deadline (t : Nat) : Nat := ((ty.waiters.find? fun w => w.thread == t).map (·.deadline)).getD 0
  let reg (j : Nat) : Nat × Nat :=
    match ty.regs[j]? with
    | some r => (r.eid, 2 ^ 31 + r.child.toNat * 2 ^ 30 + r.next.toNat * 2 ^ 29 + r.tally % 64)
    | none => (0, 0)
  [(0x044, ty.value), (0x048, ty.target), (0x04C, ty.round % 2 ^ 16 * 2 ^ 16 + ty.early % 16), (0x050, ctrl),
    (0x054, ty.parentEid), (0x058, ty.lastEid), (0x060, ty.lastTime), (0x064, ty.lastTime / 2 ^ 32)] ++
  (List.range 4).flatMap (fun t => [(0x070 + 8 * t, deadline t), (0x074 + 8 * t, deadline t / 2 ^ 32)]) ++
  (List.range 8).flatMap fun j => [(0x090 + 8 * j, (reg j).1), (0x094 + 8 * j, (reg j).2)]

/-- A write of TALLYDBG.SEL captures the tally it names; where it names none, what the registers show is open. -/
def State.tallyCapture (s : State) (f : Nat) (v : Word) : State :=
  let page := pageTallydbg f
  let s := s.setSreg (page + 0x040) (v &&& 0x5FFFFC3F#32)
  let s := s.onField f fun fl => { fl with tallyClr := 0 }
  match s.dbgUnit f with
  | some (u, i) =>
    (s.tallyOf u i).captured.foldl (fun s r => s.setSreg (page + r.1) (BitVec.ofNat 32 r.2)) s
  | none =>
    let v := s.fresh
    Tally.reset.captured.foldl (fun s r => s.setSreg (page + r.1) (BitVec.ofNat 32 (Config.freeValue v.1 r.1))) v.2

def execTallyCapture (w : Requester) (f : FieldNo) (v : Word) (s : State) : Out :=
  .next (s.fieldPut w f.val (pageTallydbg f.val) fun s => s.tallyCapture f.val v)

/-- A write of TALLYDBG.CTRL: its RW bits, and its W1C bits, which COMMIT carries to the tally. -/
def State.tallyCtrl (s : State) (f : Nat) (v : Word) : State :=
  let r := pageTallydbg f + 0x050
  let n := v.toNat
  let keep := (s.sreg r &&& ~~~0xC3F00000#32) ||| (v &&& 0xC3F00000#32)
  let s := s.setSreg r (keep &&& ~~~(v &&& 0x18000000#32))
  s.onField f fun fl => { fl with tallyClr := fl.tallyClr ||| (bits n 28 27 * 2 ^ 27) }

/-- The status of a commit. -/
def State.commitStatus (s : State) (f : Nat) : Status :=
  match s.dbgUnit f with
  | none => .denied
  | some (u, i) =>
    let ty := s.tallyOf u i
    if !ty.waiters.isEmpty || !ty.regs.isEmpty || ty.forwarded then .busy else .ok

/-- A write of TALLYDBG.COMMIT with go. -/
def State.tallyCommit (s : State) (f : Nat) : State :=
  let page := pageTallydbg f
  let st := s.commitStatus f
  let s := s.setSregBits (page + 0x0D0) 15 8 st.code
  match s.dbgUnit f with
  | some (u, i) =>
    if st ≠ .ok then s
    else
      let ctrl := (s.sreg (page + 0x050)).toNat
      let clr := (s.field f).tallyClr
      let round := s.sregBits (page + 0x04C) 31 16
      let eid := (s.sreg (page + 0x054)).toNat
      let s := (s.onTally u i fun ty => { ty with
        barrier := bit ctrl 31, parentEn := bit ctrl 30, parentTally := bits ctrl 25 20, round := round, parentEid := eid
        surplus := ty.surplus && !bit clr 28, saturated := ty.saturated && !bit clr 27 }).tallySettle u i
      s.onField f fun fl => { fl with tallyClr := 0 }
  | none => s

def execTallyCommit (w : Requester) (f : FieldNo) (v : Word) (s : State) : Out :=
  .next (s.fieldPut w f.val (pageTallydbg f.val) fun s => if bit v.toNat 0 then s.tallyCommit f.val else s)

/-! ## Quiet and idle (R374) -/

/-- What a field of the job in progress is while it stands still: 2 quiet, 1 idle, 0 neither. -/
def State.stillness (s : State) (f : Nat) : Nat :=
  let fl := s.field f
  let cores := (s.coreSites f).filter s.coreOn
  if !s.jobUses f || s.restless f then 0
  else
    let waits := cores.any fun x => (List.range 4).any fun t =>
      (s.thread x t).state == .waitTally || (s.thread x t).state == .waitChute
    if waits || fl.frozen then (if s.sregBit (pageCanary f + 0x044) 0 then 2 else 0) else 1

def canaryStatus (f : Nat) : Nat := pageCanary f + 0x048

/-- The canary's registers as they stand now: a field that is no longer still has left its state, and the cycles it has
been quiet are counted. -/
def State.canaryRefresh (s : State) (f : Nat) : State :=
  let s := s.noteHold f
  let held := s.sregBits (canaryStatus f) 31 30
  if held ≠ 0 ∧ s.stillness f ≠ held then s.stirs f
  else
    let fl := s.field f
    if held ≠ 2 then s
    else
      let n := (fl.clk - fl.quietFrom) / 20
      (s.setField f { fl with quietFrom := fl.quietFrom + 20 * n }).scount (pageCanary f + 0x060) n

/-- Whether a packet moves on in a field by itself: its head can be sent on, ends or leaves, or it stands before a core's local
port. -/
def State.moving (s : State) (f : Nat) : Bool :=
  s.net.any fun q =>
    let x := Site.ofKey q.at_
    x.field == f &&
      if q.exited then q.pkt.port == .local_
      else s.forwards x && s.front q &&
        match s.hop q x with
        | .tgt _ _ => (s.wants q).isSome
        | .waits => false
        | _ => true
/-- Whether a TWAIT in a field comes to its deadline within some nanoseconds. -/
def State.waitEnds (s : State) (f n : Nat) : Bool :=
  (s.coreSites f).any fun x => (s.core x).tallies.any fun ty => ty.2.waiters.any fun w =>
    w.deadline != 0 && decide (w.deadline ≤ s.now f + n)
/-- The field clock at which a field that goes on standing still has done so for CANARY.WINDOW cycles. -/
def State.canaryDue (s : State) (f : Nat) : Nat :=
  (s.field f).stillSince + 20 * max 1 (s.sreg (pageCanary f + 0x040)).toNat

/-- CANARY_WINDOW: the field has stood still for CANARY.WINDOW cycles, which engine time reaches where nothing moves before. -/
def execCanaryWindow (f : FieldNo) (s : State) : Out :=
  let s := s.canaryRefresh f.val
  let k := s.stillness f.val
  let fl := s.field f.val
  let due := s.canaryDue f.val
  let n := ceilDiv (due - fl.clk) fl.rate
  if k = 0 ∨ s.sregBits (canaryStatus f.val) 31 30 ≠ 0 ∨ (fl.clk < due ∧ fl.rate = 0) ∨ s.moving f.val ∨ s.waitEnds f.val n then .next s
  else
    let s := (s.elapse n).noteHold f.val
    let s := s.setSregBits (canaryStatus f.val) 31 30 k
    .next (s.onField f.val fun fl => { fl with quietFrom := due })

/-! ## Snapshots (R377) -/

/-- One entry of 16 bytes. -/
def snapEntry (kind thread round site a b : Nat) : List Nat :=
  leBytes 1 kind ++ leBytes 1 thread ++ leBytes 2 round ++ leBytes 4 site ++ leBytes 4 a ++ leBytes 4 b

/-- The entries of one core. -/
def State.snapCore (s : State) (x : Site) : List (List Nat) × State :=
  let c := s.core x
  let chuteAt (acc : List (List Nat) × State) (t e : Nat) : List (List Nat) × State :=
    let l := acc.2.chuteState x e
    (acc.1 ++ [snapEntry 2 t 0 (siteWord x e) l.1 (c.chute e).cfg], l.2)
  let threads := (List.range 4).foldl (fun acc t =>
    let th := c.thread t
    match th.wait with
    | .tally _ i =>
      let ty := c.tally i
      (acc.1 ++ [snapEntry 1 t ty.round (siteWord x i) ty.value ty.target], acc.2)
    | .cput e _ | .vcput e _ | .cget e _ | .vcget e _ | .cropen e => chuteAt acc t e
    | _ => acc) (([] : List (List Nat)), s)
  let fwd := ((List.range 64).filter fun i => (c.tally i).forwarded).map fun i =>
    snapEntry 4 0xFF (c.tally i).round (siteWord x i) (c.tally i).value (c.tally i).target
  (threads.1 ++ fwd, threads.2)

/-- Every entry of a field. -/
def State.snapField (s : State) (f : Nat) : List (List Nat) × State :=
  let cores := ((s.coreSites f).filter s.coreOn).foldl (fun acc x =>
    let r := acc.2.snapCore x
    (acc.1 ++ r.1, r.2)) (([] : List (List Nat)), s)
  let own := ((List.range 64).filter fun i => (s.tallyOf (.foreman f) i).forwarded).map fun i =>
    let ty := s.tallyOf (.foreman f) i
    snapEntry 4 0xFF ty.round (fieldWord f i) ty.value ty.target
  let hold := if (s.field f).frozen then [snapEntry 3 0xFF 0 (fieldWord f 0) (s.sreg (pageFieldctl f + 0x054)).toNat 0] else []
  (cores.1 ++ own ++ hold, cores.2)

/-- Puts entries into an order that no rule gives: each goes to a free place among those before it. -/
def freeOrder (k : Nat) (l : List (List Nat)) : List (List Nat) :=
  (l.zip (List.range l.length)).foldl (fun acc e =>
    let i := Config.freeValue k e.2 % (acc.length + 1)
    acc.take i ++ e.1 :: acc.drop i) []

/-- A field's foreman writes its snapshot; bytes past the end of its memory go nowhere. -/
def State.snapshot (s : State) (f : Nat) : State :=
  let page := pageCanary f
  let r := s.snapField f
  let v := r.2.fresh
  let all := freeOrder v.1 r.1
  let max := v.2.sregBits (page + 0x050) 15 0
  let kept := all.take max
  let off := v.2.sregBits (page + 0x04C) 23 4 * 16
  let bs := kept.flatten.take (0x1000000 - off)
  let s := v.2.onField f fun fl => { fl with foremanMem := putBytes fl.foremanMem off bs }
  s.setSreg (page + 0x054) (BitVec.ofNat 32 ((decide (kept.length < all.length)).toNat * 2 ^ 31 + kept.length))

/-- Fields of a job in increasing number. -/
def Job.fieldList (j : Job) : List Nat := (List.range 48).filter fun f => bit j.fields f

/-- Snapshots of the quiet fields of the job whose canary writes them (R376 step 1). -/
def State.snapshots (s : State) (j : Job) : State :=
  j.fieldList.foldl (fun s f =>
    if bit (s.sreg (canaryStatus f)).toNat 31 && s.sregBit (pageCanary f + 0x044) 1 && (s.field f).foremanUp then
      (s.snapshot f).onPithead fun p => { p with job := p.job.map fun j => { j with snapshots := true } }
    else s) s

/-- A stall of the job: its entry in every field of the job, which ends it (R376, R378). -/
def State.stall (s : State) (j : Job) (code : Nat) : State :=
  j.fieldList.foldl (fun s f => s.raise f (.space pagePithead) ⟨code, .jobFatal, 3, fieldWord f 0⟩) s

/-! ## The pithead's poll and the watchdog (R375, R378) -/

/-- One reading of the canaries of a job: field, WAKES, quiet and idle. -/
def State.canaryReading (s : State) (j : Job) : List (Nat × Nat × Bool × Bool) :=
  j.fieldList.map fun f =>
    (f, (s.sreg (pageCanary f + 0x058)).toNat, s.sregBit (canaryStatus f) 31, s.sregBit (canaryStatus f) 30)

/-- Whether a reading shows that nothing moves. -/
def readingStuck (r : List (Nat × Nat × Bool × Bool)) : Bool :=
  (r.all fun e => e.2.2.1 || e.2.2.2) && r.any fun e => e.2.2.1

/-- DEADLOCK is declared. -/
def State.deadlock (s : State) (j : Job) : State :=
  let s := s.snapshots j
  let s := j.fieldList.foldl (fun s f => s.setSflag (canaryStatus f) 29) s
  s.stall j 0x0D04

/-- CANARY_POLL. -/
def execCanaryPoll (s : State) : Out :=
  match s.liveJob.filter (·.running) with
  | none => .next (s.onPithead fun p => { p with canary := [] })
  | some j =>
    let s := j.fieldList.foldl (fun s f => s.canaryRefresh f) s
    let r := s.canaryReading j
    let last := s.pithead.canary
    let s := s.onPithead fun p => { p with canary := r, canaryAt := s.time }
    .next (if r = last && readingStuck r then s.deadlock j else s)

/-- Whether a reading falls due now, 50 µs after the last, and declares DEADLOCK. -/
def State.deadlockDue (s : State) (j : Job) : Bool :=
  decide (s.pithead.canaryAt + 50000 ≤ s.time) && decide (s.canaryReading j = s.pithead.canary) && readingStuck s.pithead.canary

/-- JOB_WATCHDOG: the running job has run for longer than its limit. A DEADLOCK that falls due with it goes first. -/
def execJobWatchdog (s : State) : Out :=
  match s.liveJob.filter (·.running) with
  | none => .next s
  | some j =>
    let limit := ((s.port j.port).cur.map (·.watchdog)).getD 0
    if limit = 0 then .next s
    else
      let s := s.elapseTo (j.startTime + limit + 1)
      let s := j.fieldList.foldl (fun s f => s.canaryRefresh f) s
      .next (if s.deadlockDue j then s.deadlock j else (s.snapshots j).stall j 0x0D05)

end Sys2Proof.Machine
end

