-- ==== Sys2Proof/Machine/Seams.lean ====
section
/-! DEFINITION. Seam links (R383 to R400): enabling and training, frames with their replay, the choice of a link, what
arrives from a peer, and what becomes of packets when a link goes down. -/

namespace Sys2Proof.Machine

/-! ## The keeper's registers (R402, R407, R408) -/

def State.isKeeper (s : State) (w : Requester) : Bool :=
  match w.port? with
  | some p => (p == 1) == s.pithead.keeperB
  | none => false

/-- A write of a register that only the keeper writes: from the other port it is ignored and flagged. -/
def State.keeperWrite (s : State) (w : Requester) (k : State → State) : State :=
  match w.port? with
  | some p => if s.isKeeper w then k s else s.setSflag (pageHostport p + 0x044) 0
  | none => s
/-- A command that writes such a register, at offset `off`. -/
def State.keeperPut (s : State) (w : Requester) (off : Nat) (k : State → State) : State :=
  s.pagePut w off fun s => s.keeperWrite w k

def seamChip : Nat := pageSeam 0 + 0x080
/-- The same for SEAM.CHIP, the chip route table and SEAM.CTRL (R390). -/
def State.seamKeeper (s : State) (w : Requester) (k : State → State) : State :=
  let s' := s.keeperWrite w k
  if s.isKeeper w || w.port?.isNone then s' else s'.setSflag seamChip 31

/-! ## Links -/

def State.onSeam (s : State) (n : Nat) (f : Seam → Seam) : State := s.setSeam n (f (s.seam n))
/-- The field of a link's first entry router. -/
def seamField (n : Nat) : Nat := ((seamEntries n).getD 0 ⟨0, 0⟩).field
/-- An entry of a link (R400). -/
def State.raiseSeam (s : State) (n code : Nat) (sev : Severity) (uses : Bool) : State :=
  s.raiseBy (seamField n) (.space (pageSeam n)) ⟨code, sev, 5, fieldWord (seamField n) n⟩ uses
def State.seamEnable (s : State) (n : Nat) : Bool := s.sregBit (seamCtrl n) 0
/-- Entry router e of a link, or its replacement; entry 0 where every one is a HOLE. -/
def State.seamEntry (s : State) (n e : Nat) : Site :=
  (s.entryRouter (seamEntries n) e).getD ((seamEntries n).getD 0 ⟨0, 0⟩)

/-! ## Choosing a link (R391, R393, R394) -/

/-- Whether a link is UP and belongs to an up candidate group of a chip. -/
def State.seamCandidate (s : State) (n chip : Nat) : Bool := (s.upGroups chip).any fun g => s.seamIn g n

/-- The adaptive choice: the lowest occupancy, then the earlier candidate, then the lower number. -/
def State.adaptiveLink (s : State) (chip : Nat) : Option Nat :=
  ((s.upGroups chip).flatMap s.groupLinks).foldl (fun best n =>
    match best with
    | none => some n
    | some b => if (s.seam n).occupancy < (s.seam b).occupancy then some n else best) none

/-- Credit of the peer for a virtual channel: 224 flits (R385). -/
def Seam.credit (l : Seam) (vc : Nat) : Nat :=
  224 - (l.sentFlits.get (fun _ => 0) vc + 256 - l.peerFreed.get (fun _ => 0) vc % 256) % 256

/-- A packet is sent on into the mesh from a router toward another link. -/
def State.retarget (s : State) (x : Site) (p : Packet) (n : Nat) : State :=
  let d := Dest.of (s.seamEntry n ((x.x.val + x.y.val) % 4)) (.side (seamSide n)) true
  s.inject x.key (p.toward d)

/-- VC2 packets that leave their path go on in VC3. -/
def Packet.escaped (p : Packet) : Packet := { p with vc := 3, escape := true }

/-- Credits of a virtual channel that no flit in the egress queue needs. -/
def Seam.spare (l : Seam) (vc : Nat) : Nat :=
  l.credit vc - ((l.egress.filter fun e => e.2.1.vc == vc).map fun e => e.2.1.flits + 1 - e.2.2).foldl (· + ·) 0

/-- A packet for which no candidate group is up ends at a link. -/
def State.seamNoRoute (s : State) (n : Nat) (x : Site) (p : Packet) : State :=
  ((s.scount (pageSeam n + 0x06C) 1).raiseSeam n 0x0E04 .corrected false).endPacket x p .noRoute
/-- A head goes on to another link: in VC2 to the adaptive choice, escaped; in the other channels to the deterministic one. -/
def State.seamElse (s : State) (x : Site) (p : Packet) : Option State :=
  let chip := eidChip p.dst
  if p.vc = 2 then (s.adaptiveLink chip).map fun m => s.retarget x (Packet.escaped p) m
  else (s.chipLink chip p.src).map fun m => s.retarget x p m

/-- What a link does with a head for another chip at one of its entry routers (R394). `late` says that a VC2 head has waited 32
cycles without a credit; none keeps it waiting. -/
def State.seamChoose (s : State) (n : Nat) (x : Site) (p : Packet) (late : Bool) : Option State :=
  let chip := eidChip p.dst
  if s.upGroups chip = [] then some (s.seamNoRoute n x p)
  else if !s.seamCandidate n chip then s.seamElse x p
  else if p.vc != 2 || decide (0 < (s.seam n).spare 2) then
    some (s.onSeam n fun l => { l with egress := l.egress ++ [(x.key, p, 0)] })
  else if late && s.adaptiveLink chip != some n then s.seamElse x p
  else none

/-- A head in transit leaves the link that received it for its outgoing link, be it a candidate or not (R395). -/
def State.seamTransit (s : State) (n : Nat) (x : Site) (p : Packet) : State :=
  if s.upGroups (eidChip p.dst) = [] then s.seamNoRoute n x p else (s.seamElse x p).getD s

/-- A head that stands at a link's outward port. -/
def State.atSeam (s : State) (n : Nat) (p : Packet) : Option Site :=
  ((s.landing p).filter fun q => s.lands p && (seamEntries n).any fun y => y.key == q.at_).map fun q => Site.ofKey q.at_

/-- SEAM_EGRESS. A VC2 head that finds no credit waits 32 cycles. -/
def execSeamEgress (n : Fin 96) (p : Packet) (s : State) : Out :=
  match s.atSeam n.val p with
  | some x =>
    if eidChip p.dst = s.chip then .next s
    else
      s.throughRim <| match (s.consume p).seamChoose n.val x p false with
      | some t => .next t
      | none =>
        let s := s.elapse (ceilDiv (32 * 20) (s.field x.field).rate)
        .next (((s.consume p).seamChoose n.val x p true).getD s)
  | none => .next s

/-! ## Going down (R389, R397) -/

/-- A packet partly received is closed by a payload flit with tail and poisoned set. -/
def Packet.closed (p : Packet) : Packet := { p with poisoned := true, payload := p.payload ++ List.replicate 32 0 }

/-- Packets at a link that carries no more: heads not yet sent choose again, others are truncated; a packet partly
received ends poisoned. -/
def State.seamLosses (s : State) (n : Nat) : State :=
  let l := s.seam n
  let ends := l.partial_.filterMap fun kv => kv.2.map Packet.closed
  let s := s.setSeam n { l with
    egress := [], unacked := [], resend := [], partial_ := [], arrived := l.arrived ++ ends }
  l.egress.foldl (fun s e =>
    let x := Site.ofKey e.1
    if e.2.2 = 0 then (s.seamChoose n x e.2.1 false).getD s
    else (s.scount (pageSeam n + 0x068) 1).losePacket x e.2.1) s

/-- A link enters DOWN with a cause: enable clears and SEAM_LINK_DOWN is raised. -/
def State.seamDown (s : State) (n cause : Nat) : State :=
  let was := (s.seam n).state
  let fatal := s.sregBit (seamCtrl n) 1 && (s.liveJob.any fun j => j.running)
  let s := (s.setSregBits (seamCtrl n) 0 0 0).onSeam n fun l => { l with state := .down, cause := cause }
  let s := s.raiseSeam n 0x0E01 (if fatal then .jobFatal else .contained) fatal
  if was = .up then s.seamLosses n else s

/-- A write of SEAM.CTRL (R387): a link trains once enabled, and leaves for OFF once disabled, an UP link with a
going-down frame. -/
def State.seamCtrlWrite (s : State) (n v : Nat) : State :=
  let was := s.seamEnable n
  let s := s.setSreg (seamCtrl n) (BitVec.ofNat 32 (bits v 13 8 * 2 ^ 8 + bits v 1 0))
  let l := s.seam n
  let off (s : State) : State := s.onSeam n fun l => { l with state := .off, out := none }
  if bit v 0 then
    if !was && (l.state == .off || l.state == .down) then
      s.setSeam n { l with
        state := .training, peerSeen := false, idEnabled := false, peerEnabled := false, txSeq := 0, rxSeq := 255
        lastAck := 255, nakOut := false, unacked := [], resend := [], resends := 0, sentFlits := [], peerFreed := []
        freed := [], out := none
        old := (l.arrived ++ l.waiting).foldl (fun m p => m.set (fun _ => 0) p.vc (m.get (fun _ => 0) p.vc + 1)) [] }
    else s
  else
    match l.state with
    | .training | .ready => off s
    | .up =>
      (off s |>.onSeam n fun l => { l with out := some l.goingDown }).seamLosses n
    | .off | .down => s

def execLinkEnable (w : Requester) (n : Fin 96) (v : Word) (s : State) : Out :=
  .next (s.pagePut w (seamCtrl n.val) fun s => s.seamKeeper w fun s => s.seamCtrlWrite n.val v.toNat)
def execLinkDisable (w : Requester) (n : Fin 96) (v : Word) (s : State) : Out :=
  .next (s.pagePut w (seamCtrl n.val) fun s => s.seamKeeper w fun s => s.seamCtrlWrite n.val v.toNat)

/-- TRAINING_DONE: training and the identity exchange have ended (R388). -/
def execTrainingDone (n : Fin 96) (s : State) : Out :=
  let l := s.seam n.val
  if l.state ≠ .training || !l.peerSeen then .next s
  else if s.sregBits (pageSeam n.val + 0x048) 31 20 = s.chip then
    .next ((s.raiseSeam n.val 0x0E03 .contained false).seamDown n.val 4)
  else .next (s.setSeam n.val { l with state := .ready })

def execTrainingTimeout (n : Fin 96) (s : State) : Out :=
  .next (if (s.seam n.val).state = .training then s.seamDown n.val 5 else s)

def execSignalLoss (n : Fin 96) (s : State) : Out :=
  .next (if (s.seam n.val).state = .up then s.seamDown n.val 2 else s)

/-! ## Sending frames (R385, R386) -/

/-- Flit k of a packet on a link: its head, then 32 bytes at a time. -/
def Packet.seamFlit (p : Packet) (k : Nat) : SeamFlit :=
  let last := k == p.flits
  if k = 0 then ⟨p.vc, some p.headBits, [], last, p.poisoned && last⟩
  else ⟨p.vc, none, (p.payload.drop (32 * (k - 1))).take 32, last, p.poisoned && last⟩

/-- The first entry of a list that is this one, replaced. -/
def replaceFirst {α : Type} [DecidableEq α] (a b : α) : List α → List α
  | [] => []
  | c :: cs => if c = a then b :: cs else c :: replaceFirst a b cs

/-- Puts the next flit of a virtual channel on the link. -/
def Seam.take (l : Seam) (vc : Nat) : Option (SeamFlit × Seam) :=
  if l.credit vc = 0 then none
  else
    (l.egress.find? fun e => e.2.1.vc == vc).map fun e =>
      let f := Packet.seamFlit e.2.1 e.2.2
      let rest :=
        if f.tail then l.egress.erase e else replaceFirst e (e.1, e.2.1, e.2.2 + 1) l.egress
      (f, { l with
        egress := rest
        sentFlits := l.sentFlits.set (fun _ => 0) vc ((l.sentFlits.get (fun _ => 0) vc + 1) % 256)
        turn3 := if vc = 2 then true else if vc = 3 then false else l.turn3 })

/-- The flit that goes next (R326). -/
def Seam.next (l : Seam) : Option (SeamFlit × Seam) :=
  l.take 0 <|> l.take 1 <|> (if l.turn3 then l.take 3 <|> l.take 2 else l.take 2 <|> l.take 3)

/-- Up to n flits for a frame. -/
def Seam.fill : Nat → Seam → List SeamFlit × Seam
  | 0, l => ([], l)
  | n + 1, l =>
    match l.next with
    | some (f, l) => let r := Seam.fill n l; (f :: r.1, r.2)
    | none => ([], l)

/-- A frame with the link's present acknowledgement and credits. -/
def State.seamHeader (s : State) (n kind seq : Nat) (flits : List SeamFlit) : SeamFrame :=
  let l := s.seam n
  ⟨kind, seq, l.rxSeq, l.nakOut, s.seamEnable n, (List.range 4).map fun v => l.freed.get (fun _ => 0) v, flits,
    if kind = 3 then s.chip else 0, if kind = 3 then n else 0⟩

def State.seamOut (s : State) (n : Nat) (fr : SeamFrame) : State :=
  let s := s.onSeam n fun l => { l with out := some fr.bytes }
  if fr.kind = 1 then s.scount (pageSeam n + 0x050) 1 else s

/-- The next frame of an UP link: one to be resent, else a data frame, else an idle one. -/
def State.seamSend (s : State) (n : Nat) : State :=
  let l := s.seam n
  match l.resend with
  | fr :: rest =>
    (s.setSeam n { l with resend := rest }).seamOut n (s.seamHeader n 1 fr.seq fr.flits)
  | [] =>
    if 64 ≤ l.unacked.length then s.seamOut n (s.seamHeader n 2 0 [])
    else
      let r := Seam.fill 16 l
      if r.1 = [] then s.seamOut n (s.seamHeader n 2 0 [])
      else
        let fr := s.seamHeader n 1 l.txSeq r.1
        (s.setSeam n { r.2 with txSeq := (l.txSeq + 1) % 256, unacked := l.unacked ++ [fr] }).seamOut n fr

/-- FRAME_SEND. -/
def execFrameSend (n : Fin 96) (s : State) : Out :=
  match (s.seam n.val).state with
  | .training => .next (s.seamOut n.val (s.seamHeader n.val 3 0 []))
  | .ready => .next (s.seamOut n.val (s.seamHeader n.val 2 0 []))
  | .up => s.throughRim (.next (s.seamSend n.val))
  | .off | .down => .next s

/-! ## Resends (R386) -/

/-- The sender resends from the oldest frame not yet acknowledged; the eighth such resend in a row takes the link
down. -/
def State.seamReplay (s : State) (n : Nat) : State :=
  let l := s.seam n
  if l.unacked = [] then s
  else
    let k := l.resends + 1
    let s := s.scount (pageSeam n + 0x058) 1
    let due := match l.replayAt with | some t => decide (t + 1000000 ≤ s.time) | none => true
    let s := s.setSeam n { l with
      resend := l.unacked, resends := k, replayAt := if due then some s.time else l.replayAt }
    let s := if due then s.raiseSeam n 0x0E02 .corrected false else s
    if 8 ≤ k then s.seamDown n 3 else s

def execReplayTimeout (n : Fin 96) (s : State) : Out :=
  .next (if (s.seam n.val).state = .up then s.seamReplay n.val else s)

/-! ## Receiving frames (R384 to R389) -/

/-- An acknowledgement releases the frames it covers. -/
def Seam.acked (l : Seam) (ack : Nat) : Seam :=
  let k := (ack + 256 - l.lastAck) % 256
  if k = 0 ∨ l.unacked.length < k then l
  else { l with
    lastAck := ack % 256, unacked := l.unacked.drop k, resends := 0
    resend := l.resend.filter fun fr => (l.unacked.drop k).any fun g => g.seq == fr.seq }

/-- What the header of a good frame tells. -/
def Seam.header (l : Seam) (fr : SeamFrame) : Seam :=
  { l.acked fr.ack with
    peerEnabled := fr.enabled
    peerFreed := (List.range 4).foldl (fun m v => m.set (fun _ => 0) v (fr.credits.getD v 0 % 256)) l.peerFreed }

/-- A slot arrives: a head begins a packet, other flits add to it, a tail ends it with the bytes its head says it carries. -/
def Seam.slot (l : Seam) (f : SeamFlit) : Seam :=
  let p : Option Packet :=
    match f.head with
    | some w => some { Packet.ofHead w f.vc with poisoned := f.poisoned }
    | none => (l.partial_.get (fun _ => none) f.vc).map fun p =>
        { p with payload := p.payload ++ f.data, poisoned := p.poisoned || f.poisoned }
  match p with
  | none => l
  | some p =>
    if f.tail then { l with
      partial_ := l.partial_.set (fun _ => none) f.vc none, arrived := l.arrived ++ [{ p with payload := p.payload.take (Packet.saidBytes p) }] }
    else { l with partial_ := l.partial_.set (fun _ => none) f.vc (some p) }

/-- FEC and CRC counts of what has arrived; whether the frame is taken. -/
def State.seamCheck (s : State) (n : Nat) (w : WireFrame) : Bool × State :=
  let page := pageSeam n
  let s := (s.scount (page + 0x060) w.fecCorrected).scount (page + 0x064) w.fecUncorr
  let passes := framePasses w.bytes
  let kind := (SeamFrame.ofBytes w.bytes).kind
  if passes && decide (1 ≤ kind ∧ kind ≤ 4) then (true, s)
  else
    let s := s.scount (page + 0x05C) 1
    (false, if passes || (s.seam n).state != .up then s else s.onSeam n fun l => { l with nakOut := true })

/-- A frame of one kind reaches a link that has signal; a frame of another known kind is another row's. -/
def State.frameArrives (s : State) (n kind : Nat) (w : WireFrame) (k : SeamFrame → State → State) : State :=
  let l := s.seam n
  let fr := SeamFrame.ofBytes w.bytes
  if l.state == .off || l.state == .down then s
  else if framePasses w.bytes && decide (1 ≤ fr.kind ∧ fr.kind ≤ 4) && fr.kind != kind then s
  else
    let r := s.seamCheck n w
    if r.1 then k fr r.2 else r.2

/-- A nak starts a resend, unless one is in progress. -/
def State.seamNak (s : State) (n : Nat) (fr : SeamFrame) : State :=
  if fr.nak && (s.seam n).state == .up && (s.seam n).resend.isEmpty then s.seamReplay n else s

/-- Whether a frame's number leaves frames out; one of the last 64 accepted has been sent again. -/
def Seam.skipped (l : Seam) (seq : Nat) : Bool := decide (64 ≤ (l.rxSeq + 256 - seq) % 256)

/-- DATA_FRAME: accepted in order; else discarded, with nak where frames are missing. -/
def execDataFrame (n : Fin 96) (frame : WireFrame) (s : State) : Out :=
  s.throughRim <| .next <| s.frameArrives n.val 1 frame fun fr s =>
    let l := s.seam n.val
    if l.state ≠ .up then s
    else if fr.seq % 256 ≠ (l.rxSeq + 1) % 256 then
      s.setSeam n.val { l with nakOut := l.nakOut || l.skipped (fr.seq % 256) }
    else
      let l := { l.header fr with rxSeq := fr.seq % 256, nakOut := false }
      let s := (s.setSeam n.val (fr.flits.foldl Seam.slot l)).scount (pageSeam n.val + 0x054) 1
      s.seamNak n.val fr

/-- IDLE_FRAME: acknowledgement, credits and the enabled flag; a READY link whose both sides show enabled is UP. -/
def execIdleFrame (n : Fin 96) (frame : WireFrame) (s : State) : Out :=
  .next <| s.frameArrives n.val 2 frame fun fr s =>
    let l := (s.seam n.val).header fr
    match l.state with
    | .ready => s.setSeam n.val { l with state := if fr.enabled && l.idEnabled && s.seamEnable n.val then .up else .ready }
    | .up => (s.setSeam n.val l).seamNak n.val fr
    | _ => s.setSeam n.val { s.seam n.val with peerEnabled := fr.enabled }

/-- IDENTITY_FRAME: SEAM.PEER records the peer. -/
def execIdentityFrame (n : Fin 96) (frame : WireFrame) (s : State) : Out :=
  .next <| s.frameArrives n.val 3 frame fun fr s =>
    let s := s.setSreg (pageSeam n.val + 0x048)
      (BitVec.ofNat 32 (fr.chip % 2 ^ 12 * 2 ^ 20 + 2 ^ 19 + fr.link % 2 ^ 7))
    s.onSeam n.val fun l => { l with peerSeen := true, idEnabled := fr.enabled, peerEnabled := fr.enabled }

/-- GOING_DOWN_FRAME. -/
def execGoingDownFrame (n : Fin 96) (frame : WireFrame) (s : State) : Out :=
  .next <| s.frameArrives n.val 4 frame fun _ s => if (s.seam n.val).state = .up then s.seamDown n.val 1 else s

/-! ## What arrives from a peer (R395) -/

/-- The flits of a packet leave the receive buffer; packets from before the link last trained free none. -/
def Seam.release (l : Seam) (p : Packet) : Seam :=
  let old := l.old.get (fun _ => 0) p.vc
  if 0 < old then { l with old := l.old.set (fun _ => 0) p.vc (old - 1) }
  else { l with freed := l.freed.set (fun _ => 0) p.vc ((l.freed.get (fun _ => 0) p.vc + 1 + p.flits) % 256) }

/-- The router at which a link injects an arriving packet: entry (tx + ty) mod 4 by the head as it came. -/
def State.seamDoor (s : State) (n : Nat) (p : Packet) : Site := s.seamEntry n ((p.tx + p.ty) % 4)

/-- An arriving packet goes to a local destination, or ends where there is none. -/
def State.seamDeliver (s : State) (n : Nat) (p : Packet) (d : Option Dest) : State :=
  let x := s.seamDoor n p
  let p := { p with ring := none }
  match d with
  | some d => s.inject x.key (p.toward d)
  | none => s.endPacket x p .noRoute

/-- The site a link's translation cache holds for a local endpoint. -/
def Seam.cached (l : Seam) (e : Nat) : Option Site :=
  match l.cache.get (fun _ => 0) e with
  | 0 => none
  | k + 1 => some (Site.ofKey k)

/-- A translation is kept: when all 1,024 entries are in use, which one it replaces is open. -/
def Seam.cacheAdd (l : Seam) (k e : Nat) (x : Site) : Seam :=
  let c : SMap Nat := if 1024 ≤ l.cache.length then l.cache.eraseIdx (Config.freeValue k 0 % l.cache.length) else l.cache
  { l with cache := SMap.set (fun _ => 0) c e (x.key + 1) }

/-- Whether a packet is the next of its virtual channel in the receive buffer. -/
def Seam.nextIn (l : Seam) (p : Packet) : Bool :=
  (l.arrived.find? fun q => q.vc == p.vc) == some p && !l.waiting.any fun q => q.vc == p.vc

/-- SEAM_INGRESS. -/
def execSeamIngress (n : Fin 96) (p : Packet) (s : State) : Out :=
  let l := s.seam n.val
  if !l.nextIn p then .next s
  else if s.rimLost then .fault .galleryRailLost
  else
    let out (s : State) : State := s.onSeam n.val fun l => { l with arrived := l.arrived.erase p }.release p
    let x := s.seamDoor n.val p
    if eidChip p.dst ≠ s.chip then
      .next ((out s).seamTransit n.val x { p with ring := none })
    else if eidIsCore p.dst then
      match l.cached (eidLocal p.dst) with
      | some y => .next ((out s).seamDeliver n.val p (some (Dest.of y .local_ false)))
      | none =>
        .next (s.setSeam n.val { l with arrived := l.arrived.erase p, waiting := l.waiting ++ [p] })
    else .next ((out s).seamDeliver n.val p (s.resolve x p.src p.dst))

/-- TRANSLATION_FILL: the foreman of the field of the link's first entry router answers. -/
def execTranslationFill (n : Fin 96) (p : Packet) (s : State) : Out :=
  let l := s.seam n.val
  if !l.waiting.contains p || !(s.field (seamField n.val)).foremanUp then .next s
  else
    let v := s.fresh
    let s := v.2.setSeam n.val ({ l with waiting := l.waiting.erase p }.release p)
    match s.siteOf (eidLocal p.dst) with
    | some y =>
      let s := s.onSeam n.val fun l => l.cacheAdd v.1 (eidLocal p.dst) y
      .next (s.seamDeliver n.val p (some (Dest.of y .local_ false)))
    | none => .next (s.seamDeliver n.val p none)

/-- OCCUPANCY_PUBLISH: sixteenths of the replay buffer and the egress queue, whose size no rule gives. -/
def execOccupancyPublish (n : Fin 96) (s : State) : Out :=
  let l := s.seam n.val
  let v := s.fresh
  let k := if l.unacked = [] ∧ l.egress = [] then 0 else Config.freeValue v.1 0 % 16
  .next (v.2.setSeam n.val { l with occupancy := k })

/-! ## Chip numbers and the chip route table (R390 to R392) -/

/-- A write of SEAM.CHIP, refused while any link is not OFF or DOWN. -/
def State.chipWrite (s : State) (v : Nat) : State :=
  if (List.range 96).all fun n => (s.seam n).state == .off || (s.seam n).state == .down then
    let s := if bit v 31 then s.setSregBits seamChip 31 31 0 else s
    s.setSregBits seamChip 11 0 (bits v 11 0)
  else s.setSflag seamChip 31

/-- CRT_DATA_WRITE: the entry at SEAM.CRT_INDEX is replaced whole; its reserved bits hold zero. -/
def execCrtDataWrite (w : Requester) (v : Word) (s : State) : Out :=
  .next <| s.pagePut w (pageSeam 0 + 0x088) fun s => s.seamKeeper w fun s => { s with
    crt := s.crt.set (fun _ => 0) (s.sregBits (pageSeam 0 + 0x084) 11 0) (v &&& 0x9F9F9F9F#32) }

end Sys2Proof.Machine
end

