-- ==== Sys2Proof/Machine/Reset.lean ====
section
/-! DEFINITION. The resets of cores and fields (R282, R373, R477, R485 to R488), and what every power-down of a field
shares. -/

namespace Sys2Proof.Machine

/-! ## One core (R486) -/

/-- The address book after a core reset: entries that are not pinned are invalid (R352). -/
def Core.resetBook (c : Core) : SMap BookEntry :=
  c.book.mapVals (fun _ => BookEntry.reset) fun _ (e : BookEntry) =>
    if e.valid && !e.pinned then { e with hi := e.hi &&& 0x7FFFFFFF#32 } else e

/-- The core's state as a core reset leaves it: active banks, ROUTER.EID and pinned book entries are kept, banks that
were closing or parked wake, and the epoch of every tag in use moves on, so that late responses are discarded. -/
def Core.afterReset (c : Core) (cycles clock : Nat) : Core :=
  let w := c.wakeBanks clock
  { Core.reset with
    sram := w.sram, ecc := w.ecc, banks := w.banks, wakeAt := w.wakeAt, book := c.resetBook
    bookUse := c.bookUse.filter fun i => (c.bookEntry i).valid && (c.bookEntry i).pinned
    tagEpoch := (List.range 64).foldl (fun m i =>
      if (c.tag i).isSome then m.set (fun _ => 0) i ((c.epoch i + 1) % 16) else m) c.tagEpoch
    eidLocal := c.eidLocal, cycles := cycles, conflictFrom := clock, scrubAt := clock }

/-- The notices of the consumers that a reset unbinds (R261). -/
def State.unbindNotices (s : State) (x : Site) : List Packet :=
  ((List.range 32).filter fun e => ((s.core x).chute e).role = .consumer).map fun e =>
    let ch := (s.core x).chute e
    s.chuteControl x e 6 ch.peer.toNat ch.peerEp 0 false false

/-- A core reset (R486): it unbinds every endpoint, and the notices leave the core as the reset leaves it. -/
def State.coreReset (s : State) (x : Site) : State :=
  let fl := s.field x.field
  let ps := s.unbindNotices x
  let s := (stopSpmv s x).onCore x fun c => c.afterReset fl.cycle (fl.clk / 20)
  ps.foldl (fun s p => s.send x p) s

/-- STRETCH_CYCLES takes what a stretch has lasted so far. -/
def State.stretchFlush (s : State) (f : Nat) : State :=
  let fl := s.field f
  if !fl.stretched then s
  else
    let n := (fl.clk - fl.stretchFrom) / 20
    (s.setField f { fl with stretchFrom := fl.stretchFrom + 20 * n }).scount (pageFieldpwr f + 0x05C) n
/-! ## The cores of a field -/

/-- Sites of a field in states that `f` picks. -/
def State.siteCount (s : State) (f : Nat) (pick : Nat → Bool) : Nat :=
  ((fieldSites f).filter fun x => pick (s.siteCode x)).length
/-- Gallery routers of a field that are HOLE, or that a rectangle of the route map includes (R23, R36, R341). -/
def State.galleryHoles (s : State) (f : Nat) : Nat :=
  ((fieldSites f).filter fun x =>
    x.gallery && (s.siteCode x == 5 || s.fenced.contains x.key)).length

/-- Every core of a field is reset at once. A core that the state does not list is already as after a reset. -/
def State.resetCores (s : State) (f : Nat) : State :=
  let s := (s.coreSites f).foldl (fun s x => s.coreReset x) s
  let fl := s.field f
  (s.setField f { fl with base := fl.cycle, sched := .idle }).setSregBits (rotCtrl f) 0 0 0

/-- Every core of a field as it comes up from 0 V: reset, its banks waking (R282). -/
def State.wakeCores (s : State) (f : Nat) : State :=
  let fl := s.field f
  let s := s.setField f { fl with base := fl.cycle }
  (fieldSites f).foldl (fun s x => s.onCore x fun c =>
    { Core.reset with
      eidLocal := c.eidLocal, book := c.resetBook
      banks := (List.range 16).map fun b => (b, Bank.waking)
      wakeAt := ((List.range 16).filter fun _ => fl.clk / 20 != 0).map fun b => (b, fl.clk / 20)
      conflictFrom := fl.clk / 20, scrubAt := fl.clk / 20 }) s

/-- The interior of a field loses VCORE: its cores, its schedule and its foreman are gone. -/
def State.fieldDark (s : State) (f : Nat) : State :=
  let s := (((s.switchFlush f).holdFlush f).stretchFlush f).mapCores f fun _ c => { Core.reset with eidLocal := c.eidLocal, book := c.resetBook }
  (s.onField f fun fl => { fl with
    vcoreOn := false, isolated := true, pllLocked := false, foremanUp := false, sched := .idle, frozen := false
    gateFrozen := false, holdLog := [], drain := none, droopIn := fl.droopIn || fl.stretched, stretched := false, stepUp := none, stepDue := none, stepReady := false
    unanswered := [], misses := [], echoes := []
    stillSince := fl.clk, coreAcc := none, onGalClk := true }).setSregBits (rotCtrl f) 0 0 0

/-- Local endpoints of a field's cores return to their defaults (R349). -/
def State.defaultEids (s : State) (f : Nat) : State :=
  (s.mapCores f fun _ c => { c with eidLocal := none }).flushCaches

/-- Registers of a page return to their Reset values. -/
def State.resetPage (s : State) (page : Nat) : State :=
  { s with regs := s.regs.filter fun e => e.1 / 0x1000 != page / 0x1000 }

/-! ## A whole field (R485) -/

/-- A field reset up to the steps of bring-up that follow it (R465): its foreman, its cores and its registers. Packets in its
routers are truncated (R343). -/
def State.fieldReset (s : State) (f : Nat) : State :=
  let s := if (s.field f).vcoreOn then
      ((s.strandBy fun k => s.routerOn (Site.ofKey k) && (Site.ofKey k).field != f).stretchFlush f).resetCores f
    else s
  let s := (((s.defaultEids f).resetPage (pageFieldctl f)).resetPage (pageCanary f)).resetPage (pageTallydbg f)
  s.onField f fun fl => { fl with
    bringup := .testing, unreachable := false, testMode := max 1 fl.testMode, resetDue := false, foremanUp := false, foremanTallies := []
    foremanMem := [], beatNo := 0, unanswered := [], misses := [], echoes := [], residues := [], eccWords := []
    step := 0, stepUp := none, stepDue := none, envelope := ⟨0, 1⟩, duty := ⟨0, 1⟩, gate := ⟨1, 1⟩, droopIn := fl.droopIn || fl.stretched, stretched := false
    sched := .idle, rotStep := 0, period := 1, frames := 0, frame := 0, beat := 0, frozen := false, gateFrozen := false
    holdLog := [], stepReady := false, drain := none, stillSince := fl.clk, longHold := false, coreAcc := none, tallyClr := 0, testStatus := 0
    stitchFailed := 0, power := if fl.power = .stepping then .run else fl.power }

/-! ## Reaching a field's cores from its own page (R487) -/

/-- The status of a request to reset a core. -/
def State.coreResetStatus (s : State) (f x y : Nat) : Status :=
  match Site.at? x y with
  | some q =>
    if q.field ≠ f || q.foremanBlock then .denied
    else if s.siteCode q = 4 || s.siteCode q = 5 then .denied
    else if s.jobUses f && s.liveJob.isSome then .busy
    else .ok
  | none => .denied

/-- A write of FIELDCTL.CORE_RESET. A request made while a wider reset runs is discarded (R488). -/
def State.coreResetWrite (s : State) (f v : Nat) : State :=
  let r := pageFieldctl f + 0x0A8
  let s := s.setSregBits r 28 10 (bits v 28 10)
  if !bit v 31 || (s.field f).bringup == .testing || s.bringing then s
  else
    let st := s.coreResetStatus f (bits v 28 19) (bits v 18 10)
    let s := s.setSregBits r 7 0 st.code
    match st, Site.at? (bits v 28 19) (bits v 18 10) with
    | .ok, some q => s.coreReset q
    | _, _ => s

/-- CORE_RESET. -/
def execCoreReset (w : Requester) (f : FieldNo) (v : Word) (s : State) : Out :=
  .next (s.fieldPut w f.val (pageFieldctl f.val) fun s => s.coreResetWrite f.val v.toNat)

/-! ## The error ring (R492) -/

/-- A write of ERRLOG.CLEAR with go empties the ring. -/
def State.errlogClear (s : State) (f : Nat) : State :=
  s.onField f fun fl => { fl with errlog := [], errNext := 0 }

/-- ERRLOG_CLEAR. The page is served while the field is off (R536). -/
def execErrlogClear (w : Requester) (f : FieldNo) (v : Word) (s : State) : Out :=
  .next (s.pagePut w (pageErrlog f.val) fun s => if bit v.toNat 0 then s.errlogClear f.val else s)

end Sys2Proof.Machine
end

