-- ==== Sys2Proof/Machine/Power.lean ====
section
/-! DEFINITION. Steps and voltages (R430 to R433), droop (R437), the envelope and the slew gate (R438 to R441), the
environment and the capping loop (R442 to R445), and the throttle ledger (R436, R446). -/

namespace Sys2Proof.Machine

/-! ## The step table (R431) -/

/-- Nominal VCORE in mV by step. -/
def nominalMv (step : Nat) : Nat :=
  [620, 630, 640, 650, 660, 670, 680, 690, 705, 720, 735, 750, 765, 780, 800, 820].getD step 820
/-- Relative dynamic power by step, in thousandths. -/
def relPower (step : Nat) : Nat :=
  [229, 260, 292, 327, 363, 401, 440, 481, 532, 586, 643, 703, 766, 832, 914, 1000].getD step 1000
def State.voltOffset (s : State) (f : Nat) : Int := s.flash.voltOffset.get (fun _ => 0) f
/-- The set point of a step: the nominal voltage with the fused offset, clamped. -/
def State.setPoint (s : State) (f step : Nat) : Nat :=
  (max 600 (min 850 ((nominalMv step : Int) + s.voltOffset f))).toNat

/-! ## Voltage writes (R432, R547) -/

/-- A voltage write for a field's rail waits; it takes the place of one still waiting. -/
def State.avsPut (s : State) (f mv : Nat) : State :=
  s.onPithead fun p => { p with avsQueue := (p.avsQueue.filter fun e => e.1 != f) ++ [(f, mv)] }
def State.avsDrop (s : State) (f : Nat) : State :=
  s.onPithead fun p => { p with avsQueue := p.avsQueue.filter fun e => e.1 != f }
def State.instanceFree (s : State) (f : Nat) : Nat := s.pithead.avsFree.get (fun _ => 0) (f / 4)

/-- The lowest field among waiting writes that `ok` admits. -/
def lowestWrite (q : List (Nat × Nat)) (ok : Nat → Bool) : Option (Nat × Nat) :=
  (q.filter fun e => ok e.1).foldl (fun best e =>
    match best with
    | some b => if e.1 < b.1 then some e else some b
    | none => some e) none

/-- A write starts: its frame holds the instance for 0.64 µs. -/
def State.avsStart (s : State) (f mv : Nat) : State :=
  let s := (s.avsDrop f).onPithead fun p => { p with avsFree := p.avsFree.set (fun _ => 0) (f / 4) (s.time + 640) }
  s.onField f fun fl => { fl with
    setMv := mv, stepUp := fl.stepUp.map fun u => (u.1, some (u.2.getD s.time)) }

/-- A field's rail is written as soon as its instance is free. -/
def State.avsNow (s : State) (f mv : Nat) : State := (s.elapseTo (s.instanceFree f)).avsStart f mv

/-- AVSBUS_WRITE: the next waiting write starts, once an instance is free. -/
def execAvsbusWrite (s : State) : Out :=
  let q := s.pithead.avsQueue
  match lowestWrite q fun f => decide (s.instanceFree f ≤ s.time) with
  | some e => .next (s.avsStart e.1 e.2)
  | none =>
    match q.map fun e => s.instanceFree e.1 with
    | [] => .next s
    | t :: ts =>
      let s := s.elapseTo (ts.foldl min t)
      .next (match lowestWrite q fun f => decide (s.instanceFree f ≤ s.time) with
        | some e => s.avsStart e.1 e.2
        | none => s)

/-! ## Step changes (R432, R433, R437) -/

/-- An entry of a field's power controller (R459). -/
def State.raisePower (s : State) (f code : Nat) (sev : Severity) (unit : Nat) : State :=
  s.raise f (.space (pageFieldpwr f)) ⟨code, sev, 2, fieldWord f unit⟩

/-- A field glides down, its voltage following (R432). -/
def State.glideDown (s : State) (f new : Nat) : State :=
  let fl := s.field f
  ((s.setField f { fl with
    step := new, stepUp := none, stepDue := none, stepReady := false, power := if fl.power = .parking then .parking else .run }).scount
      (pageFieldpwr f + 0x060) (decide (fl.step ≠ new)).toNat).avsPut f (s.setPoint f new)
/-- A field glides up to a step whose voltage is confirmed. -/
def State.glideUp (s : State) (f new : Nat) : State :=
  (s.onField f fun fl => { fl with step := new, stepUp := none, stepDue := none, stepReady := false, power := .run }).scount
    (pageFieldpwr f + 0x060) 1

/-- The field's step changes toward a new one: down at once, its voltage following; up once the voltage is confirmed.
A change that falls due during a stretch waits for its end. -/
def State.stepTo (s : State) (f new : Nat) : State :=
  let fl := s.field f
  if new = fl.step then s
  else if fl.stretched then s.setField f { fl with stepDue := some new, stepReady := false }
  else if new < fl.step then s.glideDown f new
  else if fl.stepUp.isSome then s
  else (s.setField f { fl with stepUp := some (new, none), power := .stepping }).avsPut f (s.setPoint f new)

/-- STEP_UP_CONFIRM: the sensors read the new set point − 10 mV or more, within 1.8 µs of the write's start. During a
stretch the glide waits (R437). -/
def execStepUpConfirm (f : FieldNo) (s : State) : Out :=
  let fl := s.field f.val
  match fl.power, fl.stepUp with
  | .stepping, some (new, some t) =>
    .next (if t + 1800 < s.time then s
      else if fl.stretched then s.setField f.val { fl with stepUp := none, stepDue := some new, stepReady := true }
      else s.glideUp f.val new)
  | _, _ => .next s

/-- STEP_FAULT: 1.8 µs have passed unconfirmed; the old set point is written back. -/
def execStepFault (f : FieldNo) (s : State) : Out :=
  match (s.field f.val).power, (s.field f.val).stepUp with
  | .stepping, some (_, some t) =>
    let s := s.elapseTo (t + 1800)
    let fl := s.field f.val
    let s := (s.setField f.val { fl with stepUp := none, power := .run }).avsPut f.val (s.setPoint f.val fl.step)
    .next ((s.scount (pageFieldpwr f.val + 0x064) 1).raisePower f.val 0x1001 .contained 0)
  | _, _ => .next s

/-- The set point that droop sensors compare against: during a step change the lower of the old and the new (R437). -/
def State.droopRef (s : State) (f : Nat) : Nat := min (s.setPoint f (s.field f).step) (s.field f).setMv
/-- DROOP.threshold_mv as it acts: values below 20 act as 20 (R455). -/
def State.droopMv (s : State) (f : Nat) : Nat := max 20 (s.sregBits (pageFieldpwr f + 0x054) 7 0)
/-- A field's interior becomes a route hole, or is one no more; a route update in progress keeps it so (R342). -/
def State.closeInterior (s : State) (f : Nat) : State :=
  let add (l : List Hole) : List Hole := if l.contains (interiorHole f) then l else interiorHole f :: l
  { s with holes := add s.holes, routePending := s.routePending.map add }
def State.openInterior (s : State) (f : Nat) : State :=
  let cut (l : List Hole) : List Hole := l.filter (· != interiorHole f)
  { s with holes := cut s.holes, routePending := s.routePending.map cut }

/-- Step 2 of a park starts: the gallery closes the interior (R347, R448). -/
def State.parkRouting (s : State) (f : Nat) : State :=
  (s.onField f fun fl => { fl with parkAt := fl.clk }).closeInterior f
/-- A stretch ends: a step change that fell due during it goes on, and a park with it. -/
def State.unstretch (s : State) (f : Nat) : State :=
  let s := s.stretchFlush f
  let fl := s.field f
  let s := s.setField f { fl with stretched := false, stepDue := none, stepReady := false, droopIn := true }
  match fl.stepDue with
  | some new =>
    if fl.power = .parking then (s.glideDown f new).parkRouting f
    else if fl.stepReady then s.glideUp f new else s.stepTo f new
  | none => s

/-- DROOP_STRETCH: a sensor reads `mv`, more than the threshold below the set point. -/
def execDroopStretch (f : FieldNo) (mv : Nat) (s : State) : Out :=
  let fl := s.field f.val
  if !fl.clocked || fl.stretched || decide (s.droopRef f.val ≤ mv + s.droopMv f.val) then .next s
  else .next ((s.setField f.val { fl with stretched := true, stretchAt := fl.clk, stretchFrom := fl.clk, droopIn := true }).scount
    (pageFieldpwr f.val + 0x058) 1)

/-- STRETCH_END: for 64 stretched cycles every sensor has read within threshold − 10 mV of the set point, `mv` the lowest
reading. -/
def execStretchEnd (f : FieldNo) (mv : Nat) (s : State) : Out :=
  if !(s.field f.val).stretched || decide (mv + (s.droopMv f.val - 10) < s.droopRef f.val) then .next s
  else .next ((s.elapse ((s.field f.val).until ((s.field f.val).stretchAt + 20 * 64))).unstretch f.val)

/-! ## The envelope (R438) -/

namespace Frac

/-- Lowest terms; a zero denominator does not arise. -/
def norm (n d : Nat) : Frac := let g := Nat.gcd n d; if g = 0 then ⟨0, 1⟩ else ⟨n / g, d / g⟩
def le (a b : Frac) : Bool := decide (a.n * b.d ≤ b.n * a.d)
def add (a b : Frac) : Frac := norm (a.n * b.d + b.n * a.d) (a.d * b.d)
/-- Difference, 0 where it would be negative. -/
def sub (a b : Frac) : Frac := norm (a.n * b.d - b.n * a.d) (a.d * b.d)
def mul (a b : Frac) : Frac := norm (a.n * b.n) (a.d * b.d)
/-- Quotient by a fraction that is not zero. -/
def quo (a b : Frac) : Frac := norm (a.n * b.d) (a.d * b.n)
def max_ (a b : Frac) : Frac := if a.le b then b else a
def min_ (a b : Frac) : Frac := if a.le b then a else b

end Frac

/-- Percent of the ENABLED and NARROW cores whose array has a command ready, running or frozen. -/
def State.arrayDemand (s : State) (f : Nat) : Frac :=
  let n := s.siteCount f fun k => decide (k ≤ 2)
  let busy := ((s.coreSites f).filter fun x => s.coreOn x && decide (s.siteCode x ≤ 2) && (s.core x).array.busy).length
  if n = 0 then ⟨0, 1⟩ else Frac.norm (100 * busy) n

/-- The floor and the step of the envelope; from 5 µs after a stop 0 and 2.5 % per µs (R452). -/
def State.envFloor (s : State) (f : Nat) : Frac :=
  let r := pageFieldpwr f + 0x070
  if !s.stopHolds && s.sregBit r 31 && s.jobUses f && s.liveJob.any (·.running) then ⟨min (s.sregBits r 6 0) 100, 1⟩
  else ⟨0, 1⟩
def State.envRate (s : State) (f : Nat) : Frac :=
  if s.stopHolds then ⟨1, 4⟩ else Frac.norm 10 (max 1 (s.sregBits (pageFieldpwr f + 0x074) 7 0))

/-- The procedure of R438, from the demand, the floor, the rate per tick and whether the current rose by more than 40 A
over the last microsecond. -/
def Field.envelopeTick (fl : Field) (ad floor rate : Frac) (rise : Bool) : Field :=
  let target := ad.max_ floor
  let e := if target.le fl.envelope then target.max_ (fl.envelope.sub rate)
    else target.min_ ((fl.envelope.max_ floor).add rate)
  let least : Frac := ⟨1, 64⟩
  let g := if rise then (fl.gate.mul ⟨3, 4⟩).max_ least else if ad.le e then ⟨1, 1⟩ else (e.quo ad).max_ least
  let work := g.mul ad
  let d := if Frac.le ⟨100, 1⟩ work then ⟨0, 1⟩ else ((e.sub work).quo (Frac.sub ⟨100, 1⟩ work)).mul ⟨100, 1⟩
  { fl with envelope := e, gate := g, duty := d }

/-- ENVELOPE_UPDATE. -/
def execEnvelopeUpdate (f : FieldNo) (rise : Bool) (s : State) : Out :=
  let fl := s.field f.val
  if !fl.vcoreOn || fl.power == .parked || fl.power == .stopped then .next s
  else
    let fl := fl.envelopeTick (s.arrayDemand f.val) (s.envFloor f.val) (s.envRate f.val) rise
    .next (s.setField f.val { fl with slewIn := fl.slewIn || fl.gateFreezes })

/-! ## The environment (R442) -/

/-- ENV_STAMP: the staged values apply together. -/
def execEnvStamp (w : Requester) (_v : Word) (s : State) : Out :=
  .next <| s.keeperPut w pageEnv fun s => s.onPithead fun p =>
    { p with applied := p.staged, stampTime := s.time, stamped := true, stale := false }

/-- An entry of the pithead, kept by field 0. -/
def State.raiseModule (s : State) (page code : Nat) (sev : Severity) : State :=
  s.raise 0 (.space page) ⟨code, sev, 3, fieldWord 0 0⟩

/-- ENV_STALE: more than 10 s have passed since the latest stamp. -/
def execEnvStale (s : State) : Out :=
  if s.pithead.stale then .next s
  else
    let s := s.elapseTo (s.pithead.stampTime + 10000000001)
    .next ((s.onPithead fun p => { p with stale := true }).raiseModule pageEnv 0x1002 .corrected)

/-! ## The capping loop (R443, R444) -/

/-- Thermal resistance in hundredths of °C per kW, from the flow in 0.1 L/min. -/
def theta (flow : Nat) : Nat :=
  if flow ≤ 200 then 8000
  else if flow ≤ 300 then 8000 - 14 * (flow - 200)
  else if flow ≤ 400 then 6600 - 8 * (flow - 300)
  else if flow ≤ 600 then 5800 - 4 * (flow - 400)
  else if flow ≤ 800 then 5000 - 2 * (flow - 600)
  else 4600

/-- Whether the predicted junction is at or below a limit in °C, with every term multiplied out: inlet in 0.1 °C, module
and field power in W. -/
def coolEnough (inlet : Int) (flow total watts step new : Nat) (limit : Int) : Bool :=
  let r0 : Int := relPower step
  let rs : Int := relPower new
  decide (10000 * inlet * flow * r0 + 14350 * total * r0 + watts * rs * theta flow * flow ≤
    limit * 100000 * flow * r0)

/-- The highest step the coolant model allows. -/
def coolantStep (inlet : Int) (flow total watts step : Nat) (limit : Int) : Nat :=
  if flow < 100 ∨ 600 < inlet then 0
  else (List.range 16).foldl (fun best k => if coolEnough inlet flow total watts step k limit then k else best) 0

/-- A field in the loop: its step, power, ceiling and reason. -/
structure Capped where
  f : Nat
  step : Nat
  watts : Nat
  ceil : Nat
  why : Nat
deriving DecidableEq, Repr

def Readings.of (m : Readings) (f : Nat) : FieldReading := m.fields.getD f ⟨0, 0, 0, 0⟩
def Readings.total (m : Readings) : Nat := (m.fields.map (·.watts)).foldl (· + ·) m.other

/-- A running field (R444). -/
def Field.runs (fl : Field) : Bool := fl.vcoreOn && (fl.power == .run || fl.power == .stepping)

/-- The first part of the loop for one field. -/
def State.ceilingOf (s : State) (m : Readings) (f : Nat) : Capped :=
  let fl := s.field f
  let r := Readings.of m f
  let c := min (s.sregBits (pageFieldpwr f + 0x044) 3 0) (s.sregBits (pageModpwr + 0x044) 3 0)
  let why := if c < 15 then 2 else 0
  let th : Int :=
    if r.failed = 0xFFFF#16 then 0
    else if 1050 ≤ r.temp then (fl.step : Int) - 2
    else if 1030 ≤ r.temp then (fl.step : Int) - 1
    else if 1000 ≤ r.temp then (fl.step : Int)
    else (fl.step : Int) + 1
  let (c, why) := if th < c then (th.toNat, 3) else (c, why)
  let p := s.pithead
  let inlet : Int := if p.stale then 450 else sext 16 p.applied.inlet
  let flow := if p.stale then 200 else p.applied.flow
  let cm := coolantStep inlet flow (Readings.total m) r.watts fl.step (105 - (s.sregBits (pageModpwr + 0x048) 7 0 : Int))
  let (c, why) := if cm < c then (cm, if p.stale then 9 else 4) else (c, why)
  ⟨f, fl.step, r.watts, c, why⟩

/-- MODPWR.CAP and ENV.BUDGET as they act (R445). -/
def clampWatts (w : Nat) : Nat := max 2000 (min 25000 w)
def State.budget (s : State) : Nat :=
  min (clampWatts (s.sregBits (pageModpwr + 0x040) 15 0)) (clampWatts s.pithead.applied.budget)

/-- Whether the predicted power of the running fields exceeds a budget. -/
def overBudget (l : List Capped) (budget : Int) : Bool :=
  let d : Nat := (l.map fun c => relPower c.step).foldl (· * ·) 1
  let sum : Nat := (l.map fun c => c.watts * relPower c.ceil * (d / relPower c.step)).foldl (· + ·) 0
  decide (budget * d < sum)
/-- The running field with the highest ceiling, the lowest number on a tie. -/
def highest (l : List Capped) : Option Capped :=
  l.foldl (fun best c =>
    match best with
    | some b => if b.ceil < c.ceil then some c else some b
    | none => some c) none
/-- Lowers ceilings one by one to meet the budget; the fuel is the sum of all ceilings. -/
def lowerCeilings : Nat → Int → List Capped → List Capped
  | 0, _, l => l
  | n + 1, budget, l =>
    match highest l with
    | some h =>
      if overBudget l budget && decide (0 < h.ceil) then
        lowerCeilings n budget (l.map fun c => if c.f = h.f then { c with ceil := c.ceil - 1, why := 1 } else c)
      else l
    | none => l

/-- What the loop stores of a field's readings (R455), and the sensors it reports (R444). -/
def State.noteReading (s : State) (m : Readings) (f : Nat) : State :=
  let r := Readings.of m f
  let fl := s.field f
  let count := ((List.range 16).filter fun i => r.failed.getLsbD i).length
  let s := s.setSreg (pageFieldpwr f + 0x04C) (BitVec.ofNat 32 (wrap 16 r.temp * 2 ^ 16 + count))
  let s := s.setSreg (pageFieldpwr f + 0x050) (BitVec.ofNat 32 (min r.amps 0xFFFF * 2 ^ 16 + min r.watts 0xFFFF))
  let new := (List.range 16).filter fun i => r.failed.getLsbD i && !bit fl.failedSensors i
  let s := s.setField f { fl with failedSensors := fl.failedSensors ||| r.failed.toNat }
  new.foldl (fun s i => s.raisePower f 0x1003 .corrected i) s

/-- The loop's outcome for one running field: its step moves one up, or down to the ceiling. -/
def State.capField (s : State) (c : Capped) : State :=
  let s := s.onField c.f fun fl => { fl with
    ceiling := c.ceil, loopReason := c.why, heldReason := if c.ceil ≤ fl.step then c.why else fl.heldReason }
  s.stepTo c.f (if c.ceil < c.step then c.ceil else if c.step < c.ceil then c.step + 1 else c.step)

/-- CAPPING_LOOP. A stop overrides it (R451). -/
def execCappingLoop (m : Readings) (s : State) : Out :=
  if s.pithead.inReset then .next s
  else
    let s := (List.range 48).foldl (fun s f => s.noteReading m f) s
    let s := s.setSreg (pageModpwr + 0x05C)
      (BitVec.ofNat 32 (min m.other 0xFFFF * 2 ^ 16 + min (Readings.total m) 0xFFFF))
    if s.flash.stopped then .next s
    else
      let run := (List.range 48).filter fun f => (s.field f).runs
      let budget : Int := (s.budget : Int) - m.other
      let l := run.map fun f => s.ceilingOf m f
      let l := lowerCeilings ((l.map (·.ceil)).foldl (· + ·) 0) budget l
      let unmet := overBudget l budget
      let s := s.onPithead fun p => { p with capUnmet := unmet }
      let s := if unmet then s.raiseModule pageModpwr 0x1006 .corrected else s
      .next (l.foldl (fun s c => s.capField c) s)

/-! ## The ledger (R436, R446) -/

/-- The reason the microsecond that ends is charged to. -/
def State.throttleReason (s : State) (f : Nat) : Nat :=
  let fl := s.field f
  if s.flash.stopped then 8
  else if fl.power = .parking ∨ fl.power = .parked ∨ fl.power = .unparking then 7
  else if fl.droopIn || fl.stretched then 5
  else if fl.slewIn || fl.gateFreezes then 6
  else if fl.step < 15 then (if fl.step < fl.ceiling then fl.heldReason else fl.loopReason)
  else 0

/-- Whether the microsecond counts in WAIT_PACE: at any time in it the field was frozen by hold, or most of its cores blocked. -/
def State.waitsPace (s : State) (f : Nat) : Bool :=
  let fl := s.field f
  fl.vcoreOn && ((fl.frozen && !fl.gateFrozen) || fl.holdIn || fl.blockedIn || s.mostBlocked f)

/-- A counter of 48 bits that stops at its maximum. -/
def sat48 (n : Nat) : Nat := min (n + 1) (2 ^ 48 - 1)

/-- LEDGER_TICK. -/
def execLedgerTick (f : FieldNo) (s : State) : Out :=
  let s := s.holdFlush f.val
  let fl := s.field f.val
  let r := s.throttleReason f.val
  let now := s.now f.val
  let wait := s.waitsPace f.val
  .next (s.setField f.val { fl with
    ledger := fl.ledger.set (fun _ => 0) r (sat48 (fl.ledger.get (fun _ => 0) r))
    ledgerLast := if fl.lastReason = some r then fl.ledgerLast else fl.ledgerLast.set (fun _ => 0) r now
    lastReason := some r
    waitPace := if wait then sat48 fl.waitPace else fl.waitPace
    waitLast := if wait && !fl.waiting then now else fl.waitLast
    waiting := wait, droopIn := false, slewIn := false, holdIn := false, blockedIn := false })

/-- THROTTLE_CLEAR. The page is served while the field is off (R536). -/
def execThrottleClear (w : Requester) (f : FieldNo) (v : Word) (s : State) : Out :=
  .next <| s.pagePut w (pageThrottle f.val) fun s =>
    if bit v.toNat 0 then s.onField f.val fun fl => { fl with ledger := [], ledgerLast := [], waitPace := 0, waitLast := 0 }
    else s

end Sys2Proof.Machine
end

