-- ==== Sys2Proof/Machine/Park.lean ====
section
/-! DEFINITION. Parking and unparking fields (R347, R447 to R450), the stop (R451 to R454), and fields that lose their
clock or their rail (R430, R548, R549). -/

namespace Sys2Proof.Machine

/-! ## Interiors (R347) -/

/-- Whether a router lies in a field's interior. -/
def inInterior (f : Nat) (k : Nat) : Bool := (interiorHole f).has (Site.ofKey k).x.val (Site.ofKey k).y.val
/-- Whether flits stand inside a field's interior. -/
def State.interiorHeld (s : State) (f : Nat) : Bool := s.net.any fun q => q.broken fun k => !inInterior f k
/-- What is left inside a field's interior is truncated (R343, R558); what had reached its cores is gone. -/
def State.emptyInterior (s : State) (f : Nat) : State :=
  let s := s.strandBy fun k => !inInterior f k
  { s with net := s.net.filter fun q => !inInterior f q.at_ }
/-- The interior of a field is emptied; where flits were left, that is reported (R347). -/
def State.clearInterior (s : State) (f : Nat) : State :=
  let t := s.emptyInterior f
  if s.interiorHeld f then t.raise f (.space (pageRoute f)) ⟨0x0C07, .contained, 2, fieldWord f 0⟩ else t

/-! ## Park (R447, R448) -/

/-- The status of a park or unpark request. -/
def State.parkStatus (s : State) (f : Nat) (unpark force : Bool) : Status :=
  let fl := s.field f
  if 48 ≤ f ∨ fl.bringup = .lost then .denied
  else if unpark && (s.flash.stopped || bit s.pithead.railFault f) then .denied
  else if !unpark && s.galleryHoles f ≠ 0 then .denied
  else if fl.power = .parking ∨ fl.power = .unparking then .busy
  else if !force && s.jobUses f && s.liveJob.isSome then .busy
  else .ok

/-- The park sequence starts: envelope 0 and the glide to step 0 (step 1), then the gallery closes the interior (step 2). In a
stretch the glide, and with it step 2, waits for the stretch's end (R437). -/
def State.parkStart (s : State) (f : Nat) : State :=
  let fl := s.field f
  if fl.power = .parked ∨ fl.power = .parking ∨ fl.power = .unparking then s
  else
    let s := s.onField f fun fl => { fl with
      stepUp := none, stepDue := none, stepReady := false, envelope := ⟨0, 1⟩, power := .parking }
    if fl.stretched then s.onField f fun fl => { fl with stepDue := some 0 } else (s.glideDown f 0).parkRouting f

/-- The unpark sequence starts: VCORE is turned on at the step-0 set point. -/
def State.unparkStart (s : State) (f : Nat) : State :=
  if (s.field f).power = .parked then
    (s.onField f fun fl => { fl with power := .unparking, stepUp := some (0, none) }).avsPut f (s.setPoint f 0)
  else s

/-- A forced park of a field in use ends its job first (R447). -/
def State.forcedPark (s : State) (f : Nat) : State :=
  let s := s.raisePower f 0x1005 .contained 0
  let s := s.onPithead fun p => { p with job := p.job.map fun j => { j with thenPark := some f } }
  s.endJob (.aborted 0x1005)

/-- A write of MODPWR.PARK_REQ. -/
def State.parkReq (s : State) (v : Nat) : State :=
  let f := bits v 5 0
  let st := s.parkStatus f (bit v 30) (bit v 31)
  let s := s.setSregBits (pageModpwr + 0x050) 23 16 st.code
  if st ≠ .ok then s
  else if bit v 30 then s.unparkStart f
  else if s.jobUses f && s.liveJob.isSome then s.forcedPark f
  else s.parkStart f

def execPark (w : Requester) (v : Word) (s : State) : Out := .next (s.keeperPut w pageModpwr fun s => s.parkReq v.toNat)
def execUnpark (w : Requester) (v : Word) (s : State) : Out := .next (s.keeperPut w pageModpwr fun s => s.parkReq v.toNat)

/-- The interior of a field goes dark: its galleries change over to GAL_CLK, and VCORE is off (R448 steps 3 and 4). -/
def State.interiorOff (s : State) (f : Nat) : State :=
  ((s.clearInterior f).fieldDark f).scount (pageGallery f + 0x044) 1

/-- PARK_INTERIOR_DRAINED: the interior has emptied, or PARK_DRAIN cycles have passed. Of a running field in a stop, routing
steps 3 and 4 run no later than 45 µs after it (R452). -/
def execParkInteriorDrained (f : FieldNo) (s : State) : Out :=
  let fl := s.field f.val
  let held := s.interiorHeld f.val
  if fl.power = .parking then
    if fl.stepDue.isSome then .next s
    else
      let s := if held then s.elapse (fl.until (fl.parkAt + 20 * (s.sreg (pageRoute f.val + 0x044)).toNat)) else s
      .next (((s.interiorOff f.val).avsPut f.val 0).onField f.val fun fl => { fl with power := .parked })
  else
    match s.pithead.stopSince with
    | some t =>
      if s.stopHolds && fl.clocked && !fl.onGalClk then
        let s := ((if held then s.elapseTo (t + 45000) else s).closeInterior f.val).clearInterior f.val
        .next ((s.onField f.val fun fl => { fl with onGalClk := true }).scount (pageGallery f.val + 0x044) 1)
      else .next s
    | none => .next s

/-! ## Unpark (R449) -/

/-- UNPARK_VOLTAGE_CONFIRM: VCORE is there within 20 µs; the PLL locks, the cores reset, routing opens. -/
def State.unparked (s : State) (f : Nat) : State :=
  let s := s.onField f fun fl => { fl with
    vcoreOn := true, isolated := false, pllLocked := true, power := .run, step := 0, stepUp := none, envelope := ⟨0, 1⟩
    duty := ⟨0, 1⟩, gate := ⟨1, 1⟩, onGalClk := false, foremanUp := true, clockGated := false, foremanSeen := s.time, pitSent := s.time
    beatSent := s.time }
  ((s.wakeCores f).openInterior f).scount (pageGallery f + 0x044) 1
def execUnparkVoltageConfirm (f : FieldNo) (s : State) : Out :=
  match (s.field f.val).power, (s.field f.val).stepUp with
  | .unparking, some (_, some t) => .next (if s.time ≤ t + 20000 then s.unparked f.val else s)
  | _, _ => .next s

/-- An unpark ends with the field parked; its rail is turned off. -/
def State.parkAgain (s : State) (f : Nat) : State :=
  (s.avsPut f 0).onField f fun fl => { fl with power := .parked, stepUp := none }

/-- UNPARK_VOLTAGE_TIMEOUT: 20 µs have passed unconfirmed. -/
def execUnparkVoltageTimeout (f : FieldNo) (s : State) : Out :=
  match (s.field f.val).power, (s.field f.val).stepUp with
  | .unparking, some (_, some t) =>
    let s := (s.elapseTo (t + 20000)).parkAgain f.val
    .next ((s.scount (pageFieldpwr f.val + 0x064) 1).raisePower f.val 0x1001 .contained 0)
  | _, _ => .next s

/-! ## auto_park (R450) -/

/-- What auto_park does to a field: one that is not lost and may be parked is parked, in state STOPPED too (R453); one that a job
needs is unparked where its rail is good. -/
def State.autoParkField (s : State) (f : Nat) : State :=
  let fl := s.field f
  if fl.bringup = .lost then s
  else if s.jobUses f && s.liveJob.isSome then
    if s.flash.stopped || bit s.pithead.railFault f then s else s.unparkStart f
  else if (fl.runs || fl.power == .stopped) && fl.drain.isNone && s.galleryHoles f == 0 then s.parkStart f else s

/-- AUTO_PARK. -/
def execAutoPark (s : State) : Out :=
  .next (if s.sregBit (pageModpwr + 0x048) 8 && s.pithead.boot == .ready then
    (List.range 48).foldl (fun s f => s.autoParkField f) s else s)

/-! ## The stop (R451 to R453) -/

/-- An entry that a stop raises in a field's ERRLOG: an ENGINE_FATAL entry that halts nothing (R477). -/
def State.stopEntry (s : State) (code f : Nat) : State :=
  let v := s.fresh
  let r : Raise := ⟨code, .engineFatal, 2, fieldWord f 0⟩
  let merged := ((s.field f).merging s.time r).isSome
  let s := ((v.2.logEntryAt f (.space (pageFieldpwr f)) r v.1).msix 0 33).msix 1 33
  s.copyEntry merged 3 r v.1

/-- A running field glides to step 0; an unpark in progress returns the field to parked. -/
def State.stopField (s : State) (f : Nat) : State :=
  let fl := s.field f
  if fl.power = .unparking then s.parkAgain f
  else if fl.runs then
    if fl.stretched then s.onField f fun fl => { fl with stepUp := none, stepDue := some 0, stepReady := false, power := .run }
    else s.glideDown f 0
  else s

/-- The engine stops: STOPPED latches and is written to flash, every hoist aborts, every field glides to step 0. -/
def State.stop (s : State) (cause f code : Nat) : State :=
  if s.flash.stopped then s
  else
    let s := { s with flash := { s.flash with stopped := true, stopCleared := false, stopCause := cause, stopField := f } }
    let s := s.onPithead fun p => { p with stopSince := some s.time }
    let s := (List.range 48).foldl (fun s f => s.stopEntry code f) s
    let s := (List.range 208).foldl (fun s h => s.hoistAbort h) s
    (List.range 48).foldl (fun s f => s.stopField f) s

/-- COOLANT_STOP. -/
def execCoolantStop (s : State) : Out :=
  if s.pithead.inReset then .next s
  else .next ((s.onPithead fun p => { p with coolantOk := false }).stop 1 0 0x1007)
/-- THERMAL_STOP. -/
def execThermalStop (f : FieldNo) (s : State) : Out :=
  if s.pithead.inReset then .next s else .next (s.stop 2 f.val 0x1008)

/-- A field's interior closes and its buffers are truncated, unless that has happened; its gallery runs on GAL_CLK. -/
def State.stopRouting (s : State) (f : Nat) : State :=
  if !(s.field f).vcoreOn || (s.field f).clockGated || (s.field f).onGalClk then s
  else
    (((s.closeInterior f).clearInterior f).onField f fun fl => { fl with onGalClk := true }).scount (pageGallery f + 0x044) 1
/-- A field's interior clocks gate. -/
def State.gateField (s : State) (f : Nat) : State :=
  if !(s.field f).vcoreOn || (s.field f).clockGated then s
  else
    ((((s.switchFlush f).holdFlush f).stretchFlush f).stopRouting f).onField f fun fl => { fl with
      clockGated := true, isolated := true, drain := none, sched := .idle, frozen := false, droopIn := fl.droopIn || fl.stretched, stretched := false
      gateFrozen := false, holdLog := [], stepUp := none, stepDue := none, stepReady := false, envelope := ⟨0, 1⟩, duty := ⟨0, 1⟩
      power := if fl.power = .parking then .parking else .stopped }

/-- The job in progress ends without a drain. -/
def State.endNow (s : State) (e : JobEnd) : State :=
  let s := (List.range 48).foldl (fun s f => s.onField f fun fl => { fl with drain := none }) s
  match s.liveJob with
  | some j => (s.onPithead fun p => { p with job := some { j with ended := some e } }).slateState j.port .draining
  | none => s

/-- STOP_CLOCK_GATE: 50 µs after the stop. -/
def execStopClockGate (s : State) : Out :=
  match s.pithead.stopSince with
  | some t =>
    let s := (List.range 48).foldl (fun s f => s.stopRouting f) (s.elapseTo (t + 45000))
    let s := (List.range 48).foldl (fun s f => s.gateField f) (s.elapseTo (t + 50000))
    let s := s.endNow (.faulted (if s.flash.stopCause = 1 then 0x1007 else 0x1008))
    .next (s.onPithead fun p => { p with stopSince := none })
  | none => .next s

/-- A write of MODPWR.STOP (R454): its W1C bit, and a request to release the latch at the next cold reset. -/
def State.stopWrite (s : State) (v : Nat) (coolantOk : Bool) (hottest : Int) : State :=
  let r := pageModpwr + 0x054
  let s := s.onPithead fun p => { p with coolantOk := coolantOk }
  let s := if bit v 28 then s.setSregBits r 28 28 0 else s
  if !bit v 30 then s
  else if coolantOk && decide (hottest < 1000) then { s with flash := { s.flash with stopCleared := true } }
  else s.setSflag r 28

/-- STOP_CLEAR. -/
def execStopClear (w : Requester) (v : Word) (coolantOk : Bool) (hottest : Int) (s : State) : Out :=
  .next (s.keeperPut w pageModpwr fun s => s.stopWrite v.toNat coolantOk hottest)

/-! ## A field without its clock (R430, R548, R549) -/

/-- The field's clocks stop: its cores count as undrained, the job drains in its other fields and ends FAULTED. -/
def State.clockLost (s : State) (f : Nat) : State :=
  let uses := s.jobUses f
  let n := ((fieldSites f).filter s.coreOn).length
  let s := (((s.switchFlush f).holdFlush f).stretchFlush f).onField f fun fl => { fl with
    pllLocked := false, drain := none, sched := .idle, droopIn := fl.droopIn || fl.stretched, stretched := false, stepUp := none, stepDue := none, stepReady := false }
  let s := s.raise f (.space (pageFieldctl f)) ⟨0x1004, .jobFatal, 2, fieldWord f 0⟩
  if uses then s.onPithead fun p => { p with job := p.job.map fun j => { j with undrained := j.undrained + n } } else s

/-- FIELD_PLL_UNLOCK. -/
def execFieldPllUnlock (f : FieldNo) (s : State) : Out :=
  if (s.field f.val).clocked then .next (s.clockLost f.val) else .next s

/-- VCORE_RAIL_FAULT: a regulator that is silent or faulty, or a sag of 10 µs. The rail's bit is latched; a running field
loses its clock and then its rail. -/
def execVcoreRailFault (f : FieldNo) (s : State) : Out :=
  if s.pithead.inReset then .next s
  else
    let s := s.onPithead fun p => { p with railFault := p.railFault ||| 2 ^ f.val }
    if (s.field f.val).runs then
      let s := if (s.field f.val).clocked then s.clockLost f.val else s
      let s := (s.closeInterior f.val).interiorOff f.val
      .next ((s.avsPut f.val 0).onField f.val fun fl => { fl with power := .parked })
    else .next s

end Sys2Proof.Machine
end

