-- ==== Sys2Proof/Machine/JobEnds.lean ====
section
/-! DEFINITION. What ends a slate: completion records (R420, R421), fault records (R482), and the order in which slates
follow each other (R413, R419). -/

namespace Sys2Proof.Machine

/-! ## Records -/

/-- An entry of a host port, kept by the field of its first entry router (R426). -/
def State.raiseHost (s : State) (p code : Nat) (sev : Severity) : State :=
  let f := ((hostEntries p).getD 0 ⟨0, 0⟩).field
  s.raise f (.space (pageHostport p)) ⟨code, sev, 6, fieldWord f p⟩

def JobEnd.code : JobEnd → Nat
  | .done _ => 0 | .aborted _ => 1 | .faulted _ => 2 | .rejected _ => 3
def JobEnd.status : JobEnd → Status
  | .done _ => .ok | .aborted _ => .aborted | .faulted _ => .aborted | .rejected st => st
def JobEnd.cause : JobEnd → Nat
  | .aborted c => c | .faulted c => c | _ => 0
def JobEnd.exit : JobEnd → Nat
  | .done e => e | _ => 0

/-- The 32 bytes of a completion record (R420). -/
def completionRecord (e : JobEnd) (id start finish flags seq : Nat) : List Nat :=
  [e.code, e.status.code] ++ leBytes 2 id ++ leBytes 4 e.exit ++ leBytes 8 start ++ leBytes 8 finish ++
    leBytes 2 e.cause ++ [flags, 0] ++ leBytes 4 seq

/-- Copies a record into JOB.LAST. -/
def State.jobLast (s : State) (p : Nat) (bs : List Nat) : State :=
  (List.range 8).foldl (fun s i =>
    s.setSreg (pageJob p + 0x080 + 4 * i) (BitVec.ofNat 32 (leNat ((bs.drop (4 * i)).take 4)))) s

/-- A slate's record: into JOB.LAST, then to the host with its interrupt, or lost where the link is down (R423). -/
def State.slateRecord (s : State) (p : Nat) (sl : Slate) (e : JobEnd) (start flags : Nat) : State :=
  let bs := completionRecord e sl.id start s.time flags sl.seq
  let s := s.jobLast p bs
  if s.hostUp p then
    let s := s.putHost p sl.cmpl bs
    if sl.noIrq then s else s.msix p sl.vector
  else (s.setSflag (pageJob p + 0x068) 31).raiseHost p 0x0F05 .contained

/-- The fault record of a job (R482). -/
def State.faultBytes (s : State) (j : Job) (e : JobEnd) : List Nat :=
  leBytes 2 j.id ++ leBytes 2 e.cause ++ [e.code, j.truncated.toNat + 2 * j.journalFail.toNat] ++
    leBytes 2 j.faults.length ++ leBytes 8 s.time ++ leBytes 4 j.genStart ++ leBytes 4 s.pithead.harvestGen ++
    leBytes 4 j.sealed_ ++ leBytes 4 j.fenced ++ leBytes 4 j.undrained ++ List.replicate 28 0 ++
    (j.faults.flatMap fun b => b.map BitVec.toNat)

/-- Where a job's fault record goes; none where FAULT_BASE is 0. -/
def State.faultAddr (s : State) (j : Job) : Option Nat :=
  let base := s.sregBits (pagePithead + 0x058) 15 0 * 2 ^ 32 + (s.sreg (pagePithead + 0x054)).toNat / 4096 * 4096
  if base = 0 then none else some (base + j.id % max 1 (s.sregBits (pagePithead + 0x05C) 15 0) * 4096)

/-- The pithead writes bytes to HBM, burst by burst; whether all of them could be written. -/
def State.writeHbm (s : State) : Nat → Nat → List Nat → Bool × State
  | 0, _, _ => (true, s)
  | n + 1, a, bs =>
    if bs.isEmpty then (true, s)
    else if 0xC000000000 ≤ a ∨ s.stackState (s.stackOf a) ≠ 2 then (false, s)
    else
      let k := 32 - a % 32
      (s.writeBurst a (bs.take k)).writeHbm n (a + k) (bs.drop k)

/-- Writes the fault record where one is due: whether it was written. -/
def State.faultRecord (s : State) (j : Job) (e : JobEnd) : Bool × State :=
  let due := match e with | .faulted _ => true | _ => j.limitExpired
  match s.faultAddr j with
  | some a => if due then let bs := s.faultBytes j e; s.writeHbm (bs.length / 32 + 2) a bs else (false, s)
  | none => (false, s)

/-! ## Slates that follow each other (R413) -/

/-- The hoists that a slate bound are bound no more (R414). -/
def State.freeHoists (s : State) (p : Nat) : State :=
  (List.range 16).foldl (fun s h => s.onHoist (128 + 16 * p + h) fun z => { z with job := 0 }) s

/-- The port's current slate leaves; its next slate becomes current and keeps its place in the run order. -/
def State.slateGone (s : State) (p : Nat) (sl : Slate) : State :=
  let hp := s.port p
  let s := s.setPort p { hp with cur := hp.next, next := none }
  s.onPithead fun q => { q with runOrder := q.runOrder.filter fun e => e != (p, sl.seq) }
def State.nextGone (s : State) (p : Nat) (sl : Slate) : State :=
  let s := s.setPort p { s.port p with next := none }
  s.onPithead fun q => { q with runOrder := q.runOrder.filter fun e => e != (p, sl.seq) }

/-- Every drain of a job has ended. -/
def State.drainsOver (s : State) (j : Job) : Bool := j.fieldList.all fun f => (s.field f).drain.isNone

/-- The job that has ended is over: its records, its hoists, its slate, and the field resets and the park that waited for
it. -/
def State.jobOver (s : State) (j : Job) (e : JobEnd) : State :=
  let s := if j.hoistsEnded then s else s.abortJobHoists
  let w := s.faultRecord j e
  let flags := j.limitExpired.toNat + 2 * j.snapshots.toNat + 4 * w.1.toNat
  let s :=
    match (w.2.port j.port).cur with
    | some sl => ((w.2.slateRecord j.port sl e j.startTime flags).freeHoists j.port).slateGone j.port sl
    | none => w.2.freeHoists j.port
  let s := s.onPithead fun p => { p with job := none, canary := [] }
  let s := (List.range 48).foldl (fun s f => if (s.field f).resetDue then s.fieldReset f else s) s
  match j.thenPark with
  | some f => s.parkStart f
  | none => s

/-- JOB_COMPLETION: the job's drains, and with them the aborts of its hoists, have ended. -/
def execJobCompletion (s : State) : Out :=
  match s.pithead.job with
  | some j =>
    match j.ended with
    | some e => .next (if s.drainsOver j then s.jobOver j e else s)
    | none => .next s
  | none => .next s

/-- A slate that ends before it runs: REJECTED, or cancelled (R414, R419). -/
def State.slateEnds (s : State) (p : Nat) (sl : Slate) (e : JobEnd) : State :=
  ((s.slateRecord p sl e 0 0).freeHoists p).slateGone p sl

/-- JOB_DONE: an RTSIG with tally 0 reaches the pithead while a job runs; any other is discarded (R418, R559). -/
def State.atPithead (s : State) (p : Packet) : Bool := p.dst == s.chip * 2 ^ 20 + eidPithead && s.lands p
/-- The field of a packet's source, where it is a core. -/
def State.srcField (s : State) (p : Packet) : Option Nat := (s.siteOf (eidLocal p.src)).map (·.field)
def execJobDone (p : Packet) (s : State) : Out :=
  if p.ptype ≠ .tallySignal || !s.atPithead p || s.pithead.inReset then .next s
  else
    let job := s.liveJob.filter (·.running)
    let f := s.srcField p
    let s := s.consume p
    match job with
    | some j =>
      .next (if bits p.arg 5 0 = 0 ∧ eidChip p.src = s.chip ∧ (f.any fun f => bit j.fields f) then
        s.endJob (.done (bits p.data 31 0)) else s)
    | none => .next s

end Sys2Proof.Machine
end

