-- ==== Sys2Proof/Machine/Shake.lean ====
section
/-! DEFINITION. SHAKE256 as FIPS 202 gives it, which chapter *Secure Boot, Identity and Attestation* names for every
digest (R415, R506, R510, R518). -/

namespace Sys2Proof.Machine

/-- Lane (x, y) of a state of 25 lanes. -/
def lane (a : List DWord) (x y : Nat) : DWord := a.getD (x % 5 + 5 * (y % 5)) 0
/-- A state from its lanes. -/
def lanes (f : Nat → Nat → DWord) : List DWord := (List.range 25).map fun i => f (i % 5) (i / 5)

/-- Rotation offsets of ρ by lane number. -/
def rhoOffset (i : Nat) : Nat :=
  [0, 1, 62, 28, 27, 36, 44, 6, 55, 20, 3, 10, 43, 25, 39, 41, 45, 15, 21, 8, 18, 2, 61, 56, 14].getD i 0
/-- Round constants of ι. -/
def roundConstants : List DWord :=
  [0x0000000000000001#64, 0x0000000000008082#64, 0x800000000000808A#64, 0x8000000080008000#64, 0x000000000000808B#64,
    0x0000000080000001#64, 0x8000000080008081#64, 0x8000000000008009#64, 0x000000000000008A#64, 0x0000000000000088#64,
    0x0000000080008009#64, 0x000000008000000A#64, 0x000000008000808B#64, 0x800000000000008B#64, 0x8000000000008089#64,
    0x8000000000008003#64, 0x8000000000008002#64, 0x8000000000000080#64, 0x000000000000800A#64, 0x800000008000000A#64,
    0x8000000080008081#64, 0x8000000000008080#64, 0x0000000080000001#64, 0x8000000080008008#64]

/-- One round of Keccak-f[1600]: θ, ρ, π, χ and ι. -/
def keccakRound (a : List DWord) (rc : DWord) : List DWord :=
  let c := (List.range 5).map fun x => lane a x 0 ^^^ lane a x 1 ^^^ lane a x 2 ^^^ lane a x 3 ^^^ lane a x 4
  let d := (List.range 5).map fun x => c.getD ((x + 4) % 5) 0 ^^^ (c.getD ((x + 1) % 5) 0).rotateLeft 1
  let t := lanes fun x y => lane a x y ^^^ d.getD x 0
  let r := (List.range 25).map fun i => (t.getD i 0).rotateLeft (rhoOffset i)
  let b := lanes fun x y => lane r (x + 3 * y) x
  let e := lanes fun x y => lane b x y ^^^ (~~~(lane b (x + 1) y) &&& lane b (x + 2) y)
  match e with
  | h :: rest => (h ^^^ rc) :: rest
  | [] => []
def keccak (a : List DWord) : List DWord := roundConstants.foldl keccakRound a

/-- Absorbs a block of 136 bytes. -/
def absorb (a : List DWord) (block : List Nat) : List DWord :=
  keccak ((List.range 25).map fun i => a.getD i 0 ^^^ BitVec.ofNat 64 (leNat ((block.drop (8 * i)).take 8)))
/-- Blocks of padded message; the fuel is their number. -/
def absorbAll : Nat → List DWord → List Nat → List DWord
  | 0, a, _ => a
  | n + 1, a, bs => absorbAll n (absorb a (bs.take 136)) (bs.drop 136)

/-- The message with its domain bits and padding to whole blocks. -/
def shakePad (bs : List Nat) : List Nat :=
  let n := 136 - bs.length % 136
  if n = 1 then bs ++ [0x9F] else bs ++ [0x1F] ++ List.replicate (n - 2) 0 ++ [0x80]

/-- The first n bytes of SHAKE256's output, n at most 136. -/
def shakeBytes (n : Nat) (bs : List Nat) : List Nat :=
  let a := absorbAll (bs.length / 136 + 1) (List.replicate 25 0) (shakePad bs)
  (a.flatMap fun w => leBytes 8 w.toNat).take n
/-- SHAKE256 with a 256-bit output. -/
def shake256 (bs : List Nat) : List Nat := shakeBytes 32 bs

end Sys2Proof.Machine
end

