-- ==== Sys2Proof/Machine/Xmss.lean ====
section
/-! DEFINITION. XMSS over SHAKE256, as RFC 8391 and NIST SP 800-208 give it: verifying, and the public key and signatures of a
private key (R506, R507, R512, R516 to R518). -/

namespace Sys2Proof.Machine

/-- A parameter set: bytes of a hash and height of the tree. -/
structure XmssSet where
  n : Nat
  h : Nat
deriving DecidableEq, Repr

/-- Parameter sets with SHAKE256 by OID. -/
def XmssSet.ofOid : Nat → Option XmssSet
  | 0x0A => some ⟨64, 10⟩ | 0x0B => some ⟨64, 16⟩ | 0x0C => some ⟨64, 20⟩
  | 0x10 => some ⟨32, 10⟩ | 0x11 => some ⟨32, 16⟩ | 0x12 => some ⟨32, 20⟩
  | _ => none

/-- Chains of a one-time signature: two per hash byte, and three for the checksum. -/
def XmssSet.len (k : XmssSet) : Nat := 2 * k.n + 3
/-- Bytes of a public key and of a signature. -/
def XmssSet.keyBytes (k : XmssSet) : Nat := 4 + 2 * k.n
def XmssSet.sigBytes (k : XmssSet) : Nat := 4 + k.n + k.len * k.n + k.h * k.n

/-- Big-endian bytes of a number, and the number of big-endian bytes. -/
def beBytes (n w : Nat) : List Nat := (leBytes n w).reverse
def beNat (bs : List Nat) : Nat := leNat bs.reverse

/-- A hash address: its type and the words that follow the type. -/
structure XAddr where
  kind : Nat
  a : Nat
  b : Nat
  c : Nat
deriving DecidableEq, Repr

def XAddr.bytes (x : XAddr) (mask : Nat) : List Nat :=
  List.replicate 12 0 ++ beBytes 4 x.kind ++ beBytes 4 x.a ++ beBytes 4 x.b ++ beBytes 4 x.c ++ beBytes 4 mask

/-- The keyed hashes, told apart by their first block: F 0, H 1, message 2, PRF 3. -/
def xhash (n tag : Nat) (key m : List Nat) : List Nat := shakeBytes n (beBytes n tag ++ key ++ m)
def xprf (n : Nat) (seed : List Nat) (x : XAddr) (mask : Nat) : List Nat := xhash n 3 seed (x.bytes mask)
def xorBytes (a b : List Nat) : List Nat := (a.zip b).map fun q => q.1 ^^^ q.2

/-- `s` steps of a chain from step `i`. -/
def xchain (n : Nat) (seed : List Nat) (x : XAddr) : Nat → Nat → List Nat → List Nat
  | _, 0, v => v
  | i, s + 1, v =>
    let y : XAddr := { x with c := i }
    xchain n seed x (i + 1) s (xhash n 0 (xprf n seed y 0) (xorBytes v (xprf n seed y 1)))

/-- The hash of two nodes. -/
def xpair (n : Nat) (seed : List Nat) (x : XAddr) (l r : List Nat) : List Nat :=
  xhash n 1 (xprf n seed x 0) (xorBytes l (xprf n seed x 1) ++ xorBytes r (xprf n seed x 2))

/-- One level of an L-tree. -/
def ltreeLevel (n : Nat) (seed : List Nat) (leaf height : Nat) : Nat → List (List Nat) → List (List Nat)
  | i, l :: r :: rest => xpair n seed ⟨1, leaf, height, i⟩ l r :: ltreeLevel n seed leaf height (i + 1) rest
  | _, rest => rest
/-- The root of an L-tree; the fuel is its number of levels. -/
def ltree (n : Nat) (seed : List Nat) (leaf : Nat) : Nat → Nat → List (List Nat) → List Nat
  | 0, _, l => l.getD 0 []
  | k + 1, height, l =>
    if l.length ≤ 1 then l.getD 0 [] else ltree n seed leaf k (height + 1) (ltreeLevel n seed leaf height 0 l)

/-- The digits of a message and its checksum, four bits each. -/
def xdigits (m : List Nat) : List Nat :=
  let d := m.flatMap fun b => [b / 16 % 16, b % 16]
  let sum := (d.map fun v => 15 - v).foldl (· + ·) 0
  d ++ [sum / 256 % 16, sum / 16 % 16, sum % 16]

/-- Pieces of n bytes. -/
def chunks (n : Nat) : Nat → List Nat → List (List Nat)
  | 0, _ => []
  | k + 1, l => l.take n :: chunks n k (l.drop n)

/-- The root that a node and the nodes beside its path give. -/
def xclimb (n : Nat) (seed : List Nat) (leaf : Nat) : Nat → List (List Nat) → List Nat → List Nat
  | _, [], node => node
  | k, s :: rest, node =>
    let x : XAddr := ⟨2, 0, k, leaf / 2 ^ (k + 1)⟩
    xclimb n seed leaf (k + 1) rest
      (if leaf / 2 ^ k % 2 = 0 then xpair n seed x node s else xpair n seed x s node)

/-- Whether a signature of a message verifies under a public key: OID, root, seed. -/
def xmssVerify (key msg sig : List Nat) : Bool :=
  match XmssSet.ofOid (beNat (key.take 4)) with
  | none => false
  | some k =>
    if key.length ≠ k.keyBytes ∨ sig.length ≠ k.sigBytes then false
    else
      let n := k.n
      let root := (key.drop 4).take n
      let seed := key.drop (4 + n)
      let leaf := beNat (sig.take 4)
      let r := (sig.drop 4).take n
      let m := xhash n 2 (r ++ root ++ beBytes n leaf) msg
      let ots := chunks n k.len (sig.drop (4 + n))
      let ends := ((ots.zip (xdigits m)).zip (List.range k.len)).map fun q =>
        xchain n seed ⟨0, leaf, q.2, 0⟩ q.1.2 (15 - q.1.2) q.1.1
      let node := ltree n seed leaf 9 0 ends
      decide (leaf < 2 ^ k.h) && xclimb n seed leaf 0 (chunks n k.h (sig.drop (4 + n + k.len * n))) node == root

/-! ## The engine's own key: hashes of 32 bytes, a tree of height 20 -/

/-- A private key: the secret seed, the key of the message randomizer and the public seed. -/
structure XmssKey where
  secret : List Nat
  prf : List Nat
  seed : List Nat
deriving DecidableEq, Repr

/-- Where a chain of a leaf's one-time key begins. -/
def XmssKey.chainStart (k : XmssKey) (leaf j : Nat) : List Nat := xhash 32 4 k.secret (k.seed ++ XAddr.bytes ⟨0, leaf, j, 0⟩ 0)
/-- A chain of a leaf, `n` steps from its start. -/
def XmssKey.chainAt (k : XmssKey) (leaf j n : Nat) : List Nat := xchain 32 k.seed ⟨0, leaf, j, 0⟩ 0 n (k.chainStart leaf j)
/-- A node of the tree, by its height and its place. -/
def XmssKey.node (k : XmssKey) : Nat → Nat → List Nat
  | 0, i => ltree 32 k.seed i 9 0 ((List.range 67).map fun j => k.chainAt i j 15)
  | h + 1, i => xpair 32 k.seed ⟨2, 0, h, i⟩ (k.node h (2 * i)) (k.node h (2 * i + 1))
/-- The public key: OID, root, seed. -/
def XmssKey.public (k : XmssKey) : List Nat := beBytes 4 0x12 ++ k.node 20 0 ++ k.seed
/-- The signature of a message with a leaf, 2,820 bytes. -/
def XmssKey.sign (k : XmssKey) (leaf : Nat) (msg : List Nat) : List Nat :=
  let r := xhash 32 3 k.prf (beBytes 32 leaf)
  let m := xhash 32 2 (r ++ k.node 20 0 ++ beBytes 32 leaf) msg
  beBytes 4 leaf ++ r ++ (((List.range 67).zip (xdigits m)).flatMap fun q => k.chainAt leaf q.1 q.2) ++
    (List.range 20).flatMap fun h => k.node h (leaf / 2 ^ h ^^^ 1)

end Sys2Proof.Machine
end

