-- ==== Sys2Proof/Machine/Security.lean ====
section
/-! DEFINITION. Secure boot, measurements, the identity key and the mailbox commands (R506 to R523). Module flash is
provisioned outside the engine; what it holds is `State.flash`. -/

namespace Sys2Proof.Machine

/-! ## Releases (R506, R507) -/

/-- Bytes of a list, zero past its end. -/
def cut (bs : List Nat) (a n : Nat) : List Nat := (List.range n).map fun i => bs.getD (a + i) 0
def Release.nats (r : Release) : List Nat := r.bytes.map BitVec.toNat
/-- Where the three images lie: offset and length. -/
def imageSpans (m : List Nat) : List (Nat × Nat) :=
  let n (i : Nat) : Nat := leNat (cut m (12 + 4 * i) 4)
  [(4096, n 0), (4096 + n 0, n 1), (4096 + n 0 + n 1, n 2)]
def manifestSeq (m : List Nat) : Nat := leNat (cut m 4 4)
def manifestSvn (m : List Nat) : Nat := m.getD 8 0
def manifestDigest (m : List Nat) (i : Nat) : List Nat := cut m (32 + 32 * i) 32

/-- The five checks, in order: the conjunction of all. -/
def releaseGood (vendorDigest : List Nat) (f : Nat) (m : List Nat) : Bool :=
  let zero (a n : Nat) : Bool := cut m a n == List.replicate n 0
  m.getD 0 0 == 3 && m.getD 1 0 == 1 && zero 2 2 && zero 9 3 && zero 24 8 && zero 196 4 &&
    shake256 (cut m 128 68) == vendorDigest &&
    xmssVerify (cut m 128 68) (cut m 0 200) (cut m 200 2500) &&
    decide (f ≤ manifestSvn m) &&
    ((imageSpans m).zip (List.range 3)).all fun q =>
      decide (q.1.1 + q.1.2 ≤ m.length) && shake256 (cut m q.1.1 q.1.2) == manifestDigest m q.2

def Flash.slot (fl : Flash) (i : Nat) : Option Release := if i = 0 then fl.slot0 else fl.slot1
def Flash.slotGood (fl : Flash) (i : Nat) : Bool :=
  match fl.slot i with
  | some r => releaseGood (fl.vendorDigest.map BitVec.toNat) fl.fuseSteps r.nats
  | none => false

/-- The slot the ROM boots: the accepted one with the higher sequence number; which of two equal ones is open. -/
def State.bootSlot (s : State) : Option Nat × State :=
  let seq (i : Nat) : Nat := ((s.flash.slot i).map fun r => manifestSeq r.nats).getD 0
  match s.flash.slotGood 0, s.flash.slotGood 1 with
  | false, false => (none, s)
  | true, false => (some 0, s)
  | false, true => (some 1, s)
  | true, true =>
    if seq 0 = seq 1 then let v := s.fresh; (some (Config.freeValue v.1 0 % 2), v.2)
    else (some (if seq 0 < seq 1 then 1 else 0), s)

/-! ## Measurements (R510, R511) -/

def Pithead.measure (p : Pithead) (i : Nat) : List Nat := leBytes 32 (p.measures.get (fun _ => 0) i)
/-- An extend of Mi with a digest. -/
def State.extendM (s : State) (i : Nat) (d : List Nat) : State :=
  s.onPithead fun p => { p with measures := p.measures.set (fun _ => 0) i (leNat (shake256 (p.measure i ++ d))) }

def Flash.ownerBytes (fl : Flash) : List Nat := cut (fl.owner.map BitVec.toNat) 0 32
def Flash.ownerSet (fl : Flash) : Bool := fl.ownerBytes.any (· != 0)

/-- The security state block. -/
def State.securityBlock (s : State) (event : Nat) : List Nat :=
  [event, s.flash.fuseSteps, s.pithead.svn,
    s.pithead.lock.toNat + 2 * s.pithead.debugUnlocked.toNat + 4 * s.flash.ownerSet.toNat, 0, 0, 0, 0] ++
    leBytes 8 s.flash.serial ++ s.flash.ownerBytes ++ List.replicate 16 0
def State.extendM3 (s : State) (event : Nat) : State := s.extendM 3 (shake256 (s.securityBlock event))

/-- An entry of security, kept by field 0. -/
def State.raiseSecurity (s : State) (code : Nat) (sev : Severity) : State := s.raiseModule (pageSecurity 0) code sev

/-! ## The identity key (R512 to R514) -/

/-- The active key's private key. -/
def Flash.idKey (fl : Flash) : XmssKey :=
  let open_ (i : Nat) : Nat := Config.unseal (fl.deviceSecret.map BitVec.toNat) (fl.sealedKey.map BitVec.toNat) i % 256
  ⟨(List.range 32).map open_, (List.range 32).map fun i => open_ (32 + i), (List.range 32).map fun i => open_ (64 + i)⟩

def lowLeaf : Nat := 1046528
def reserveLeaf : Nat := 1047552
def leafCount : Nat := 1048576

/-- The newer of the two copies of the reservation end is the second. -/
def Flash.secondNewer (fl : Flash) : Bool :=
  fl.reserve1.valid && (!fl.reserve0.valid || decide (fl.reserve0.seq < fl.reserve1.seq))
/-- The reservation end: that of the valid copy with the higher sequence number. With neither valid, which no single torn write
leaves, no leaf is known to be unused, and none is left (DESIGN CHOICE, log 111). -/
def Flash.reserveEnd (fl : Flash) : Nat :=
  if fl.secondNewer then fl.reserve1.value else if fl.reserve0.valid then fl.reserve0.value else leafCount
/-- Writes a new reservation end into the older copy; a torn write leaves that copy invalid. -/
def Flash.reserve (fl : Flash) (e : Nat) (ok : Bool) : Flash :=
  if fl.secondNewer then { fl with reserve0 := ⟨e, fl.reserve1.seq + 1, ok⟩ }
  else { fl with reserve1 := ⟨e, fl.reserve0.seq + 1, ok⟩ }

/-- The next leaf has reached the mark of R514: that is noted in flash and reported, once. -/
def State.identityLow (s : State) : State :=
  if s.flash.low then s
  else State.raiseSecurity { s with flash := { s.flash with low := true } } 0x1302 .corrected

/-- A boot takes the next leaf from flash. -/
def State.bootIdentity (s : State) : State :=
  let e := s.flash.reserveEnd
  let s := s.onPithead fun p => { p with nextLeaf := e }
  if lowLeaf ≤ e then s.identityLow else s

/-- Spends the next leaf on a message: none where the reservation cannot be written or no leaf is left. -/
def State.sign (s : State) (m : List Nat) (flashOk : Bool) : Option (List Nat) × State :=
  let i := s.pithead.nextLeaf
  if leafCount ≤ i then (none, s)
  else
    let opens := decide (i = s.flash.reserveEnd)
    let s := if opens then { s with flash := s.flash.reserve (i + 256) flashOk } else s
    if opens && !flashOk then (none, s.raiseSecurity 0x1303 .contained)
    else
      let s := if lowLeaf ≤ i then s.identityLow else s
      (some (s.flash.idKey.sign i m), s.onPithead fun p => { p with nextLeaf := i + 1 })

/-! ## The boot (R507, R510, R511) -/

/-- The ROM boots a release and its firmware measures what it loads; with no release the state is FAILED. -/
def State.romBoot (s : State) : State :=
  let b := s.bootSlot
  let s := b.2
  match b.1, b.1.bind fun i => s.flash.slot i with
  | some i, some r =>
    let m := r.nats
    let s := s.onPithead fun p => { p with slot := i, svn := manifestSvn m, fwSeq := manifestSeq m }
    let s := (s.extendM 0 (shake256 (cut m 0 200))).extendM 0 (manifestDigest m 0)
    let s := (((s.extendM 1 (manifestDigest m 1)).extendM 2 (manifestDigest m 2)).extendM3 0).bootIdentity
    if s.flash.slotGood (1 - i) then s else s.raiseSecurity 0x1301 .contained
  | _, _ => s.onPithead fun p => { p with boot := .failed }

/-! ## The mailbox (R521, R522) -/

def mboxCmd (p : Nat) : Nat := pageSecurity p + 0x050
def mboxStatus (p : Nat) : Nat := pageSecurity p + 0x054
def State.reqLen (s : State) (p : Nat) : Nat := s.sregBits (pageSecurity p + 0x058) 11 0
/-- The first n bytes of a mailbox buffer. -/
def State.mboxBytes (s : State) (p n : Nat) : List Nat :=
  (List.range n).map fun i => (s.sreg (pageSecurity p + 0x200 + i / 4 * 4)).toNat / 2 ^ (8 * (i % 4)) % 256

/-- Status and length of a response, and its bytes in the buffer. -/
def State.mboxAnswer (s : State) (p : Nat) (st : Status) (bs : List Nat) : State :=
  let s := (List.range ((bs.length + 3) / 4)).foldl (fun s i =>
    s.setSreg (pageSecurity p + 0x200 + 4 * i) (BitVec.ofNat 32 (leNat (cut bs (4 * i) 4)))) s
  (s.setSregBits (mboxStatus p) 23 16 st.code).setSregBits (mboxStatus p) 11 0 bs.length

/-- The command at the front of the mailbox queue ends. -/
def State.mboxEnd (s : State) (p : Nat) (st : Status) (bs : List Nat) : State :=
  let s := s.onPithead fun q => { q with mailbox := q.mailbox.drop 1 }
  (s.setPort p { s.port p with mboxBusy := false }).mboxAnswer p st bs

/-- Whether a length fits the request of an op; DEBUG_UNLOCK looks at its length itself. -/
def requestFits (op n : Nat) : Bool :=
  match op with
  | 0x01 | 0x03 | 0x06 => n == 32
  | 0x04 => n == 8
  | 0x09 => true
  | _ => n == 0

/-- The command at the front runs, if it is this one of this port: its status and response come from `run`. -/
def mailboxRun (p : Port2) (op : Nat) (s : State) (run : Nat → List Nat → State → Status × List Nat × State) : Out :=
  match s.pithead.mailbox with
  | (q, o, arg) :: _ =>
    if q ≠ p.val ∨ o ≠ op then .next s
    else if !requestFits op (s.reqLen p.val) then .next (s.mboxEnd p.val .formatInvalid [])
    else
      let r := run arg (s.mboxBytes p.val (s.reqLen p.val)) s
      .next (r.2.2.mboxEnd p.val r.1 r.2.1)
  | [] => .next s

/-- ID_STATUS.enrolling: an enrolment is at the front. -/
def State.enrolling (s : State) : Bool :=
  match s.pithead.mailbox with
  | (_, 0x07, _) :: _ => decide (s.flash.keySerial < 15)
  | _ => false

/-- Commands that only the keeper starts. -/
def keeperOp (op : Nat) : Bool := decide (4 ≤ op ∧ op ≤ 10)

/-- A write of a port's MBOX_CMD: its fields, and with go the command joins the queue. A reserved op ends
at once, and so does what may not wait for an enrolment (R515). -/
def State.mboxWrite (s : State) (w : Requester) (p : Nat) (v : Nat) : State :=
  let s := s.setSregBits (mboxCmd p) 15 0 (bits v 15 0)
  let op := bits v 7 0
  if !bit v 31 || (s.port p).mboxBusy || (s.pithead.boot == .failed && op != 4) then s
  else if op = 0 ∨ 10 < op then s.mboxAnswer p .formatInvalid []
  else if keeperOp op && !s.isKeeper w then s.keeperWrite w id
  else if s.enrolling && (op == 1 || op == 7) then s.mboxAnswer p .busy []
  else
    (s.setPort p { s.port p with mboxBusy := true }).onPithead fun q => { q with
      mailbox := q.mailbox ++ [(p, op, bits v 15 8)] }

/-! ## The commands -/

/-- The body of a quote (R517). -/
def State.quoteBody (s : State) (nonce : List Nat) : List Nat :=
  let p := s.pithead
  [1, 1] ++ leBytes 2 s.chip ++ leBytes 4 p.harvestGen ++ leBytes 8 s.time ++ leBytes 8 s.flash.boots ++
    leBytes 4 (s.flash.fuseSteps % 128 + p.svn % 128 * 2 ^ 8 + p.debugUnlocked.toNat * 2 ^ 16 + p.lock.toNat * 2 ^ 17) ++
    leBytes 4 s.flash.keySerial ++ nonce ++ (List.range 8).flatMap p.measure

/-- QUOTE. -/
def execQuote (p : Port2) (flashOk : Bool) (s : State) : Out :=
  mailboxRun p 0x01 s fun _ nonce s =>
    if reserveLeaf ≤ s.pithead.nextLeaf then
      (.denied, [], { s with flash := { s.flash with exhausted := true } })
    else
      let body := s.quoteBody nonce
      let r := s.sign body flashOk
      match r.1 with
      | some sig => (.ok, body ++ sig, r.2)
      | none => (.denied, [], r.2)

/-- READ_CERT. -/
def execReadCert (p : Port2) (s : State) : Out :=
  mailboxRun p 0x02 s fun k _ s =>
    match s.flash.certs[k]? with
    | some c => (.ok, c.map BitVec.toNat, s)
    | none => (.addrRange, [], s)

/-- EXTEND. -/
def execExtend (p : Port2) (s : State) : Out :=
  mailboxRun p 0x03 s fun i d s => if 5 ≤ i ∧ i ≤ 7 then (.ok, [], s.extendM i d) else (.addrRange, [], s)

/-- The bytes of HBM in a range, if every one can be read. -/
def State.hbmRange (s : State) (a n : Nat) : Option (List Nat) × State :=
  let r := s.readSpan a n
  (if r.1.all fun b => b.2 == .ok then some (r.1.map Prod.fst) else none, r.2)

/-- The release at an HBM address, if it lies there whole. -/
def State.releaseAt (s : State) (a : Nat) : Option (List Nat) × State :=
  let h := s.hbmRange a 4096
  match h.1 with
  | none => (none, h.2)
  | some m =>
    let n := ((imageSpans m).map Prod.snd).foldl (· + ·) 0
    if 16 * 2 ^ 20 < 4096 + n ∨ 0xC000000000 < a + 4096 + n then (none, h.2)
    else
      let b := h.2.hbmRange (a + 4096) n
      (b.1.map fun t => m ++ t, b.2)

/-- The release that an INSTALL request names, where it passes every check (R509). -/
def State.installable (s : State) (req : List Nat) : Option (List Nat) × State :=
  let r := s.releaseAt (leNat req)
  (r.1.filter fun m =>
    !decide (64 < manifestSvn m) && releaseGood (r.2.flash.vendorDigest.map BitVec.toNat) r.2.flash.fuseSteps m, r.2)
/-- The slot that INSTALL writes: the one that is not running; with none running, either. -/
def State.installSlot (s : State) : Nat × State :=
  if s.pithead.boot == .failed then let v := s.fresh; (Config.freeValue v.1 0 % 2, v.2) else (1 - s.pithead.slot, s)
def Flash.putSlot (fl : Flash) (i : Nat) (r : Option Release) : Flash :=
  if i = 0 then { fl with slot0 := r } else { fl with slot1 := r }

/-- INSTALL. -/
def execInstall (p : Port2) (s : State) : Out :=
  mailboxRun p 0x04 s fun _ req s =>
    let r := s.installable req
    match r.1 with
    | none => (.denied, [], r.2)
    | some m =>
      let w := r.2.installSlot
      (.ok, [], { w.2 with flash := w.2.flash.putSlot w.1 (some ⟨m.map (BitVec.ofNat 8)⟩) })

/-- COMMIT_SVN (R508). -/
def execCommitSvn (p : Port2) (s : State) : Out :=
  mailboxRun p 0x05 s fun _ _ s =>
    if s.flash.fuseSteps < s.pithead.svn then
      (.ok, [], State.extendM3 { s with flash := { s.flash with fuseSteps := s.pithead.svn } } 3)
    else (.ok, [], s)

/-- SET_OWNER (R518). -/
def execSetOwner (p : Port2) (s : State) : Out :=
  mailboxRun p 0x06 s fun _ d s =>
    if s.pithead.lock then (.denied, [], s)
    else (.ok, [], State.extendM3 { s with flash := { s.flash with owner := d.map (BitVec.ofNat 8) } } 1)

/-- A certificate without its signature (R516). -/
def Flash.certBody (fl : Flash) (serial : Nat) (key : XmssKey) : List Nat :=
  [2, 1] ++ leBytes 2 serial ++ leBytes 8 fl.serial ++ List.replicate 52 0 ++ key.public ++ leBytes 4 1

/-- ENROL_SUCCESSOR (R515): key generation takes up to 300 s; the command ends when the successor is active. The new private key
is the engine's own random choice, and takes the place of the predecessor's. -/
def execEnrolSuccessor (p : Port2) (flashOk : Bool) (s : State) : Out :=
  mailboxRun p 0x07 s fun _ _ s =>
    if 15 ≤ s.flash.keySerial then (.denied, [], s)
    else
      let v := s.fresh
      let serial := s.flash.keySerial + 1
      let next := { s.flash with sealedKey := (List.range 96).map fun i => BitVec.ofNat 8 (Config.freeValue v.1 i) }
      let body := next.certBody serial next.idKey
      let r := v.2.sign body flashOk
      let s := r.2
      match r.1 with
      | none => (.denied, [], s)
      | some sig =>
        let cert := body ++ sig
        let s := { s with flash := { s.flash with
          sealedKey := next.sealedKey, certs := s.flash.certs.take serial ++ [cert.map (BitVec.ofNat 8)], keySerial := serial
          reserve0 := ⟨0, 1, true⟩, reserve1 := ⟨0, 0, true⟩, low := false, exhausted := false } }
        (.ok, cert, s.onPithead fun q => { q with nextLeaf := 0 })

/-! ## A power loss -/

/-- What a power loss makes of the flash write that the mailbox command at the front has under way. A signature's reservation
may be written, torn or not begun; an INSTALL leaves the inactive slot invalid; a blow leaves F at its old or its new value. Of
an enrolment nothing but the spent leaf remains (R508, R509, R513, R515). -/
def State.cutWrite (s : State) : State :=
  let v := s.fresh
  let k := Config.freeValue v.1 0 % 3
  let signs (s : State) : State :=
    let i := s.pithead.nextLeaf
    if k ≠ 0 ∧ i = s.flash.reserveEnd ∧ i < leafCount then { s with flash := s.flash.reserve (i + 256) (k == 1) } else s
  match s.pithead.mailbox with
  | (p, op, _) :: _ =>
    if !requestFits op (s.reqLen p) then s
    else
      match op with
      | 0x01 => if reserveLeaf ≤ s.pithead.nextLeaf then s else signs v.2
      | 0x07 => if 15 ≤ s.flash.keySerial then s else signs v.2
      | 0x04 =>
        let r := s.installable (s.mboxBytes p (s.reqLen p))
        if r.1.isNone then s
        else
          let w := s.installSlot
          { w.2 with flash := w.2.flash.putSlot w.1 none }
      | 0x05 =>
        if s.flash.fuseSteps < s.pithead.svn ∧ k = 1 then { v.2 with flash := { s.flash with fuseSteps := s.pithead.svn } }
        else v.2
      | _ => s
  | [] => s

/-- DEBUG_CHALLENGE (R520). -/
def execDebugChallenge (p : Port2) (s : State) : Out :=
  mailboxRun p 0x08 s fun _ _ s =>
    let v := s.fresh
    let bs := [4, 1] ++ leBytes 2 s.chip ++ [s.pithead.svn % 256, 0, 0, 0] ++ leBytes 8 s.flash.serial ++
      leBytes 8 s.time ++ List.replicate 8 0 ++ (List.range 32).map fun i => Config.freeValue v.1 i % 256
    (.ok, bs, v.2.onPithead fun q => { q with challenge := some (bs.map (BitVec.ofNat 8), s.time) })

/-- Whether a joined request unlocks debug, against the challenge it spends. -/
def State.unlocks (s : State) (req : List Nat) : Bool :=
  match XmssSet.ofOid (beNat (req.take 4)), s.pithead.challenge with
  | some k, some (c, t) =>
    let key := req.take k.keyBytes
    s.flash.ownerSet && shake256 key == s.flash.ownerBytes &&
      xmssVerify key (c.map BitVec.toNat) (req.drop k.keyBytes) && decide (s.time ≤ t + 60000000000)
  | _, _ => false

/-- The last part of an unlock: the challenge is spent, and debug is unlocked or the attempt fails, whose status is
open. -/
def State.decideUnlock (s : State) (req : List Nat) : Status × State :=
  let good := s.unlocks req
  let s := s.onPithead fun q => { q with challenge := none, parts := [], nextPart := 0 }
  if good then
    (.ok, ((s.onPithead fun q => { q with debugUnlocked := true }).extendM3 4).raiseSecurity 0x1304 .corrected)
  else
    let v := s.fresh
    (Status.ofCode (1 + Config.freeValue v.1 0 % 17), v.2.raiseSecurity 0x1305 .contained)

/-- A part of an unlock request (R519). -/
def State.unlockPart (s : State) (arg : Nat) (bs : List Nat) : Status × State :=
  let n := bits arg 6 0
  let last := bit arg 7
  let q := s.pithead
  let staged := if n = 0 then [] else q.parts.map BitVec.toNat
  if 3584 < bs.length then
    (.formatInvalid, s.onPithead fun q => { q with challenge := if last then none else q.challenge })
  else if (n ≠ 0 ∧ n ≠ q.nextPart) ∨ 14336 < staged.length + bs.length then
    (.formatInvalid, s.onPithead fun q => { q with
      parts := [], nextPart := 0, challenge := if last then none else q.challenge })
  else
    let req := staged ++ bs
    if last then s.decideUnlock req
    else (.ok, s.onPithead fun q => { q with parts := req.map (BitVec.ofNat 8), nextPart := n + 1 })

/-- DEBUG_UNLOCK. -/
def execDebugUnlock (p : Port2) (s : State) : Out :=
  mailboxRun p 0x09 s fun arg bs s => let r := s.unlockPart arg bs; (r.1, [], r.2)

/-- Debug is locked. -/
def State.lockDebug (s : State) : State := (s.onPithead fun q => { q with debugUnlocked := false }).extendM3 5

/-- DEBUG_LOCK. -/
def execDebugLock (p : Port2) (s : State) : Out := mailboxRun p 0x0A s fun _ _ s => (.ok, [], s.lockDebug)

/-- A write of SECURITY.LOCK. -/
def State.lockWrite (s : State) (v : Nat) : State :=
  if bit v 0 && !s.pithead.lock then (s.onPithead fun q => { q with lock := true }).extendM3 2 else s

/-- LOCK. -/
def execLock (w : Requester) (v : Word) (s : State) : Out := .next (s.keeperPut w (pageSecurity 0) fun s => s.lockWrite v.toNat)

end Sys2Proof.Machine
end

