-- ==== Sys2Proof/Machine/Bringup.lean ====
section
/-! DEFINITION. Bring-up, the harvest map and the wide resets (R33 to R38, R464 to R471, R485, R487, R488, R553). -/

namespace Sys2Proof.Machine

/-- An entry of the pithead in a field's ERRLOG. -/
def State.raisePit (s : State) (f code : Nat) (sev : Severity) : State :=
  s.raise f (.space pagePithead) ⟨code, sev, 3, fieldWord f 0⟩

/-! ## The harvest map (R468 to R470) -/

def State.makeHole (s : State) (x : Site) : State :=
  if s.siteCode x = 5 ∨ x.foremanBlock then s
  else s.setEntry x (BitVec.ofNat 16 (putBits (s.siteEntry x).toNat 15 13 5))

/-- The copy of the map that a boot takes: the valid one with the higher generation. -/
def Flash.bestMap (fl : Flash) : Option MapCopy :=
  match fl.map0.valid, fl.map1.valid with
  | true, true => some (if fl.map0.gen < fl.map1.gen then fl.map1 else fl.map0)
  | true, false => some fl.map0
  | false, true => some fl.map1
  | false, false => none

/-- A flash write of the map or of the journal has failed: the job's record says so, and the live map still applies. -/
def State.journalFails (s : State) : State :=
  (s.onPithead fun p => { p with job := p.job.map fun q => { q with journalFail := true } }).raisePit 0 0x1108 .contained

/-- The whole live map is written over the older copy, its header last, and the journal ends. A write that fails leaves that
copy with a CRC that is not good, and the journal as it was. -/
def State.writeMap (s : State) (ok : Bool) : State :=
  let m : MapCopy := ⟨s.pithead.harvestGen, s.harvest, ok⟩
  let fl := s.flash
  let first := !fl.map0.valid || (fl.map1.valid && decide (fl.map0.gen ≤ fl.map1.gen))
  let fl := if first then { fl with map0 := m } else { fl with map1 := m }
  if ok then { s with flash := { fl with journal := [], journalDirty := [] } } else { s with flash := fl }.journalFails

/-- The live map at boot: the copy, and above its generation the journal in order. -/
def State.loadMap (s : State) (m : MapCopy) : State :=
  let news := s.flash.journal.filter fun j => decide (m.gen < j.2.2)
  let h := news.foldl (fun (h : SMap (BitVec 16)) j =>
    if j.1 < 322560 then h.set (fun _ => 0) j.1 (BitVec.ofNat 16 j.2.1) else h) m.sites
  { s with
    harvest := h
    pithead := { s.pithead with harvestGen := news.foldl (fun g j => max g j.2.2) m.gen } }

/-- A journal of 1,024 entries or more: the whole map is written. -/
def State.fullJournal (s : State) (mapOk : Bool) : State := if 1024 ≤ s.flash.journal.length then s.writeMap mapOk else s

/-- JOURNAL_WRITE: the oldest change still to be written goes to flash, or fails to; the map follows once the journal is full. -/
def execJournalWrite (ok mapOk : Bool) (s : State) : Out :=
  match s.flash.journalDirty with
  | [] => .next (s.fullJournal mapOk)
  | j :: rest =>
    let s := { s with flash := { s.flash with journalDirty := rest } }
    if ok then .next (State.fullJournal { s with flash := { s.flash with journal := s.flash.journal ++ [j] } } mapOk)
    else .next s.journalFails

/-- Shapes the holes of the map into rectangles, and marks the sites inside HOLE (R35). Interiors of parked and lost
fields stay holes of the route map. -/
def State.shapeHoles (s : State) : State :=
  let dead := s.harvest.filterMap fun e => if bits e.2.toNat 15 13 = 5 then some (Site.ofKey e.1) else none
  let rects := dead.foldl (fun l x => addHole (l.length + 49) ⟨x.x.val, x.x.val, x.y.val, x.y.val, false⟩ l) []
  let s := (rects.flatMap Hole.sites).foldl (fun s x => s.makeHole x) s
  let dark := (s.holes.filter (·.parked))
  { s with holes := dark ++ rects, fenced := [], routePending := none }

/-! ## The adit's tree (R29) -/

/-- A node's primary or alternate parent; none is the pithead. -/
def aditParent (f : Nat) (alt : Bool) : Option Nat :=
  if alt then some (if f % 8 = 0 then f + 1 else f - 1) else if f < 8 then none else some (f - 8)
/-- Whether the path from the pithead through the selected parents leads to a node; the fuel bounds its length. -/
def State.aditPath (s : State) : Nat → Nat → Bool
  | 0, _ => false
  | n + 1, f =>
    !(s.field f).unreachable &&
      match aditParent f (s.field f).altParent with
      | none => true
      | some g => s.aditPath n g
/-- Whether the pithead reaches a field's node. -/
def State.adits (s : State) (f : Nat) : Bool := s.aditPath 48 f
/-- The pithead selects a parent at bring-up: the primary, unless no path leads through it. -/
def State.selectParent (s : State) (f : Nat) : State :=
  let s := s.onField f fun fl => { fl with altParent := false, unreachable := false }
  if s.adits f then s else s.onField f fun fl => { fl with altParent := true }

/-- Whether PITHEAD.RESET and HARVEST_CTRL take requests: in state READY or HALTED, with no bring-up running (R488). -/
def State.settled (s : State) : Bool := (s.pithead.boot == .ready || s.pithead.boot == .halted) && !s.bringing

/-! ## One field (R465 to R467) -/

/-- Foreman memory after step 2: zero, with the firmware of the running release loaded through the adit. -/
def State.foremanImage (s : State) : SMap Byte :=
  match s.flash.slot s.pithead.slot with
  | some r =>
    match imageSpans (r.nats.take 4096) with
    | _ :: (a, n) :: _ =>
      (List.range n).foldl (fun m i =>
        m.set (fun _ => 0) ((Config.foremanImageAt + i) % 2 ^ 24) (r.bytes.getD (a + i) 0)) []
    | _ => []
  | none => []

/-- A field is lost (R466). -/
def State.fieldLost (s : State) (f : Nat) : State :=
  let s := ((s.closeInterior f).interiorOff f).avsPut f 0
  let first := !(s.field f).lost
  let s := s.onField f fun fl => { fl with bringup := .lost, power := .parked, lost := true, testMode := 0 }
  let s := if first then s.countChange (322560 + f) 1 else s
  (s.faultEntry 6 0 (fieldWord f 0) 1 0).raisePit f 0x1104 .contained

/-- The entry that a site's tests give (R467, R468). -/
def SiteFault.entry (t : SiteFault) : BitVec 16 :=
  match t with
  | .router => BitVec.ofNat 16 (5 * 2 ^ 13)
  | .control => BitVec.ofNat 16 (4 * 2 ^ 13)
  | .columns [] => 0
  | .columns [a] => BitVec.ofNat 16 (1 * 2 ^ 13 + a.val)
  | .columns [a, b] => BitVec.ofNat 16 (2 * 2 ^ 13 + b.val * 2 ^ 6 + a.val)
  | .columns _ => BitVec.ofNat 16 (3 * 2 ^ 13)

/-- The tests of a field's sites: a re-check only worsens a state, a full harvest builds the map afresh. -/
def State.testSites (s : State) (f mode : Nat) (tests : List (Site × SiteFault)) : State :=
  let found (x : Site) : BitVec 16 := ((tests.find? fun t => t.1 == x).map fun t => SiteFault.entry t.2).getD 0
  (fieldSites f).foldl (fun s x =>
    let e := found x
    if mode = 2 ∨ s.siteCode x < bits e.toNat 15 13 then s.setEntry x e else s) s

/-- A link to a field already brought up, or to a lost one, whose galleries forward as well. -/
def State.stitched (s : State) (f : Nat) (x y : Site) : Bool :=
  x.field == f && y.field != f &&
    ((s.field y.field).bringup == .up || (s.field y.field).bringup == .foremanStopped || (s.field y.field).bringup == .lost)

/-- A stitch link fails: both of its routers become HOLE. -/
def State.stitchFails (s : State) (f : Nat) (q : Site × Side) : State :=
  match (neighbour q.1.x.val q.1.y.val q.2).bind fun n => Site.at? n.1 n.2 with
  | some y =>
    if s.stitched f q.1 y then
      let s := ((s.makeHole q.1).makeHole y).onField f fun fl => { fl with stitchFailed := min 255 (fl.stitchFailed + 1) }
      s.raisePit f 0x1105 .contained
    else s
  | none => s

/-- A field that has come up, its rail at the step-0 set point: it runs at step 0 with envelope 0. Banks that VCORE has kept keep their contents (R485). -/
def State.fieldUp (s : State) (f : Nat) : State :=
  let kept := (s.field f).vcoreOn
  let shut := s.holes.contains (interiorHole f)
  let was := (s.field f).lost
  let s := s.avsNow f (s.setPoint f 0)
  let s := s.onField f fun fl => { fl with
    bringup := .up, power := .run, vcoreOn := true, isolated := false, pllLocked := true, clockGated := false, step := 0, stepUp := none
    envelope := ⟨0, 1⟩, duty := ⟨0, 1⟩, gate := ⟨1, 1⟩, onGalClk := false, foremanUp := true
    foremanMem := s.foremanImage, foremanTallies := [], lost := false, testMode := 0, foremanSeen := s.time, pitSent := s.time
    beatSent := s.time }
  let s := if was then s.countChange (322560 + f) 0 else s
  let s := if shut then s.scount (pageGallery f + 0x044) 1 else s
  (if kept then s else s.wakeCores f).openInterior f

/-- The steps of R465 for a field whose turn has come. -/
def State.bringUpField (s : State) (f : Nat) (r : FieldTest) : State :=
  let mode := (s.field f).testMode
  if !r.powerOk || !r.foremanOk then s.fieldLost f
  else
    let s := if mode = 0 then s else s.testSites f mode r.sites
    let s := if mode = 0 then s else r.stitch.foldl (fun s q => s.stitchFails f q) s
    let s := if mode = 0 then s else (r.entries.filter fun x => x.field == f).foldl (fun s x => s.makeHole x) s
    s.fieldUp f

/-- FIELD_BRINGUP. A field whose node is reached by no path fails its first step (R466). -/
def execFieldBringup (f : FieldNo) (r : FieldTest) (s : State) : Out :=
  if s.pithead.inReset || s.flash.stopped || (s.field f.val).bringup != .testing then .next s
  else .next (if s.adits f.val then s.bringUpField f.val r else s.fieldLost f.val)

/-! ## The stages (R464) -/

/-- The fields of a ring that are brought up now: parked ones stay parked (R485). -/
def State.startRing (s : State) (ring : Nat) : State :=
  let due := (List.range 48).filter fun f =>
    FieldNo.ring (Fin.ofNat 48 f) == ring && ((s.field f).bringup == .down || (s.field f).bringup == .lost) &&
      !(s.field f).unreachable
  if s.flash.stopped then s
  else due.foldl (fun s f => s.onField f fun fl => { fl with
    bringup := .testing, testMode := if s.pithead.mode = 1 then 0 else s.pithead.mode + (decide (s.pithead.mode = 0)).toNat }) s

/-- Whether every field whose bring-up has started has ended it. -/
def State.ringDone (s : State) : Bool := (List.range 48).all fun f => (s.field f).bringup != .testing

/-- Bytes of a stack are lost. -/
def State.clearStack (s : State) (n : Nat) : State :=
  let size := 32 * (24 * 2 ^ 25)
  { s with
    hbm := s.hbm.filter fun e => e.1 / size != n, hbmEcc := s.hbmEcc.filter fun e => e.1 * 32 / size != n }

/-- Stacks train: each that is not UP becomes UP, its contents lost, or OFFLINE. -/
def State.trainStack (s : State) (n : Nat) (ok : Bool) : State :=
  if s.stackState n = 2 ∧ s.pithead.mode ≠ 2 then s
  else
    let s := { s.clearStack n with stackPorts := s.stackPorts.set (fun _ => 0) n (if ok then 2 else 3) }
    if ok then s else s.raiseStack n 0x0B03 .jobFatal

/-- The adit's delays are measured and each node's copy of engine time is set, within ±8 ns (R429, R463). -/
def State.setNode (s : State) (f : Nat) : State :=
  let s := s.selectParent f
  if !s.adits f then s
  else
    let v := s.fresh
    v.2.onField f fun fl => { fl with
      skew := (Config.freeValue v.1 0 % 17 : Nat) - (8 : Int), slewLeft := 0, nodeSet := true, delay := Config.freeValue v.1 1 }

/-- Enabled sites outside lost fields. -/
def State.enabledCount (s : State) : Nat :=
  ((List.range 48).map fun f =>
    if (s.field f).lost then 0 else s.siteCount f fun k => k == 0).foldl (· + ·) 0

/-- Stage 6. Its last part waits until every change of a site is journalled; a full harvest writes the whole map. -/
def State.stage6 (s : State) (mapOk : Bool) : State :=
  let full := decide (s.pithead.mode = 2)
  let s := if full then s.fenced.foldl (fun s k => s.makeHole (Site.ofKey k)) s else s
  let s := if s.pithead.mode = 1 then s else s.shapeHoles
  let s := if full then (s.onPithead fun p => { p with harvestGen := (p.harvestGen + 1) % 2 ^ 32 }).writeMap mapOk else s
  if !full ∧ s.flash.journalDirty ≠ [] then s
  else
    let s := if s.enabledCount < 300000 then s.raisePit 0 0x1107 .corrected else s
    s.onPithead fun p => { p with boot := if p.boot = .halted then .halted else .ready, stage := 7, mode := 0 }

/-- A bring-up stage runs. -/
def State.stage (s : State) (r : StageResult) : State :=
  let next (s : State) (n : Nat) : State := s.onPithead fun p => { p with stage := n }
  match s.pithead.stage with
  | 1 =>
    let s := s.romBoot
    if s.pithead.boot = .failed then s
    else
      match s.flash.bestMap with
      | some m => next ((s.loadMap m).onPithead fun p => { p with boot := .bringup }) 2
      | none => next (s.onPithead fun p => { p with boot := .harvesting, mode := 2 }) 2
  | 2 =>
    let s := (List.range 32).foldl (fun s n => s.trainStack n (r.stackPorts.getLsbD n)) s
    let s := (List.range 48).foldl (fun s f => s.setNode f) s
    next (s.startRing 0) 3
  | 3 => if s.ringDone then next (s.startRing 1) 4 else s
  | 4 => if s.ringDone then next (s.startRing 2) 5 else s
  | 5 => if s.ringDone then next s 6 else s
  | 6 => s.stage6 r.mapWritten
  | _ => s

/-- BRINGUP_STAGE. -/
def execBringupStage (r : StageResult) (s : State) : Out :=
  .next (if s.pithead.inReset || s.pithead.boot == .failed then s else s.stage r)

/-! ## Module cold reset (R485, R553) -/

/-- A link's going-down frame as a reset begins. -/
def Seam.goneDown (l : Seam) : Seam :=
  if l.state = .up then
    { Seam.reset with out := some l.goingDown }
  else Seam.reset

/-- What flash holds after a module cold reset: the boot is counted, a cleared stop is released. Of the changes that wait for
the journal at most the one being written, the oldest, is lost; `lost` says whether it is. -/
def Flash.coldReset (fl : Flash) (lost : Bool) : Flash :=
  { fl with
    boots := (fl.boots + 1) % 2 ^ 64, journal := fl.journal ++ (if lost then fl.journalDirty.drop 1 else fl.journalDirty)
    journalDirty := []
    stopped := fl.stopped && !fl.stopCleared, stopCleared := false }

/-- MODULE_COLD_RESET. -/
def execModuleColdReset (s : State) : Out :=
  let v := s.cutWrite.fresh
  .next { State.reset with
    pending := s.pending, freeCtr := v.2.freeCtr, hostA := s.hostA, hostB := s.hostB
    flash := v.2.flash.coldReset (bit (Config.freeValue v.1 0) 0)
    pithead := { Pithead.reset with nextLeaf := v.2.flash.reserveEnd }
    seams := s.seams.mapVals (fun _ => Seam.reset) fun _ l => Seam.goneDown l }

/-- RESET_RELEASE: bring-up begins, with COOLANT_OK as the pin then stands. No field has power yet: every interior is closed, and
the galleries run on GAL_CLK. -/
def execResetRelease (coolantOk : Bool) (s : State) : Out :=
  if !s.pithead.inReset then .next s
  else
    let s := (List.range 48).foldl (fun s f => (s.closeInterior f).onField f fun fl => { fl with onGalClk := true }) s
    .next (s.onPithead fun p => { p with inReset := false, resetLow := false, coolantOk := coolantOk, stage := 1, mode := 0 })

/-! ## Engine warm reset (R485, R488) and full harvest (R471) -/

/-- WAITING slates end ABORTED with cause WARM_RESET. -/
def State.cancelWaiting (s : State) (p : Nat) : State :=
  let waits (o : Option Slate) : Option Slate := o.filter fun sl => sl.state == .waiting
  let e := JobEnd.aborted 0x1109
  let s := match waits (s.port p).next with
    | some sl => ((s.slateRecord p sl e 0 0).nextGone p sl).raisePit 0 0x1109 .corrected
    | none => s
  match waits (s.port p).cur with
  | some sl => ((s.slateRecord p sl e 0 0).slateGone p sl).raisePit 0 0x1109 .corrected
  | none => s

/-- The job in progress ends without a drain, with its record. -/
def State.cutJob (s : State) : State :=
  let live := s.liveJob.isSome
  let s := s.endNow (.aborted 0x1109)
  let s := if live then s.raisePit 0 0x1109 .corrected else s
  let s := (List.range 208).foldl (fun s h => s.hoistAbort h) s
  match s.pithead.job with
  | some j => match j.ended with
    | some e => s.jobOver j e
    | none => s
  | none => s

/-- A field in a warm reset. While the engine is stopped it stays as the stop left it, and a parked field stays parked; a field
reset in progress is abandoned all the same (R488). -/
def State.warmField (s : State) (f : Nat) : State :=
  let fl := s.field f
  let parked := fl.power == .parked && fl.bringup != .lost && s.pithead.mode != 2
  let left : Bringup := if fl.bringup != .testing then fl.bringup else if parked then .up else .down
  if s.flash.stopped || parked then
    (s.defaultEids f).onField f fun fl => { fl with bringup := left, testMode := 0, resetDue := false }
  else (s.fieldReset f).onField f fun fl => { fl with bringup := .down, testMode := 0 }

/-- Registers of a hoist and of a seam link that a warm reset returns to their Reset values (R319, R399). -/
def State.warmHoist (s : State) (h : Nat) : State :=
  { s with regs := s.regs.filter fun e => !(e.1 / 32 == (pageHoist h + 0x060) / 32) }
def State.warmSeam (s : State) (n : Nat) : State :=
  let ctrl := s.sregBits (seamCtrl n) 13 8
  let chip := s.sreg (pageSeam n + 0x080)
  ((s.resetPage (pageSeam n)).setSreg (seamCtrl n) (BitVec.ofNat 32 (ctrl * 2 ^ 8))).setSreg (pageSeam n + 0x080) chip

/-- An engine warm reset; mode 2 goes on as a full harvest. -/
def State.warmReset (s : State) (mode : Nat) : State :=
  let s := s.cutJob
  let s := (s.cancelWaiting 0).cancelWaiting 1
  let s := (List.range 208).foldl (fun s h => s.warmHoist h) s
  let s := (List.range 96).foldl (fun s n => s.warmSeam n) s
  let s := { s with seams := s.seams.mapVals (fun _ => Seam.reset) fun _ l => Seam.goneDown l }
  let s := s.onPithead fun p => { p with
    boot := if mode = 2 then .harvesting else .bringup, stage := 2, mode := mode, adit := [] }
  let s := { (List.range 48).foldl (fun s f => s.warmField f) s with net := [], links := [] }
  if s.pithead.debugUnlocked then s.lockDebug else s

/-- A write of PITHEAD.RESET by the keeper: its field number, and a warm reset where asked for. One asked for while
bring-up runs is discarded. -/
def State.pitResetWarm (s : State) (v : Nat) : State :=
  if bit v 31 && s.settled then s.warmReset 1 else s

/-- A request for a field reset (R487). -/
def State.pitResetField (s : State) (v : Nat) : State :=
  let f := bits v 5 0
  let st : Status := if 48 ≤ f then .denied else if s.jobUses f && s.liveJob.isSome then .busy else .ok
  if !bit v 30 || !s.settled then s
  else
    let s := s.setSregBits (pagePithead + 0x050) 23 16 st.code
    if st = .ok then s.fieldReset f else s

/-- A write of PITHEAD.RESET. -/
def State.pitResetWrite (s : State) (v : Nat) : State :=
  let s := s.setSregBits (pagePithead + 0x050) 5 0 (bits v 5 0)
  if bit v 31 then s.pitResetWarm v else s.pitResetField v

/-- ENGINE_WARM_RESET. -/
def execEngineWarmReset (w : Requester) (v : Word) (s : State) : Out :=
  .next (s.keeperPut w pagePithead fun s => s.pitResetWrite v.toNat)

/-- FIELD_RESET_REQUEST. -/
def execFieldResetRequest (w : Requester) (v : Word) (s : State) : Out :=
  .next (s.keeperPut w pagePithead fun s => s.pitResetWrite v.toNat)

/-- A write of HARVEST_CTRL. -/
def State.harvestWrite (s : State) (v : Nat) : State :=
  let busy := s.liveJob.isSome || !s.settled
  let st : Status := if busy then .busy else if s.flash.stopped then .denied else .ok
  if !bit v 31 then s
  else
    let s := s.setSregBits (pagePithead + 0x044) 23 16 st.code
    if st = .ok then s.warmReset 2 else s

/-- FULL_HARVEST. -/
def execFullHarvest (w : Requester) (v : Word) (s : State) : Out :=
  .next (s.keeperPut w pagePithead fun s => s.harvestWrite v.toNat)

end Sys2Proof.Machine
end

