-- ==== Sys2Proof/Machine/Foreman.lean ====
section
/-! DEFINITION. Heartbeats between foremen, cores and the pithead, and the loss of a foreman (R474, R475, R480, R483,
R484). -/

namespace Sys2Proof.Machine

/-- Whether a field's foreman sends heartbeats: not while the field is parked, lost or clock-gated by a stop (R474). -/
def Field.beats (fl : Field) : Bool := fl.foremanUp && fl.clocked && fl.bringup == .up

/-- A foreman's heartbeat to a site, or its echo. -/
def State.beatTo (s : State) (f : Nat) (x : Site) (data : Nat) : State :=
  s.sendForeman f (Packet.head .heartbeat (s.coreEid x) (s.chip * 2 ^ 20 + eidForeman f) 0 0 f data)

/-- When the next round of a field's heartbeats is due: a period after the last, in ns; periods below 10 µs act as 10. -/
def State.beatDue (s : State) (f : Nat) : Nat :=
  (s.field f).beatSent + 1000 * max 10 (s.sregBits (pageFieldctl f + 0x0A4) 15 0)

/-- HEARTBEAT_SEND: one beat to every site whose core works, once a period. -/
def execHeartbeatSend (f : FieldNo) (s : State) : Out :=
  if !(s.field f.val).beats then .next s
  else
    let s := s.elapseTo (s.beatDue f.val)
    let fl := s.field f.val
    let sites := (fieldSites f.val).filter fun x => decide (s.siteCode x ≤ 3) && !s.fenced.contains x.key
    let n := fl.beatNo % 2 ^ 32
    let s := s.setField f.val { fl with
      beatNo := n + 1, beatSent := s.time, unanswered := fl.unanswered ++ sites.map fun x => (x.key, n, s.time) }
    .next (sites.foldl (fun s x => s.beatTo f.val x n) s)

/-- HEARTBEAT: a core's control logic answers; an echo is returned by the router itself. -/
def execHeartbeat (p : Packet) (s : State) : Out :=
  match Site.at? p.tx p.ty with
  | some x =>
    let echo := bit p.data 63
    if p.ptype ≠ .heartbeat || p.port ≠ .local_ || bit p.data 62 || !s.forwards x || !s.lands p then .next s
    else if !echo && !s.coreClocked x then .next s
    else
      let s := s.consume p
      if p.poisoned then
        .next (s.inject x.key ((p.notice (s.coreEid x) .poisoned).toward (foremanTap x.field x)))
      else
        let q := Packet.head .heartbeat p.src (s.coreEid x) p.tag p.job p.arg
          (bits p.data 31 0 + 2 ^ 62 + echo.toNat * 2 ^ 63)
        .next (s.inject x.key (q.toward (foremanTap x.field x)))
  | none => .next s

/-- The site that a heartbeat comes from, if it is one of the field. -/
def State.beatFrom (s : State) (f : Nat) (p : Packet) : Option Site := (s.siteOf (eidLocal p.src)).filter fun x => x.field == f

/-- HEARTBEAT_ANSWER: the beat is answered within 10 µs, and the site has missed none in a row. A later answer changes nothing. -/
def execHeartbeatAnswer (p : Packet) (s : State) : Out :=
  if !bit p.data 62 || bit p.data 63 then .next s
  else .next <| s.foremanTakes p .heartbeat fun s f =>
    match s.beatFrom f p with
    | some x =>
      let fl := s.field f
      if fl.unanswered.any fun u => u.1 == x.key && u.2.1 == bits p.data 31 0 && decide (s.time ≤ u.2.2 + 10000) then
        s.setField f { fl with
          unanswered := fl.unanswered.filter fun u => !(u.1 == x.key && u.2.1 == bits p.data 31 0)
          misses := fl.misses.set (fun _ => 0) x.key 0 }
      else s
    | none => s

/-- HEARTBEAT_MISS: 10 µs have passed since a site's oldest unanswered beat. After enough in a row the foreman sends an
echo. Nothing is missed while the field's heartbeats pause. -/
def execHeartbeatMiss (x : Site) (s : State) : Out :=
  let f := x.field
  match (s.field f).unanswered.find? fun u => u.1 == x.key && (s.field f).beats with
  | none => .next s
  | some u =>
    let s := s.elapseTo (u.2.2 + 10000)
    let fl := s.field f
    let n := fl.misses.get (fun _ => 0) x.key + 1
    let limit := max 1 (s.sregBits (pageFieldctl f + 0x0A4) 19 16)
    let echo := decide (limit ≤ n) && !(fl.echoes.any fun e => e.1 == x.key)
    let s := s.setField f { fl with
      unanswered := fl.unanswered.erase u, misses := fl.misses.set (fun _ => 0) x.key n
      echoes := if echo then fl.echoes ++ [(x.key, s.time)] else fl.echoes }
    .next (if echo then s.beatTo f x (2 ^ 63) else s)

/-- ECHO_RETURN: within 10 µs of its sending. The router works, and the core is sealed. -/
def execEchoReturn (p : Packet) (s : State) : Out :=
  if !bit p.data 63 || !bit p.data 62 then .next s
  else .next <| s.foremanTakes p .heartbeat fun s f =>
    match s.beatFrom f p with
    | some x =>
      if (s.field f).echoes.any fun e => e.1 == x.key && decide (s.time ≤ e.2 + 10000) then s.sealCore x 4 else s
    | none => s

/-- ECHO_TIMEOUT: the echo has not come back within 10 µs; the router has died. -/
def execEchoTimeout (x : Site) (s : State) : Out :=
  match (s.field x.field).echoes.find? fun e => e.1 == x.key && (s.field x.field).beats with
  | some e => .next (((s.elapseTo (e.2 + 10000)).onField x.field fun fl => fl.forget x.key).routerDies x)
  | none => .next s

/-! ## The pithead's watch (R483, R484) -/

/-- A foreman's heartbeat on its way to the pithead (R333). -/
def State.pitBeatOf (s : State) (f : Nat) : Option Flight := s.net.find? fun q =>
  q.pkt.ptype == .heartbeat && q.pkt.src == s.chip * 2 ^ 20 + eidForeman f && q.pkt.dst == s.chip * 2 ^ 20 + eidPithead
/-- The foreman sends its next one, 100 µs after the last. -/
def State.sendPitBeat (s : State) (f : Nat) : State :=
  let s := s.elapseTo ((s.field f).pitSent + 100000)
  let n := (s.field f).pitBeat % 2 ^ 32
  (s.onField f fun fl => { fl with pitBeat := n + 1, pitSent := s.time }).sendForeman f
    (Packet.head .heartbeat (s.chip * 2 ^ 20 + eidPithead) (s.chip * 2 ^ 20 + eidForeman f) 0 0 f (n + 2 ^ 61))

/-- FOREMAN_HEARTBEAT: one that has reached the pithead is taken; where none is on its way, the foreman sends the next. -/
def execForemanHeartbeat (f : FieldNo) (s : State) : Out :=
  match s.pitBeatOf f.val with
  | some q =>
    if s.atPithead q.pkt then
      let s := s.consume q.pkt
      .next (if s.pithead.inReset then s else s.onField f.val fun fl => { fl with foremanSeen := s.time })
    else .next s
  | none => .next (if (s.field f.val).beats then s.sendPitBeat f.val else s)

/-- A foreman is lost: its job drains, and its field is reset once the job has ended. -/
def State.foremanLost (s : State) (f : Nat) : State :=
  let s := s.onField f fun fl => { fl with foremanUp := false, bringup := .foremanStopped, resetDue := true }
  let s := (s.faultEntry 6 0 (fieldWord f 0) 2 0).raisePit f 0x1103 .jobFatal
  if s.jobUses f then s else s.fieldReset f

/-- FOREMAN_LOST: 300 µs have passed without a heartbeat. The pithead reads FIELDCTL.BRINGUP through the adit; where no path
leads to the node, or the foreman has stopped, by itself (`stopped`) or for FOREMAN_RESET, the foreman is lost. -/
def execForemanLost (f : FieldNo) (stopped : Bool) (s : State) : Out :=
  let fl := s.field f.val
  if s.pithead.inReset || !(fl.bringup == .up || fl.bringup == .foremanStopped) || !fl.clocked || fl.resetDue then .next s
  else
    let s := ((s.elapseTo (fl.foremanSeen + 300000)).onPithead fun p => { p with aditSeq := (p.aditSeq + 1) % 16 }).dropLatch
      .pithead (pageFieldctl f.val)
    .next (if !s.adits f.val || stopped || fl.bringup == .foremanStopped then s.foremanLost f.val else s)

end Sys2Proof.Machine
end

