-- ==== Sys2Proof/Machine/Host.lean ====
section
/-! DEFINITION. The keeper (R407 to R410), arming and cancelling slates (R411, R412, R419), and the host ports' links and
resets (R401, R423). -/

namespace Sys2Proof.Machine

def State.flagRefused (s : State) (p : Nat) : State := s.setSflag (pageHostport p + 0x044) 0

/-! ## The keeper (R409, R410) -/

def State.keeperPort (s : State) : Nat := s.pithead.keeperB.toNat

/-- A write of HOSTPORT.HEARTBEAT by a port. -/
def State.keeperBeat (s : State) (p : Nat) : State :=
  if s.keeperPort = p then s.onPithead fun q => { q with heartbeat := s.time, lapsed := false } else s

/-- KEEPER_HEARTBEAT. -/
def execKeeperHeartbeat (p : Port2) (s : State) : Out := .next (s.pagePut (hostOf p.val) (pageHostport p.val) fun s => s.keeperBeat p.val)

/-- KEEPER_LAPSED: the limit is that of the keeper's own page. -/
def execKeeperLapsed (s : State) : Out :=
  let k := s.keeperPort
  let ms := s.sregBits (pageHostport k + 0x060) 15 0
  if !s.served || s.pithead.lapsed || ms == 0 then .next s
  else
    let s := s.elapseTo (s.pithead.heartbeat + ms * 1000000)
    let s := s.onPithead fun q => { q with lapsed := true }
    .next ((s.raiseHost k 0x0F01 .corrected).msix (1 - k) 32)

/-- The other port becomes keeper. -/
def State.keeperMoves (s : State) : State :=
  let s := s.onPithead fun q => { q with keeperB := !q.keeperB, lapsed := false, heartbeat := s.time }
  ((s.raiseHost s.keeperPort 0x0F02 .corrected).msix 0 32).msix 1 32

/-- A port asks to take over. -/
def State.takeover (s : State) (p : Nat) : State :=
  if s.pithead.lapsed && s.keeperPort != p then s.keeperMoves else s.flagRefused p
/-- A port hands over to the other. -/
def State.handover (s : State) (p : Nat) : State :=
  if s.keeperPort == p && s.sregBit (pageHostport (1 - p) + 0x040) 8 then s.keeperMoves else s.flagRefused p

/-- A write of HOSTPORT.KEEPER by a port: a handover is applied before a takeover. -/
def State.keeperReg (s : State) (p v : Nat) : State :=
  let s := if bit v 3 then s.handover p else s
  if bit v 2 then s.takeover p else s

/-- TAKEOVER. -/
def execTakeover (p : Port2) (s : State) : Out := .next (s.pagePut (hostOf p.val) (pageHostport p.val) fun s => s.takeover p.val)
/-- HANDOVER. -/
def execHandover (p : Port2) (s : State) : Out := .next (s.pagePut (hostOf p.val) (pageHostport p.val) fun s => s.handover p.val)

/-! ## Arming (R411, R412) -/

/-- The staged slate's bytes. -/
def State.slateBytes (s : State) (p : Nat) : List Nat :=
  (List.range 8).flatMap fun i => leBytes 4 (s.sreg (pageJob p + 0x040 + 4 * i)).toNat

/-- What the checks of an arm find. -/
def State.armStatus (s : State) (p : Nat) (bs : List Nat) : Status :=
  let image := leNat (cut bs 0 8)
  let cmpl := leNat (cut bs 8 8)
  let hp := s.port p
  if 2 ^ 48 ≤ image ∨ 15 < bs.getD 24 0 ∨ 2 ≤ bs.getD 25 0 ∨ leNat (cut bs 28 4) ≠ 0 then .formatInvalid
  else if 0xC000000000 ≤ image ∨ image % 64 ≠ 0 ∨ cmpl % 32 ≠ 0 then .addrRange
  else if hp.cur.isSome && hp.next.isSome then .busy
  else .ok

def State.nextJobId (s : State) : Nat := if s.pithead.jobCtr = 0xFFFF then 1 else s.pithead.jobCtr + 1

/-- A write of JOB.ARM. -/
def State.armWrite (s : State) (p v : Nat) : State :=
  if !bit v 31 then s
  else
    let bs := s.slateBytes p
    let st := s.armStatus p bs
    let r := pageJob p + 0x060
    if st ≠ .ok then s.setSregBits r 23 16 st.code
    else
      let hp := s.port p
      let id := s.nextJobId
      let sl : Slate := ⟨.waiting, leNat (cut bs 0 8), leNat (cut bs 8 8), leNat (cut bs 16 8), bs.getD 24 0,
        bs.getD 25 0 % 2 == 1, leNat (cut bs 26 2), id, hp.armSeq⟩
      let hp := { hp with armSeq := (hp.armSeq + 1) % 2 ^ 32 }
      let hp := if hp.cur.isNone then { hp with cur := some sl } else { hp with next := some sl }
      let s := (s.setPort p hp).onPithead fun q => { q with jobCtr := id, runOrder := q.runOrder ++ [(p, sl.seq)] }
      (s.setSregBits r 23 16 0).setSregBits r 15 0 id

/-- JOB_ARM. -/
def execJobArm (p : Port2) (v : Word) (s : State) : Out :=
  .next (s.pagePut (hostOf p.val) (pageJob p.val) fun s => s.armWrite p.val v.toNat)

/-! ## Cancels (R419) -/

/-- A slate that is loading is cancelled: the fields of its job are left in the empty shift. -/
def State.cancelLoading (s : State) (p : Nat) (sl : Slate) : State :=
  let used := (s.pithead.job.map (·.fields)).getD 0
  let s := (List.range 48).foldl (fun s f => if bit used f && (s.field f).vcoreOn then s.resetCores f else s) s
  (s.onPithead fun q => { q with job := none, canary := [] }).slateEnds p sl (.aborted 0)

/-- JOB.CANCEL.current. -/
def State.cancelCurrent (s : State) (p : Nat) : State :=
  match (s.port p).cur with
  | some sl =>
    match sl.state with
    | .waiting => s.slateEnds p sl (.aborted 0)
    | .loading => s.cancelLoading p sl
    | .running => s.endJob (.aborted 0)
    | .draining | .empty => s
  | none => s

/-- JOB.CANCEL.next. -/
def State.cancelNext (s : State) (p : Nat) : State :=
  match (s.port p).next with
  | some sl => (s.slateRecord p sl (.aborted 0) 0 0).nextGone p sl
  | none => s

/-- A write of JOB.CANCEL: both bits name the slates as they stand. -/
def State.cancelWrite (s : State) (p v : Nat) : State :=
  let s := if bit v 1 then s.cancelNext p else s
  if bit v 0 then s.cancelCurrent p else s

/-- CANCEL_CURRENT. -/
def execCancelCurrent (p : Port2) (s : State) : Out := .next (s.pagePut (hostOf p.val) (pageJob p.val) fun s => s.cancelCurrent p.val)
/-- CANCEL_NEXT. -/
def execCancelNext (p : Port2) (s : State) : Out := .next (s.pagePut (hostOf p.val) (pageJob p.val) fun s => s.cancelNext p.val)

/-! ## Links and port reset (R423, R424) -/

/-- A port reset. -/
def State.portReset (s : State) (p : Nat) : State :=
  let limit := s.sreg (pageHostport p + 0x060)
  let s := (s.resetPage (pageHostport p)).setSreg (pageHostport p + 0x060) limit
  let s := (List.range 16).foldl (fun s h =>
    let k := 128 + 16 * p + h
    if (s.hoist k).job = 0 then s.hoistAbort k else s) s
  let drop (o : Option Slate) : Option Slate := o.filter fun sl => sl.state != .waiting
  let hp := s.port p
  let gone := [hp.cur, hp.next].filterMap fun o => (o.filter fun sl => sl.state == .waiting).map fun sl => (p, sl.seq)
  (s.setPort p { hp with cur := drop hp.cur, next := drop hp.next, msix := [], cfg := PciConfig.reset }).onPithead
    fun q => { q with runOrder := q.runOrder.filter fun e => !gone.contains e }

/-- PORT_RESET. -/
def execPortReset (p : Port2) (s : State) : Out := .next (if s.pithead.inReset then s else s.portReset p.val)

/-- HOST_LINK_UP: the width and the speed that the link negotiates are open among those of R401. -/
def State.linkUp (s : State) (p : Nat) : State :=
  let v := s.fresh
  let width := 2 ^ (Config.freeValue v.1 0 % 5)
  let speed := 1 + Config.freeValue v.1 1 % 5
  v.2.setSreg (pageHostport p + 0x040) (BitVec.ofNat 32 (2 ^ 8 + width * 2 ^ 3 + speed))
def execHostLinkUp (p : Port2) (s : State) : Out :=
  .next (if s.pithead.inReset || s.sregBit (pageHostport p.val + 0x040) 8 then s else s.linkUp p.val)

end Sys2Proof.Machine
end

