-- ==== Sys2Proof/Machine/Electrical.lean ====
section
/-! DEFINITION. The SMBus target (R550), the alert (R551) and the rim rails (R552). -/

namespace Sys2Proof.Machine

/-- Whether the pithead acknowledges its SMBus address: not in reset, and not while VAUX is not good. -/
def State.smbusOn (s : State) : Bool := !s.pithead.inReset && !bit s.pithead.railFault 48
/-- An SMBus read: its bytes, or nothing where the address is not acknowledged. -/
def State.smbus (s : State) (bs : List Nat) : State :=
  { s with reply := ⟨.ok, if s.smbusOn then bs.map (BitVec.ofNat 8) else [], .served⟩ }

def BootState.code : BootState → Nat
  | .rom => 0 | .bringup => 1 | .ready => 2 | .halted => 3 | .failed => 4 | .harvesting => 5
def State.broken (s : State) : Bool := s.pithead.boot == .halted || s.pithead.boot == .failed

/-- TRAY_ALERT_N is low. -/
def State.alert (s : State) : Bool :=
  !s.pithead.inReset && (s.flash.stopped || s.broken || s.pithead.capUnmet || s.pithead.railFault != 0)

/-- SMBUS_STATUS. -/
def execSmbusStatus (s : State) : Out :=
  let p := s.pithead
  .next (s.smbus [s.flash.stopped.toNat + 2 * s.broken.toNat + 4 * p.capUnmet.toNat + 8 * (p.railFault != 0).toNat +
    16 * p.stale.toNat + 32 * p.lapsed.toNat])

/-- BOOT_STATE. -/
def execBootState (s : State) : Out := .next (s.smbus [s.pithead.boot.code])

/-- SMBUS_POWER. -/
def execSmbusPower (s : State) : Out := .next (s.smbus (leBytes 2 (s.sregBits (pageModpwr + 0x05C) 15 0)))

/-- The hottest reading among fields that have a working sensor. -/
def State.hottest (s : State) : Option Int :=
  let read := (List.range 48).filterMap fun f =>
    let v := (s.sreg (pageFieldpwr f + 0x04C)).toNat
    if bits v 4 0 < 16 then some (sext 16 (bits v 31 16)) else none
  read.foldl (fun best t => match best with | some b => some (max b t) | none => some t) none

/-- TEMP: with no working sensor anywhere the value is open. -/
def execTemp (s : State) : Out :=
  match s.hottest with
  | some t => .next (s.smbus (leBytes 2 (wrap 16 t)))
  | none => let v := s.fresh; .next (v.2.smbus (leBytes 2 (Config.freeValue v.1 0)))

/-- RAIL_FAULT. -/
def execRailFault (s : State) : Out := .next (s.smbus (leBytes 8 s.pithead.railFault))
/-- SERIAL. -/
def execSerial (s : State) : Out := .next (s.smbus (leBytes 8 s.flash.serial))
/-- STOP_CAUSE. -/
def execStopCause (s : State) : Out := .next (s.smbus [if s.flash.stopped then s.flash.stopCause % 4 else 0])

/-- The PEC of a sent byte: a CRC-8 over the address byte and the command code. -/
def alertAckPec : Nat := crcBits 8 0x07 0 (bitsDown (0x5D * 2 * 2 ^ 8 + 0x10) 15 0)

/-- ALERT_ACK: the bits of rails that are back within tolerance clear. A PEC byte that the host sends is checked. -/
def execAlertAck (good : BitVec 55) (pec : Option Byte) (s : State) : Out :=
  .next (if s.smbusOn && pec.all fun b => b.toNat == alertAckPec then
    s.onPithead fun p => { p with railFault := bitSet 55 fun i => bit p.railFault i && !good.getLsbD i }
  else s)

/-- A stack port goes OFFLINE. -/
def State.stackLost (s : State) (n : Nat) : State :=
  if s.stackState n = 3 then s
  else { s with stackPorts := s.stackPorts.set (fun _ => 0) n 3 }.raiseStack n 0x0B03 .jobFatal

/-- What a rim rail takes with it: VAUX, VGAL, VSER_LO, VSER_HI, VSTK_PP, VSTK_CORE, VSTK_IO in order. -/
def State.railLost (s : State) (rail : Nat) : State :=
  if 4 ≤ rail then (List.range 32).foldl (fun s n => s.stackLost n) s
  else if 2 ≤ rail then
    let s := (List.range 96).foldl (fun s n =>
      if (s.seam n).state = .down then s.onSeam n fun l => { l with cause := 2 } else s.seamDown n 2) s
    (s.portReset 0).portReset 1
  else s

/-- RIM_RAIL_FAULT: 10 µs out of tolerance. -/
def execRimRailFault (rail : Fin 7) (s : State) : Out :=
  if s.pithead.inReset then .next s
  else .next ((s.onPithead fun p => { p with railFault := p.railFault ||| 2 ^ (48 + rail.val) }).railLost rail.val)

end Sys2Proof.Machine
end

