-- ==== Sys2Proof/Machine/Pages.lean ====
section
/-! DEFINITION. Register space (R403, R526 to R536, R540 to R542): what a read of each register shows and clears, what a
write does, captured halves, shadowed field pages, and the access of COREACC to core pages. -/

namespace Sys2Proof.Machine

/-! ## Headers (R531) -/

/-- Field pages the pithead serves from its own copies while the field's VCORE is off (R536). -/
def shadowed (code : Nat) : Bool :=
  code == 0x11 || code == 0x12 || code == 0x13 || code == 0x14 || code == 0x16 || code == 0x18
/-- The field whose page set a page belongs to. -/
def pageField? (code inst : Nat) : Option Nat :=
  if 0x10 ≤ code ∧ code ≤ 0x19 then some inst else if code = 0x21 ∧ 160 ≤ inst then some (inst - 160) else none
def State.fieldOff (s : State) (code inst : Nat) : Bool :=
  match pageField? code inst with
  | some f => !(s.field f).vcoreOn
  | none => false

/-- PAGE_STATUS: ready, shadow, in_reset. -/
def State.pageStatus (s : State) (code inst : Nat) : Nat :=
  match pageField? code inst with
  | some f => s.fieldStatus f
  | none =>
    if code = 0x20 then (decide (2 ≤ s.stackState inst)).toNat * 2 ^ 31
    else if code = 0x21 then (s.hoistOn inst).toNat * 2 ^ 31
    else (!s.pithead.inReset).toNat * 2 ^ 31

def State.headerView (s : State) (code inst off : Nat) : Nat :=
  match off % 0x1000 with
  | 0x000 => code * 2 ^ 20 + inst * 2 ^ 8 + 1
  | 0x004 =>
    (code == 3 || code == 4).toNat * 2 ^ 31 + (code == 2 || code == 5 || code == 7).toNat * 2 ^ 29 + 1
  | 0x008 => s.pageStatus code inst
  | _ => (s.sreg off).toNat

/-! ## Views of the pithead's pages -/

def half (n : Nat) (hi : Bool) : Nat := if hi then bits n 63 32 else bits n 31 0

def State.pitheadView (s : State) (off : Nat) : Nat :=
  let p := s.pithead
  match off % 0x1000 with
  | 0x040 => ((List.range 48).filter fun f => (s.field f).lost).length * 2 ^ 8 + p.boot.code
  | 0x044 => s.sregBits off 23 16 * 2 ^ 16 + (p.boot == .harvesting || (p.mode == 2 && s.bringing)).toNat
  | 0x048 => p.harvestGen
  | 0x04C => let n := s.enabledCount; (decide (n < 300000)).toNat * 2 ^ 31 + n
  | 0x060 => half s.flash.serial false
  | 0x064 => half s.flash.serial true
  | 0x068 => p.fwSeq
  | 0x06C => half s.flash.boots false
  | 0x070 => half s.time false
  | 0x074 => half s.time true
  | _ => (s.sreg off).toNat

def SlateState.code : SlateState → Nat
  | .empty => 0 | .waiting => 1 | .loading => 2 | .running => 3 | .draining => 4
def slateCode (o : Option Slate) : Nat := (o.map fun sl => sl.state.code).getD 0
def slateId (o : Option Slate) : Nat := (o.map fun sl => sl.id).getD 0

def State.jobView (s : State) (p off : Nat) : Nat :=
  let hp := s.port p
  match off % 0x1000 with
  | 0x064 => 0
  | 0x068 => s.sregBits off 31 31 * 2 ^ 31 + slateCode hp.next * 8 + slateCode hp.cur
  | 0x06C => slateId hp.next * 2 ^ 16 + slateId hp.cur
  | 0x070 => hp.armSeq
  | _ => (s.sreg off).toNat

def State.envView (s : State) (off : Nat) : Nat :=
  let p := s.pithead
  match off % 0x1000 with
  | 0x040 => p.applied.inlet
  | 0x044 => p.applied.flow
  | 0x048 => p.applied.budget
  | 0x04C => p.applied.ambient
  | 0x050 => 0
  | 0x054 => half p.stampTime false
  | 0x058 => half p.stampTime true
  | 0x05C => p.stale.toNat
  | _ => 0

def State.modpwrView (s : State) (off : Nat) : Nat :=
  let fl := s.flash
  match off % 0x1000 with
  | 0x04C => 0
  | 0x054 =>
    fl.stopped.toNat * 2 ^ 31 + fl.stopCleared.toNat * 2 ^ 29 + s.sregBits off 28 28 * 2 ^ 28 +
      (if fl.stopped then fl.stopField % 64 * 2 ^ 8 + fl.stopCause % 4 else 0)
  | 0x058 => s.pithead.capUnmet.toNat * 2 + s.pithead.stale.toNat
  | 0x060 => s.budget
  | _ => (s.sreg off).toNat

def State.securityView (s : State) (p off : Nat) : Nat :=
  let q := s.pithead
  let o := off % 0x1000
  match o with
  | 0x040 => if p = 0 then q.lock.toNat else 0
  | 0x044 => q.svn % 128 * 2 ^ 8 + s.flash.fuseSteps % 128
  | 0x048 =>
    s.flash.low.toNat * 2 ^ 31 + s.flash.exhausted.toNat * 2 ^ 30 + s.enrolling.toNat * 2 ^ 29 + s.flash.keySerial % 16 * 2 ^ 25 +
      q.nextLeaf % 2 ^ 21
  | 0x04C => s.flash.ownerSet.toNat * 2 + q.debugUnlocked.toNat
  | 0x054 => (s.port p).mboxBusy.toNat * 2 ^ 31 + (s.sreg off).toNat
  | _ =>
    if 0x100 ≤ o ∧ o < 0x200 then leNat (((q.measure ((o - 0x100) / 32)).drop (o % 32)).take 4)
    else (s.sreg off).toNat

def State.aditView (s : State) (off : Nat) : Nat :=
  let word (f : Field → Bool) (base n : Nat) : Nat := bitSet n fun i => f (s.field (base + i))
  match off % 0x1000 with
  | 0x040 => word (fun fl => fl.altParent) 0 32
  | 0x044 => word (fun fl => fl.altParent) 32 16
  | 0x048 => word (fun fl => fl.unreachable) 0 32
  | 0x04C => word (fun fl => fl.unreachable) 32 16
  | _ => (s.sreg off).toNat

def State.hostportView (s : State) (off : Nat) : Nat :=
  match off % 0x1000 with
  | 0x058 => s.pithead.lapsed.toNat * 2 + s.pithead.keeperB.toNat
  | 0x05C => 0
  | _ => (s.sreg off).toNat

/-! ## Views of a field's pages -/

def Bringup.code : Bringup → Nat
  | .down => 0 | .testing => 1 | .up => 2 | .lost => 3 | .foremanStopped => 4
def PowerState.code : PowerState → Nat
  | .run => 0 | .stepping => 1 | .parking => 2 | .parked => 3 | .unparking => 4 | .stopped => 5

def State.fieldctlView (s : State) (f off : Nat) : Nat :=
  let fl := s.field f
  match off % 0x1000 with
  | 0x040 => s.sregBits off 31 19 * 2 ^ 19 + fl.rotStep % 8 * 2 ^ 16 + s.sregBits off 10 8 * 2 ^ 8 +
      s.sregBits off 2 2 * 4 + (match fl.sched with | .switching _ => 2 | _ => 0) + s.sregBits off 0 0
  | 0x044 => fl.frame % 2 ^ 24 * 2 ^ 8 + fl.frozen.toNat * 2 ^ 6 + fl.beat % 64
  | 0x05C => s.sregBits off 31 30 * 2 ^ 30 + fl.drain.isSome.toNat * 2 ^ 29 + s.sregBits off 15 1 * 2
  | 0x0A0 => fl.stitchFailed % 256 * 2 ^ 16 + fl.testStatus % 256 * 2 ^ 8 + fl.bringup.code
  | _ => (s.sreg off).toNat

/-- A percentage shown in a whole number: the nearer of two is not stated where it is none. -/
def percent (k : Nat) (q : Frac) : Nat := if q.d = 0 then 0 else q.n / q.d + (if q.n % q.d = 0 then 0 else k % 2)

def State.fieldpwrView (s : State) (f off : Nat) : Nat × State :=
  let fl := s.field f
  match off % 0x1000 with
  | 0x040 =>
    (fl.lastReason.getD 0 * 2 ^ 24 + fl.ceiling % 16 * 2 ^ 20 + fl.step % 16 * 2 ^ 16 + fl.power.code * 2 ^ 8 +
      fl.stretched.toNat * 2 + (decide (fl.gate.n < fl.gate.d)).toNat, s)
  | 0x048 => (fl.setMv * 2 ^ 16 + wrap 8 (s.voltOffset f), s)
  | 0x078 =>
    let v := s.fresh
    let k (i : Nat) : Nat := Config.freeValue v.1 i
    (percent (k 0) fl.envelope * 2 ^ 16 + percent (k 1) fl.duty * 2 ^ 8 + ceilDiv (64 * fl.gate.n) fl.gate.d, v.2)
  | _ => ((s.sreg off).toNat, s)

def State.throttleView (s : State) (f off : Nat) : Nat :=
  let fl := s.field f
  let o := off % 0x1000
  if 0x040 ≤ o ∧ o < 0x0E0 then
    let r := (o - 0x040) / 16
    if o % 16 < 8 then half (fl.ledger.get (fun _ => 0) r) (o % 8 == 4)
    else half (fl.ledgerLast.get (fun _ => 0) r) (o % 8 == 4)
  else
    match o with
    | 0x0E0 => half fl.waitPace false
    | 0x0E4 => half fl.waitPace true
    | 0x0E8 => half fl.waitLast false
    | 0x0EC => half fl.waitLast true
    | _ => 0

def State.harvestView (s : State) (f off : Nat) : Nat :=
  let n (p : Nat → Bool) : Nat := s.siteCount f p
  match off % 0x1000 with
  | 0x040 => n (fun k => k == 1 || k == 2) * 2 ^ 16 + n (fun k => k == 0)
  | 0x044 => n (fun k => k == 4) * 2 ^ 16 + n (fun k => k == 3)
  | 0x048 => (s.field f).lost.toNat * 2 ^ 31 + n (fun k => k == 5)
  | 0x050 =>
    let v := (s.sreg (pageHarvest f + 0x04C)).toNat
    let lx := bits v 6 0
    let ly := bits v 13 7
    if lx < 80 ∧ ly < 84 then
      match Site.at? (f % 8 * 80 + lx) (f / 8 * 84 + ly) with
      | some x => if x.foremanBlock then 0 else 2 ^ 31 + (s.siteEntry x).toNat
      | none => 0
    else 0
  | _ => (s.sreg off).toNat

def State.routeView (s : State) (f off : Nat) : Nat :=
  match off % 0x1000 with
  | 0x040 => (s.holes.any Hole.cuts).toNat * 2 ^ 17 + s.routePending.isSome.toNat * 2 ^ 16 +
      (s.fenced.filter fun k => (Site.ofKey k).field == f).length
  | _ => (s.sreg off).toNat

/-- The 32 bytes of an ERRLOG entry (R478); a place that holds none reads zero. -/
def ErrEntry.bytes (e : ErrEntry) : List Nat :=
  leBytes 2 e.code ++ [e.severity.code, e.source] ++ leBytes 4 e.site ++ leBytes 2 e.job ++ leBytes 2 e.repeats ++
    leBytes 4 e.info ++ leBytes 8 e.time ++ leBytes 8 e.info2
def State.errlogView (s : State) (f off : Nat) : Nat :=
  let fl := s.field f
  let o := off % 0x1000
  match o with
  | 0x040 => fl.errWritten * 2 ^ 16 + fl.errNext
  | 0x048 => 0
  | _ =>
    if 0x400 ≤ o then
      match fl.errlog.get (fun _ => none) ((o - 0x400) / 32) with
      | some e => leNat ((e.bytes.drop (o % 32)).take 4)
      | none => 0
    else (s.sreg off).toNat

def State.galleryView (s : State) (f off : Nat) : Nat :=
  match off % 0x1000 with
  | 0x040 =>
    let fl := s.field f
    let changing := fl.vcoreOn && !fl.onGalClk && s.holes.contains (interiorHole f)
    s.galleryHoles f * 2 ^ 16 + changing.toNat * 2 + fl.onGalClk.toNat
  | _ => (s.sreg off).toNat

def State.coreaccView (s : State) (f off : Nat) : Nat :=
  match off % 0x1000 with
  | 0x048 => (s.field f).coreAcc.isSome.toNat * 2 ^ 31 + s.sregBits off 23 16 * 2 ^ 16
  | _ => (s.sreg off).toNat

/-! ## Views of rim pages -/

def State.stackportView (s : State) (n off : Nat) : Nat :=
  match off % 0x1000 with
  | 0x040 => s.sregBits off 7 7 * 2 ^ 7 + s.stackState n
  | 0x044 => s.sregBits off 1 1 * 2 + s.localMode.toNat
  | _ => (s.sreg off).toNat

def State.hoistView (s : State) (h off : Nat) : Nat :=
  let z := s.hoist h
  match off % 0x1000 with
  | 0x04C => 0
  | 0x050 => z.head % s.ringSize h
  | 0x058 => z.pending * 2 ^ 16 + s.sregBits off 15 8 * 2 ^ 8 + s.sregBits off 3 3 * 8 + (s.hoistPaused h).toNat * 4 +
      z.run.isSome.toNat * 2
  | _ => (s.sreg off).toNat

def SeamState.code : SeamState → Nat
  | .off => 0 | .training => 1 | .ready => 2 | .up => 3 | .down => 4

def State.seamView (s : State) (n off : Nat) : Nat :=
  let l := s.seam n
  let o := off % 0x1000
  match o with
  | 0x044 => l.peerEnabled.toNat * 2 ^ 12 + l.occupancy % 16 * 2 ^ 8 + l.cause % 16 * 2 ^ 4 + l.state.code
  | 0x088 => if n = 0 then (s.crt.get (fun _ => 0) (s.sregBits (pageSeam 0 + 0x084) 11 0)).toNat else 0
  | _ => if 0x080 ≤ o ∧ n ≠ 0 then 0 else (s.sreg off).toNat

/-! ## Reads (R533 to R536) -/

/-- What a block's register shows. -/
def State.blockView (s : State) (code inst off : Nat) : Nat × State :=
  match code with
  | 0x01 => (s.pitheadView off, s)
  | 0x02 => (s.jobView inst off, s)
  | 0x03 => (s.envView off, s)
  | 0x04 => (s.modpwrView off, s)
  | 0x05 => (s.securityView inst off, s)
  | 0x06 => (s.aditView off, s)
  | 0x07 => (s.hostportView off, s)
  | 0x10 => let s := (s.switchFlush inst).holdFlush inst; (s.fieldctlView inst off, s)
  | 0x11 => (s.stretchFlush inst).fieldpwrView inst off
  | 0x12 => (s.throttleView inst off, s)
  | 0x13 => (s.harvestView inst off, s)
  | 0x14 => (s.routeView inst off, s)
  | 0x15 => let s := s.canaryRefresh inst; ((s.sreg off).toNat, s)
  | 0x16 => (s.errlogView inst off, s)
  | 0x17 => (s.coreaccView inst off, s)
  | 0x18 => (s.galleryView inst off, s)
  | 0x20 => (s.stackportView inst off, s)
  | 0x21 => (s.hoistView inst off, s)
  | 0x30 => (s.seamView inst off, s)
  | _ => ((s.sreg off).toNat, s)

/-- A 4-byte read of a page, without clearing. -/
def State.pageView (s : State) (code inst off : Nat) : Nat × State :=
  let o := off % 0x1000
  if !s.pageAnswers code then (0, s)
  else if s.fieldOff code inst && !(shadowed code || o == 0x008 || (code == 0x10 && o == 0x0A0)) then (0, s)
  else if o < 0x040 then (s.headerView code inst off, s)
  else s.blockView code inst off

/-- A read clears the RC fields of a register that it reaches. -/
def State.clearRc (s : State) (code inst off : Nat) : State :=
  if !s.pageAnswers code || (s.fieldOff code inst && !shadowed code) then s
  else
    match findReg (blockRegs code) (off % 0x1000) with
    | some r => if r.rc = 0 then s else s.setSreg off (s.sreg off &&& ~~~(BitVec.ofNat 32 r.rc))
    | none => s

def State.spaceRead1 (s : State) (code inst off : Nat) : Nat × State :=
  let v := s.pageView code inst off
  (v.1, v.2.clearRc code inst off)

/-- _LO registers, whose _HI a 4-byte read captures. -/
def spacePair (code o : Nat) : Bool :=
  match code with
  | 0x01 => o == 0x054 || o == 0x060 || o == 0x070
  | 0x03 => o == 0x054
  | 0x06 => o == 0x040 || o == 0x048
  | 0x07 => o == 0x050
  | 0x10 => decide (0x060 ≤ o) && decide (o < 0x0A0) && o % 8 == 0
  | 0x12 => decide (0x040 ≤ o) && decide (o < 0x0F0) && o % 8 == 0
  | 0x19 => o == 0x060 || (decide (0x070 ≤ o) && decide (o < 0x0D0) && o % 8 == 0)
  | 0x20 => o == 0x048
  | 0x21 => o == 0x040
  | _ => false

/-- A read of 4 or 8 bytes of a page by a requester. -/
def State.spaceRead (s : State) (w : Requester) (code inst off n : Nat) : Nat × State :=
  let held : Nat × Word := s.latch.get (fun _ => (0, 0)) (latchKey w off)
  let s := s.dropLatch w off
  if n = 8 then
    let a := s.spaceRead1 code inst off
    let b := a.2.spaceRead1 code inst (off + 4)
    (a.1 + b.1 * 2 ^ 32, b.2)
  else if held.1 = off ∧ off ≠ 0 then (held.2.toNat, s)
  else
    let a := s.spaceRead1 code inst off
    if spacePair code (off % 0x1000) then
      let h := a.2.pageView code inst (off + 4)
      (a.1, { h.2 with
        latch := SMap.set (fun _ => ((0, 0) : Nat × Word)) h.2.latch (latchKey w off) (off + 4, BitVec.ofNat 32 h.1) })
    else a

/-! ## Writes -/

/-- A write by the row's access codes. -/
def State.writeRow (s : State) (code off : Nat) (v : Word) : State :=
  match findReg (blockRegs code) (off % 0x1000) with
  | some r => s.setSreg off (r.write (s.sreg off) v)
  | none => s

/-- A write of the ENV page stages its values (R442). -/
def State.envWrite (s : State) (off : Nat) (v : Word) : State :=
  let n := bits v.toNat 15 0
  match off % 0x1000 with
  | 0x040 => s.onPithead fun p => { p with staged := { p.staged with inlet := n } }
  | 0x044 => s.onPithead fun p => { p with staged := { p.staged with flow := n } }
  | 0x048 => s.onPithead fun p => { p with staged := { p.staged with budget := n } }
  | 0x04C => s.onPithead fun p => { p with staged := { p.staged with ambient := n } }
  | 0x050 => s.onPithead fun p => { p with applied := p.staged, stampTime := s.time, stamped := true, stale := false }
  | _ => s.writeRow 0x03 off v

/-- A write of MODPWR. No command drives COOLANT_OK high after it was last seen low: whether it has risen since is free. -/
def State.modpwrWrite (s : State) (off : Nat) (v : Word) : State :=
  match off % 0x1000 with
  | 0x04C => s.parkReq v.toNat
  | 0x054 =>
    let w := s.fresh
    let rose := bit (Config.freeValue w.1 0) 0
    (if s.pithead.coolantOk then s else w.2).stopWrite v.toNat (s.pithead.coolantOk || rose) (s.hottest.getD 0)
  | _ => s.writeRow 0x04 off v

def State.hostportWrite (s : State) (w : Requester) (p off : Nat) (v : Word) : State :=
  match off % 0x1000 with
  | 0x058 => match w.port? with | some q => s.keeperReg q v.toNat | none => s
  | 0x05C => if w.port? = some p then s.keeperBeat p else s
  | 0x060 => s.keeperWrite w fun s => s.writeRow 0x07 off v
  | _ => s.writeRow 0x07 off v

def State.fieldctlWrite (s : State) (f off : Nat) (v : Word) : State :=
  let o := off % 0x1000
  match o with
  | 0x040 => s.rotWrite f v.toNat
  | 0x05C => s.drainWrite f v.toNat
  | 0x0A8 => s.coreResetWrite f v.toNat
  | _ =>
    if 0x060 ≤ o ∧ o < 0x0A0 ∧ s.sregBit (rotCtrl f) 0 then s.setSflag (rotCtrl f) 2 else s.writeRow 0x10 off v

/-- A write of COREACC.SEL with go starts an access (R542). -/
def State.coreaccSel (s : State) (f : Nat) (w : Requester) (v : Word) : State :=
  if (s.field f).coreAcc.isSome then s
  else
    let n := v.toNat
    let s := s.writeRow 0x17 (pageCoreacc f + 0x040) v
    if bit n 31 then s.onField f fun fl => { fl with coreAcc := some ⟨bit n 30, bits n 29 20, bits n 19 11, bits n 10 1, w⟩ }
    else s

def State.coreaccPage (s : State) (f off : Nat) (w : Requester) (v : Word) : State :=
  match off % 0x1000 with
  | 0x040 => s.coreaccSel f w v
  | _ => if (s.field f).coreAcc.isSome && off % 0x1000 == 0x044 then s else s.writeRow 0x17 off v

def State.stackportWrite (s : State) (n off : Nat) (v : Word) : State :=
  match off % 0x1000 with
  | 0x044 => if n = 0 then s.interleave v else s.writeRow 0x20 off (v &&& 0xFFFFFFFE#32)
  | _ => s.writeRow 0x20 off v

/-- A write of a HOIST page; ring registers are refused while the hoist is enabled (R319). -/
def State.hoistWrite (s : State) (h off : Nat) (v : Word) : State :=
  match off % 0x1000 with
  | 0x040 | 0x044 => if s.hoistEn h then s.setSflag (pageHoist h + 0x058) 3 else s.writeRow 0x21 off v
  | 0x048 =>
    if s.hoistEn h || decide (16 < bits v.toNat 4 0) then s.setSflag (pageHoist h + 0x058) 3 else s.writeRow 0x21 off v
  | 0x04C => s.ringDoorbell h (bits v.toNat 15 0)
  | 0x054 => s.hoistCtrl h v
  | _ => s.writeRow 0x21 off v

def State.seamWrite (s : State) (w : Requester) (n off : Nat) (v : Word) : State :=
  let o := off % 0x1000
  match o with
  | 0x040 => s.seamKeeper w fun s => s.seamCtrlWrite n v.toNat
  | 0x080 => if n = 0 then s.seamKeeper w fun s => s.chipWrite v.toNat else s
  | 0x088 =>
    if n = 0 then s.seamKeeper w fun s => { s with
      crt := s.crt.set (fun _ => 0) (s.sregBits (pageSeam 0 + 0x084) 11 0) (v &&& 0x9F9F9F9F#32) }
    else s
  | _ => if 0x080 ≤ o ∧ n ≠ 0 then s else s.writeRow 0x30 off v

/-- A write of one register of a page that answers. -/
def State.blockWrite (s : State) (w : Requester) (code inst off : Nat) (v : Word) : State :=
  let n := v.toNat
  let o := off % 0x1000
  match code with
  | 0x01 =>
    match o with
    | 0x044 => s.keeperWrite w fun s => s.harvestWrite n
    | 0x050 => s.keeperWrite w fun s => s.pitResetWrite n
    | _ => s.writeRow 0x01 off v
  | 0x02 =>
    match o with
    | 0x060 => s.armWrite inst n
    | 0x064 => s.cancelWrite inst n
    | _ => s.writeRow 0x02 off v
  | 0x03 => s.keeperWrite w fun s => s.envWrite off v
  | 0x04 => s.keeperWrite w fun s => s.modpwrWrite off v
  | 0x05 =>
    match o with
    | 0x040 => if inst = 0 then s.keeperWrite w fun s => s.lockWrite n else s
    | 0x050 => s.mboxWrite w inst n
    | _ => s.writeRow 0x05 off v
  | 0x07 => s.hostportWrite w inst off v
  | 0x10 => s.fieldctlWrite inst off v
  | 0x12 =>
    if o = 0x0F0 then
      if bit n 0 then
        s.onField inst fun fl => { fl with ledger := [], ledgerLast := [], waitPace := 0, waitLast := 0 }
      else s
    else s.writeRow 0x12 off v
  | 0x16 => if o = 0x048 then (if bit n 0 then s.errlogClear inst else s) else s.writeRow 0x16 off v
  | 0x17 => s.coreaccPage inst off w v
  | 0x19 =>
    match o with
    | 0x040 => s.tallyCapture inst v
    | 0x050 => s.tallyCtrl inst v
    | 0x0D0 => if bit n 0 then s.tallyCommit inst else s
    | _ => s.writeRow 0x19 off v
  | 0x20 => s.stackportWrite inst off v
  | 0x21 => s.hoistWrite inst off v
  | 0x30 => s.seamWrite w inst off v
  | _ => s.writeRow code off v

/-- A 4-byte write. Header fields of the keeper's pages are the keeper's, too. -/
def State.spaceWrite1 (s : State) (w : Requester) (code inst off : Nat) (v : Word) : State :=
  if !s.pageAnswers code || (s.fieldOff code inst && !shadowed code) then s
  else if off % 0x1000 < 0x040 ∧ code ≠ 0x03 ∧ code ≠ 0x04 then s.writeRow code off v
  else s.blockWrite w code inst off v

/-- A write of 4 or 8 bytes of a page by a requester. -/
def State.spaceWrite (s : State) (w : Requester) (code inst off n v : Nat) : State :=
  let s := (s.dropLatch w off).spaceWrite1 w code inst off (BitVec.ofNat 32 v)
  if n = 8 then s.spaceWrite1 w code inst (off + 4) (BitVec.ofNat 32 (v / 2 ^ 32)) else s

/-! ## Accesses by a requester (R60, R403, R526) -/

/-- What an access gave. -/
def State.answer (s : State) (st : Status) (bs : List Nat) : State :=
  { s with reply := ⟨st, bs.map (BitVec.ofNat 8), .served⟩ }

/-- An offset with no page: a host reads zero and is flagged, others meet ADDR_RANGE. -/
def State.unmapped (s : State) (w : Requester) (n : Nat) : State :=
  match w.port? with
  | some p => (s.setSflag (pageHostport p + 0x044) 1).answer .ok (List.replicate n 0)
  | none => s.answer .addrRange []

/-- A core page answers a party that may reach it, while its core is on. -/
def State.corePage (s : State) (w : Requester) (x : Site) (off : Nat) (k : State → State) : State :=
  if !s.awake w then s.turnedAway w
  else if !reaches w x then s.answer .denied []
  else if x.foremanBlock || 0x1000 ≤ off then s.answer .addrRange []
  else
    match s.siteStatus x with
    | .ok => k s
    | st => s.answer st []

/-- An access of a length or alignment that registers do not take: a host's is an Unsupported Request, logged through AER
(R403); others meet ADDR_RANGE. -/
def State.refused (s : State) (w : Requester) (read : Bool) : State :=
  match w.port? with
  | some p => s.unsupported p
  | none => if read then s.answer .addrRange [] else s
/-- Whether registers take an access of n bytes at an offset. -/
def aligned (off n : Nat) : Bool := (n == 4 || n == 8) && off % n == 0

/-! ## A host port's configuration space and BAR4 (R401, R402, R421) -/

/-- The address bits of a BAR register, by its size, and its type bits: BAR0 with BAR1 of 64 MiB, BAR2 with BAR3 of 64 GiB and
prefetchable, BAR4 with BAR5 of 8 KiB, each of 64 bits (R402). -/
def barMask (n : Nat) : Word := [0xFC000000#32, 0xFFFFFFFF#32, 0#32, 0xFFFFFFF0#32, 0xFFFFE000#32, 0xFFFFFFFF#32].getD n 0
def barType (n : Nat) : Word := if n = 2 then 0xC else if n % 2 = 0 then 0x4 else 0

def PciConfig.read (c : PciConfig) (p : Nat) : CfgReg → Nat
  | .id => 0x9600 * 2 ^ 16 + Config.pciVendor.toNat
  | .classCode => 0x120000 * 2 ^ 8 + Config.pciRevision.toNat
  | .subsystem => (1 + p) * 2 ^ 16 + Config.pciVendor.toNat
  | .power => c.power
  | .device => c.device.toNat
  | .msix => (c.msix ||| 0x003F0000#32).toNat
  | .aer => c.aer.toNat
  | .ecrc => (c.ecrc ||| 0xA0#32).toNat
  | .bar n => (c.bars.get (fun _ => 0) n.val ||| barType n.val).toNat
/-- A write keeps to what R401 supports: D0 and D3hot, payloads up to 512 bytes, read requests up to 4 KiB. -/
def PciConfig.write (c : PciConfig) (r : CfgReg) (v : Word) : PciConfig :=
  let n := v.toNat
  match r with
  | .id | .classCode | .subsystem => c
  | .power => if bits n 1 0 = 0 ∨ bits n 1 0 = 3 then { c with power := bits n 1 0 } else c
  | .device =>
    let payload := if bits n 7 5 ≤ 2 then bits n 7 5 else bits c.device.toNat 7 5
    let request := if bits n 14 12 ≤ 5 then bits n 14 12 else bits c.device.toNat 14 12
    { c with device := BitVec.ofNat 32 (payload * 2 ^ 5 + request * 2 ^ 12) }
  | .msix => { c with msix := v &&& 0xC0000000#32 }
  | .aer => { c with aer := c.aer &&& ~~~v }
  | .ecrc => { c with ecrc := v &&& 0x140#32 }
  | .bar k => { c with bars := c.bars.set (fun _ => 0) k.val (v &&& barMask k.val) }

/-- A word of BAR4: the MSI-X table, then the pending bit array. -/
def PciConfig.bar4 (c : PciConfig) (off : Nat) : Nat :=
  if off < 0x400 then (c.tableWord (off / 4)).toNat
  else if off = 0x1000 ∨ off = 0x1004 then
    ((List.range 32).map fun i => (c.pend.contains ((off - 0x1000) * 8 + i)).toNat * 2 ^ i).foldl (· + ·) 0
  else 0
/-- A write of a table word; the pending bit array is read-only, and of a control word only the mask is written. -/
def PciConfig.bar4Write (c : PciConfig) (off v : Nat) : PciConfig :=
  let k := off / 4
  if off < 0x400 then
    { c with table := c.table.set tableReset k (BitVec.ofNat 32 (if k % 4 = 3 then v % 2 else if k % 4 = 0 then v / 4 * 4 else v)) }
  else c

/-- A host's write of its own port's function, after which vectors masked no more send what is pending. -/
def State.onConfig (s : State) (p : Nat) (f : PciConfig → PciConfig) : State :=
  let hp := s.port p
  s.setPort p (HostPort.unmask { hp with cfg := f hp.cfg })

/-- A configuration request: in bring-up stage 1 the port answers it with Configuration Request Retry Status (R464); a port in
reset detects none (R555). -/
def State.configRequest (s : State) (p : Nat) (k : State → State) : State :=
  if s.pithead.inReset || !s.sregBit (pageHostport p + 0x040) 8 then s
  else if s.served then k s
  else { s with reply := ⟨.ok, [], .requestRetry⟩ }

/-! ## Any register -/

/-- READ_CLEAR: any register is read, and its RC fields clear. -/
def execReadClear (w : Requester) (a : RegAddr) (n : Nat) (s : State) : Out :=
  match a with
  | .space off =>
    if !s.pageWriter w then .next (s.turnedAway w)
    else if !aligned off n then .next (s.refused w true)
    else
      match pageAt off with
      | none => .next (s.unmapped w n)
      | some (code, inst) =>
        let r := s.spaceRead w code inst off n
        .next (r.2.answer .ok (leBytes n r.1))
  | .core x off =>
    if !aligned off n then .next (s.answer .addrRange [])
    else .next <| s.corePage w x off fun s =>
      let r := s.coreRead w x off n
      r.2.answer .ok (leBytes n r.1)
  | .config r =>
    match w.port? with
    | some p => .next (s.configRequest p fun s => s.answer .ok (leBytes 4 ((s.port p).cfg.read p r)))
    | none => .next s
  | .bar4 off =>
    match w.port? with
    | some p =>
      let c := (s.port p).cfg
      if !s.awake w then .next (s.turnedAway w)
      else if !aligned off n then .next (s.unsupported p)
      else .next (s.answer .ok (leBytes 4 (c.bar4 off) ++ if n = 8 then leBytes 4 (c.bar4 (off + 4)) else []))
    | none => .next s

/-- REGISTER_WRITE. -/
def execRegisterWrite (w : Requester) (a : RegAddr) (v : DWord) (n : Nat) (s : State) : Out :=
  match a with
  | .space off =>
    if !s.pageWriter w then .next (s.turnedAway w)
    else if !aligned off n then .next (s.refused w false)
    else
      match pageAt off with
      | none => .next (s.unmapped w 0)
      | some (code, inst) => .next (s.spaceWrite w code inst off n v.toNat)
  | .core x off =>
    if !aligned off n then .next s
    else .next <| s.corePage w x off fun s => s.coreWrite w x off n v.toNat
  | .config r =>
    match w.port? with
    | some p => .next (s.configRequest p fun s => s.onConfig p fun c => c.write r (v.setWidth 32))
    | none => .next s
  | .bar4 off =>
    match w.port? with
    | some p =>
      if !s.awake w then .next (s.turnedAway w)
      else if !aligned off n then .next (s.unsupported p)
      else
        .next <| s.onConfig p fun c =>
          let c := c.bar4Write off (bits v.toNat 31 0)
          if n = 8 then c.bar4Write (off + 4) (bits v.toNat 63 32) else c
    | none => .next s

/-! ## COREACC (R542) -/

def execCoreaccRead (w : Requester) (f : FieldNo) (v : Word) (s : State) : Out :=
  .next (s.fieldPut w f.val (pageCoreacc f.val) fun s => s.coreaccSel f.val w v)
def execCoreaccWrite (w : Requester) (f : FieldNo) (v : Word) (s : State) : Out :=
  .next (s.fieldPut w f.val (pageCoreacc f.val) fun s => s.coreaccSel f.val w v)

/-- The status of an access to a core's page from its field. -/
def State.coreaccStatus (s : State) (f : Nat) (a : CoreAcc) : Status :=
  match Site.at? a.x a.y with
  | some x => if x.field ≠ f ∨ x.foremanBlock then .addrRange else s.siteStatus x
  | none => .addrRange

/-- The running access ends. -/
def State.coreaccEnd (s : State) (f : Nat) (a : CoreAcc) : State :=
  let st := s.coreaccStatus f a
  let s := s.onField f fun fl => { fl with coreAcc := none }
  let s := s.setSregBits (pageCoreacc f + 0x048) 23 16 st.code
  match st, Site.at? a.x a.y with
  | .ok, some x =>
    if a.write then s.coreWrite a.who x (4 * a.word) 4 (s.sreg (pageCoreacc f + 0x044)).toNat
    else
      let r := s.coreRead a.who x (4 * a.word) 4
      r.2.setSreg (pageCoreacc f + 0x044) (BitVec.ofNat 32 r.1)
  | _, _ => s

/-- COREACC_END. -/
def execCoreaccEnd (f : FieldNo) (s : State) : Out :=
  match (s.field f.val).coreAcc with
  | some a => .next (s.coreaccEnd f.val a)
  | none => .next s

/-! ## Privileged packets at a core (R60, R61, R275, R333) -/

/-- Bytes of core space of one core are read: all of them, or the status of the first that failed. A page takes
aligned accesses of 4 or 8 bytes; what any other gives is not stated. -/
def State.privReadAt (s : State) (w : Requester) (x : Site) (a n : Nat) : Option (List Nat) × Status × State :=
  match Loc.of a, Loc.of (a + n - 1) with
  | .page y off, .page _ _ =>
    if y ≠ x then (none, .addrRange, s)
    else if (n = 4 ∨ n = 8) ∧ off % n = 0 then
      let r := s.coreRead w x off n
      (some (leBytes n r.1), .ok, r.2)
    else let v := s.fresh; (none, Status.ofCode (1 + Config.freeValue v.1 0 % 17), v.2)
  | .sram y _, .sram z _ | .acc y _, .acc z _ =>
    if y ≠ x ∨ z ≠ x then (none, .addrRange, s)
    else
      let r := s.readSpan a n
      let st := firstBad (r.1.map Prod.snd)
      (if st = .ok then some (r.1.map Prod.fst) else none, st, r.2)
  | _, _ => (none, .addrRange, s)

/-- Whether a packet comes from a core: R60 gives cores no privileged access. Cores may hold any local EID up to 0xF_FDFF (R348,
R537). -/
def Packet.fromCore (p : Packet) : Bool := decide (eidLocal p.src ≤ 0xFFDFF)
/-- Who sent a privileged packet, by its source (R534). -/
def Packet.sender (p : Packet) : Requester :=
  let l := eidLocal p.src
  if l = eidHostA then .hostA else if l = eidHostB then .hostB
  else ((List.finRange 48).find? fun f => eidForeman f.val == l).elim .pithead .foreman

/-- PRIV_READ. -/
def execPrivRead (p : Packet) (s : State) : Out :=
  .next <| s.request p .privRead fun s x =>
    let n := bits p.arg 31 0
    if Packet.fromCore p then s.send x (p.response (s.coreEid x) .denied)
    else if n = 0 ∨ 8192 < n then s.send x (p.response (s.coreEid x) .addrRange)
    else
      let r := s.privReadAt (Packet.sender p) x (bits p.data 47 0) n
      r.2.2.unlessSealed x fun s =>
        match r.1 with
        | some bs => (readAnswers p (s.coreEid x) bs).foldl (fun s q => s.send x q) s
        | none => s.send x (p.response (s.coreEid x) r.2.1)

/-- Bytes of core space of one core are written. -/
def State.privWriteAt (s : State) (w : Requester) (x : Site) (a : Nat) (bs : List Nat) : Status × State :=
  match Loc.of a, Loc.of (a + bs.length - 1) with
  | .page y off, .page _ _ =>
    let n := bs.length
    if y ≠ x then (.addrRange, s)
    else if (n = 4 ∨ n = 8) ∧ off % n = 0 then
      (s.pageWriteStatus x off n (leNat bs), s.coreWrite w x off n (leNat bs))
    else let v := s.fresh; (Status.ofCode (1 + Config.freeValue v.1 0 % 17), v.2)
  | .sram y _, .sram z _ | .acc y _, .acc z _ =>
    if y ≠ x ∨ z ≠ x then (.addrRange, s)
    else if s.meetsParked a bs.length then (.bankParked, s)
    else let r := s.writeSpan a bs; (firstBad r.1, r.2)
  | _, _ => (.addrRange, s)

/-- PRIV_WRITE. -/
def execPrivWrite (p : Packet) (s : State) : Out :=
  .next <| s.request p .privWrite fun s x =>
    let n := bits p.arg 31 0
    if Packet.fromCore p then s.send x (p.response (s.coreEid x) .denied)
    else if n = 0 ∨ 512 < n ∨ p.payload.length < n then s.send x (p.response (s.coreEid x) .addrRange)
    else
      let r := s.privWriteAt (Packet.sender p) x (bits p.data 47 0) ((p.payload.take n).map BitVec.toNat)
      r.2.unlessSealed x fun s => s.send x (p.response (s.coreEid x) r.1)

end Sys2Proof.Machine
end

