-- ==== Sys2Proof/Machine/Adit.lean ====
section
/-! DEFINITION. Adit frames and accesses (R29 to R32, R460 to R462) and the alignment of engine time (R429, R463). A
request reaches its node, which acts on it and sends its response, in the command that sends the request; the response is
then on its way until it comes. -/

namespace Sys2Proof.Machine

/-! ## Frames (R460) -/

/-- Bits [71:8]. -/
def AditFrame.body (a : AditFrame) : Nat :=
  a.op % 2 ^ 4 * 2 ^ 68 + a.node % 2 ^ 6 * 2 ^ 62 + a.seq % 2 ^ 4 * 2 ^ 58 + a.addr % 2 ^ 16 * 2 ^ 42 +
    a.data % 2 ^ 32 * 2 ^ 8
/-- The CRC-8 over bits [71:8] of a frame. -/
def aditCrc (w : Nat) : Nat := crcBits 8 0x07 0 (bitsDown w 71 8)
/-- The 72 bits on the wire. -/
def AditFrame.word (a : AditFrame) : Nat := a.body + aditCrc a.body
/-- A frame as received; none where its CRC fails. -/
def AditFrame.read (w : Nat) : Option AditFrame :=
  if aditCrc w = bits w 7 0 then some ⟨bits w 71 68, bits w 67 62, bits w 61 58, bits w 57 42, bits w 39 8⟩ else none
/-- A frame of which some bits arrive inverted. -/
def AditFrame.hear (a : AditFrame) (errs : BitVec 72) : Option AditFrame := AditFrame.read (a.word ^^^ errs.toNat)

/-- A frame discarded for its CRC is counted. -/
def State.aditCrcError (s : State) : State := s.scount (pageAdit + 0x050) 1

/-! ## Engine time at a node (R463) -/

/-- The largest difference seen. -/
def State.noteSkew (s : State) (d : Nat) : State :=
  s.setSregBits (pageAdit + 0x058) 15 0 (max (s.sregBits (pageAdit + 0x058) 15 0) (min d 65535))

/-- A node learns how far its count is ahead of the engine time received: the first time sets it, a small difference is
slewed away, a node far behind steps forward and one far ahead advances at half rate. -/
def Field.align (fl : Field) (ahead : Int) : Field :=
  if !fl.nodeSet then
    { fl with skew := fl.skew - ahead, nodeSet := true, slewLeft := 0, slewFast := false, slewFrac := 0 }
  else if ahead.natAbs < 64 then { fl with slewLeft := ahead, slewFast := false, slewFrac := 0 }
  else if ahead < 0 then { fl with skew := fl.skew - ahead, slewLeft := 0, slewFast := false, slewFrac := 0 }
  else { fl with slewLeft := ahead, slewFast := true, slewFrac := 0 }

def State.alignNode (s : State) (f : Nat) (ahead : Int) : State :=
  let first := !(s.field f).nodeSet
  let s := s.onField f fun fl => fl.align ahead
  if first then s else s.noteSkew ahead.natAbs

/-- The engine time that TIME_LO gives a node, its delay added. -/
def State.nodeTime (s : State) (f : Nat) (data : Word) : Nat :=
  ((s.field f).nodeHi * 2 ^ 32 + data.toNat + (s.field f).delay) % 2 ^ 64

/-! ## What each op does at the node (R461) -/

/-- A register access: pages answer only while VCORE is up (R31). -/
def State.nodeAccess (s : State) (f addr : Nat) (data : Option Word) : Status × Nat × State :=
  let off := pageField f 0 + addr % 0x10000
  if !(s.field f).vcoreOn then (.timeout, 0, s)
  else
    match pageAt off with
    | some (code, inst) =>
      if off % 4 ≠ 0 then (.addrRange, 0, s)
      else
        match data with
        | some v => (.ok, v.toNat, s.spaceWrite .pithead code inst off 4 v.toNat)
        | none => let r := s.spaceRead .pithead code inst off 4; (.ok, r.1, r.2)
    | none => (.addrRange, 0, s)

/-- TEST: the result, which no rule derives, appears in FIELDCTL.BRINGUP. -/
def State.nodeTest (s : State) (f : Nat) (kind : Nat) : State :=
  let v := s.fresh
  v.2.onField f fun fl => { fl with
    testStatus := Config.freeValue v.1 0 % 18
    stitchFailed := if kind = 3 then Config.freeValue v.1 1 % 256 else fl.stitchFailed }

/-- POWER: VCORE at the set point of step 0, isolation, and the PLL. -/
def State.nodePower (s : State) (f : Nat) (data : Nat) : State :=
  let was := (s.field f).vcoreOn
  let on := bit data 0
  let s := if was && !on then (s.fieldDark f).avsPut f 0 else s
  let s := if on && !was then
      ((s.avsNow f (s.setPoint f 0)).onField f fun fl => { fl with vcoreOn := true, step := 0 }).wakeCores f
    else s
  s.onField f fun fl => { fl with isolated := bit data 1, pllLocked := on && bit data 2 }

/-- FOREMAN_RESET: the foreman stops, its tallies and its memory are cleared. -/
def State.nodeForemanReset (s : State) (f : Nat) : State :=
  s.onField f fun fl => { fl with
    foremanUp := false, foremanTallies := [], foremanMem := [], unanswered := [], misses := [], echoes := []
    bringup := if fl.bringup = .up then .foremanStopped else fl.bringup }

/-- What a node makes of a request: status, data and effect; none for a reserved op, which it discards. -/
def State.nodeOp (s : State) (f : Nat) (r : AditFrame) : Option (Status × Nat × State) :=
  let data := BitVec.ofNat 32 r.data
  match r.op with
  | 0x1 => some (s.nodeAccess f r.addr none)
  | 0x2 => some (s.nodeAccess f r.addr (some data))
  | 0x3 => some (.ok, r.data, s.onField f fun fl => { fl with nodeHi := r.data })
  | 0x4 => some (.ok, r.data, s.alignNode f ((s.now f : Int) - (s.nodeTime f data : Int)))
  | 0x5 => some (.ok, r.data, s)
  | 0x6 => some (.ok, r.data, s.nodeTest f (bits r.data 3 0))
  | 0x7 =>
    some (if s.pithead.debugUnlocked then let v := s.fresh; (.ok, Config.freeValue v.1 0 % 2 ^ 32, v.2)
      else (.denied, 0, s))
  | 0x8 => some (.ok, r.data, s.nodePower f r.data)
  | 0x9 => some (.ok, r.data, s.nodeForemanReset f)
  | 0xA => some (.ok, r.data, if s.bringing then s else s.fieldReset f)
  | _ => none

/-- A broadcast at one node, which acts and sends no response. -/
def State.nodeHears (s : State) (r : AditFrame) (f : Nat) : State :=
  if s.adits f then ((s.nodeOp f r).map fun q => q.2.2).getD s else s
/-- The response a node sends. -/
def AditFrame.response (r : AditFrame) (st : Status) (data : Nat) : AditFrame := ⟨0xF, r.node, r.seq, st.code * 2 ^ 8, data⟩

/-- A request goes out: the node it names acts and responds, if the frame passes and a path leads there. -/
def State.ask (s : State) (q : AditFrame) (errs : BitVec 72) : Option AditFrame × State :=
  match q.hear errs with
  | none => (none, s.aditCrcError)
  | some r =>
    if r.node = 63 then (none, (List.range 48).foldl (fun s f => s.nodeHears r f) s)
    else if 48 ≤ r.node || !s.adits r.node then (none, s)
    else
      match s.nodeOp r.node r with
      | some o => (some (r.response o.1 o.2.1), o.2.2)
      | none => (none, s)

/-- The pithead sends a request. -/
def State.aditSend (s : State) (f op addr : Nat) (data : Word) (errs : BitVec 72) : State :=
  if s.pithead.inReset then s
  else
    let q : AditFrame := ⟨op, f, s.pithead.aditSeq, addr % 2 ^ 16, data.toNat⟩
    let r := s.ask q errs
    r.2.onPithead fun p => { p with adit := p.adit ++ [⟨q, 1, false, s.time, r.1⟩], aditSeq := (p.aditSeq + 1) % 16 }

def execAditRead (f : FieldNo) (addr : Nat) (errs : BitVec 72) (s : State) : Out := .next (s.aditSend f.val 0x1 addr 0 errs)
def execAditWrite (f : FieldNo) (addr : Nat) (data : Word) (errs : BitVec 72) (s : State) : Out :=
  .next (s.aditSend f.val 0x2 addr data errs)
def execAditLoop (f : FieldNo) (errs : BitVec 72) (s : State) : Out := .next (s.aditSend f.val 0x5 0 0 errs)
def execAditTest (f : FieldNo) (data : Word) (errs : BitVec 72) (s : State) : Out := .next (s.aditSend f.val 0x6 0 data errs)
def execAditScan (f : FieldNo) (data : Word) (errs : BitVec 72) (s : State) : Out := .next (s.aditSend f.val 0x7 0 data errs)
def execAditPower (f : FieldNo) (data : Word) (errs : BitVec 72) (s : State) : Out :=
  .next (s.aditSend f.val 0x8 0 data errs)
def execForemanReset (f : FieldNo) (errs : BitVec 72) (s : State) : Out := .next (s.aditSend f.val 0x9 0 0 errs)
def execFieldReset (f : FieldNo) (errs : BitVec 72) (s : State) : Out := .next (s.aditSend f.val 0xA 0 0 errs)

/-- A broadcast frame of engine time as it comes to one node. -/
def State.timeFrame (s : State) (f op : Nat) (data : Word) (errs : BitVec 72) : State :=
  if s.pithead.inReset then s
  else
    match AditFrame.hear ⟨op, 63, s.pithead.aditSeq, 0, data.toNat⟩ errs with
    | none => s.aditCrcError
    | some r => if r.node = 63 ∨ r.node = f then s.nodeHears r f else s

/-- ADIT_TIME_HI: a broadcast reaches the node, which stages the high half. -/
def execAditTimeHi (f : FieldNo) (data : Word) (errs : BitVec 72) (s : State) : Out := .next (s.timeFrame f.val 0x3 data errs)
/-- ADIT_TIME_LO. -/
def execAditTimeLo (f : FieldNo) (data : Word) (errs : BitVec 72) (s : State) : Out := .next (s.timeFrame f.val 0x4 data errs)

/-- TIME_BROADCAST: every node that a path leads to takes TIME_HI and TIME_LO; what it makes of the time is right within
±8 ns. A node that finds a CRC error counts it and keeps its own time. -/
def State.timeNode (s : State) (bad : BitVec 48) (f : Nat) : State :=
  if !s.adits f then s
  else if bad.getLsbD f then s.aditCrcError
  else
    let v := s.fresh
    let e : Int := (Config.freeValue v.1 0 % 17 : Nat) - (8 : Int)
    let s := v.2.onField f fun fl => { fl with nodeHi := bits v.2.time 63 32 }
    s.alignNode f ((s.field f).skew - e)
def execTimeBroadcast (bad : BitVec 48) (s : State) : Out :=
  .next (if s.pithead.inReset then s else
    ((List.range 48).foldl (fun s f => s.timeNode bad f) s).onPithead fun p => { p with aditSeq := (p.aditSeq + 2) % 16 })

/-! ## How an access ends (R462) -/

def State.aditDrop (s : State) (a : AditAcc) : State := s.onPithead fun p => { p with adit := p.adit.erase a }
def State.aditPut (s : State) (a b : AditAcc) : State :=
  s.onPithead fun p => { p with adit := p.adit.map fun q => if q = a then b else q }

/-- ADIT_RESPONSE: the oldest response of the node on its way comes to the pithead. With a good CRC it ends the access
whose node and sequence number it carries. -/
def execAditResponse (f : FieldNo) (errs : BitVec 72) (s : State) : Out :=
  match s.pithead.adit.find? fun a => a.request.node == f.val && a.answer.isSome with
  | some a =>
    let s := s.aditPut a { a with answer := none }
    match a.answer.bind fun r => r.hear errs with
    | none => .next s.aditCrcError
    | some r =>
      match s.pithead.adit.find? fun b => r.op == 0xF && b.request.node == r.node && b.request.seq == r.seq with
      | some b => .next ((s.aditDrop b).answer (Status.ofCode (bits r.addr 15 8)) (leBytes 4 r.data))
      | none => .next s
  | none => .next s

/-- The access is repeated, with a new sequence number: on the same path, or on the other one. -/
def State.aditRepeat (s : State) (a : AditAcc) (tries : Nat) (switched : Bool) (errs : BitVec 72) : State :=
  let q := { a.request with seq := s.pithead.aditSeq }
  let r := s.ask q errs
  (r.2.aditPut a ⟨q, tries, switched, r.2.time, r.1⟩).onPithead fun p => { p with aditSeq := (p.aditSeq + 1) % 16 }

/-- The node moves to its other parent, and its delay is measured again. -/
def State.aditSwitch (s : State) (f : Nat) : State :=
  let v := s.fresh
  let s := v.2.onField f fun fl => { fl with altParent := !fl.altParent, delay := Config.freeValue v.1 0 }
  (s.scount (pageAdit + 0x054) 1).raisePit f 0x1106 .corrected

/-- Both paths to the node have failed. -/
def State.aditLost (s : State) (a : AditAcc) : State :=
  let s := ((s.aditDrop a).answer .timeout []).onField a.request.node fun fl => { fl with unreachable := true }
  s.fieldLost a.request.node

/-- ADIT_TIMEOUT: 3 µs have passed without a good response to the node's oldest access. Where it is repeated, `errs` are
the bits of the new request that arrive inverted. -/
def execAditTimeout (f : FieldNo) (errs : BitVec 72) (s : State) : Out :=
  match s.pithead.adit.find? fun a => a.request.node == f.val with
  | some a =>
    let s := s.elapseTo (a.sent + 3000)
    .next <|
      if (s.field f.val).unreachable then (s.aditDrop a).answer .timeout []
      else if a.tries < 3 then s.aditRepeat a (a.tries + 1) a.switched errs
      else if a.switched then s.aditLost a
      else (s.aditSwitch f.val).aditRepeat a 1 true errs
  | none => .next s

end Sys2Proof.Machine
end

