-- ==== Sys2Proof/Machine/Bar.lean ====
section
/-! DEFINITION. The BAR2 aperture of the host ports (R404 to R406). -/

namespace Sys2Proof.Machine

/-- The engine address of an aperture offset. -/
def State.apertureAt (s : State) (p off : Nat) : Nat := s.sregBits (pageHostport p + 0x048) 17 0 * 2 ^ 30 + off
/-- How many of n bytes from an address on lie below the end of engine space. -/
def belowEnd (a n : Nat) : Nat := min n (2 ^ 48 - a)

/-- A status other than OK, which one the spec does not say. -/
def State.openStatus (s : State) : Status × State :=
  let v := s.fresh
  (Status.ofCode (1 + Config.freeValue v.1 0 % 17), v.2)

/-- A read of core pages takes an aligned access of 4 or 8 bytes. -/
def State.pagePart (s : State) (w : Requester) (a n : Nat) : Option (List (Nat × Status) × State) :=
  match Loc.of a with
  | .page x off =>
    let fails (st : Status) (s : State) : List (Nat × Status) × State := (List.replicate n (0, st), s)
    match s.siteStatus x with
    | .ok =>
      if (n = 4 ∨ n = 8) ∧ off % n = 0 then
        let r := s.coreRead w x off n
        some ((leBytes n r.1).map fun b => (b, Status.ok), r.2)
      else let v := s.openStatus; some (fails v.1 v.2)
    | st => some (fails st s)
  | _ => none

/-- Whether the mesh is cut between a port's entry router for a core and that core (R342, R404). -/
def State.apertureCut (s : State) (p a : Nat) : Bool :=
  let core := match Loc.of a with | .sram x _ | .acc x _ | .page x _ => some x | _ => none
  match core with
  | some x => (s.entryRouter (hostEntries p) ((x.x.val + x.y.val) % 16)).all fun e => s.cutOff e x
  | none => false

/-- A read through the aperture, byte by byte with its status. -/
def State.apertureBytes (s : State) (p a n : Nat) : List (Nat × Status) × State :=
  let k := belowEnd a n
  let r := if s.apertureCut p a then (List.replicate k (0, Status.noRoute), s)
    else (s.pagePart (hostOf p) a k).getD (s.readSpan a k)
  (r.1 ++ List.replicate (n - k) (0, Status.addrRange), r.2)

/-- The first byte that failed, and its status. -/
def firstFail (l : List Status) : Option (Nat × Status) :=
  ((List.range l.length).zip l).find? fun e => e.2 ≠ .ok

/-- An aperture request that ends other than OK is recorded and raised. -/
def State.apertureError (s : State) (p a : Nat) (st : Status) : State :=
  let lo := pageHostport p + 0x050
  let s :=
    if s.sregBit (lo + 4) 31 then s
    else (s.setSreg lo (BitVec.ofNat 32 (bits a 31 0))).setSreg (lo + 4)
      (BitVec.ofNat 32 (2 ^ 31 + st.code * 2 ^ 16 + bits a 47 32))
  s.raiseHost p 0x0F03 .corrected

/-- Whether a port takes an aperture request of n bytes. -/
def State.apertureOpen (s : State) (p off n : Nat) : Bool :=
  s.served && s.pithead.boot != .failed && s.hostUp p && n != 0 && decide (off + n ≤ 2 ^ 36)
/-- A request to a port in D3hot is an Unsupported Request (R402). -/
def State.apertureAsleep (s : State) (p : Nat) : State :=
  if s.hears p && (s.port p).d3hot then s.unsupported p else s

/-- BAR2_READ. -/
def State.apertureRead (s : State) (p off n : Nat) : State :=
  let a := s.apertureAt p off
  let r := s.apertureBytes p a n
  let s := r.2
  let s := match firstFail (r.1.map Prod.snd) with
    | some e => s.apertureError p (a + e.1) e.2
    | none => s
  s.answer .ok (r.1.map fun b => if b.2 = .ok then b.1 else 0xFF)

def execBar2Read (p : Port2) (off n : Nat) (s : State) : Out :=
  if s.apertureOpen p.val off n then s.throughRim (.next (s.apertureRead p.val off n)) else .next (s.apertureAsleep p.val)

/-- A write through the aperture: the status of each byte. Bytes of a part that fails are dropped. -/
def State.aperturePut (s : State) (p a : Nat) (bs : List Nat) : List Status × State :=
  let k := belowEnd a bs.length
  let past := List.replicate (bs.length - k) Status.addrRange
  let here := bs.take k
  let w := hostOf p
  if s.apertureCut p a then (List.replicate k .noRoute ++ past, s)
  else match Loc.of a with
  | .page x off =>
    match s.siteStatus x with
    | .ok =>
      if (k = 4 ∨ k = 8) ∧ off % k = 0 then
        (List.replicate k (s.pageWriteStatus x off k (leNat here)) ++ past, s.coreWrite w x off k (leNat here))
      else let v := s.openStatus; (List.replicate k v.1 ++ past, v.2)
    | st => (List.replicate k st ++ past, s)
  | _ =>
    if s.meetsParked a k then (List.replicate k .bankParked ++ past, s)
    else let r := s.writeSpan a here; (r.1 ++ past, r.2)

/-- BAR2_WRITE. -/
def State.apertureWrite (s : State) (p off : Nat) (bs : List Nat) : State :=
  let a := s.apertureAt p off
  let r := s.aperturePut p a bs
  match firstFail r.1 with
  | some e => r.2.apertureError p (a + e.1) e.2
  | none => r.2

def execBar2Write (p : Port2) (off : Nat) (data : List Byte) (s : State) : Out :=
  if s.apertureOpen p.val off data.length then s.throughRim (.next (s.apertureWrite p.val off (data.map BitVec.toNat)))
  else .next (s.apertureAsleep p.val)

end Sys2Proof.Machine
end

