-- ==== Sys2Proof/Machine/Load.lean ====
section
/-! DEFINITION. How a slate loads (R413 to R417): the checks of a Nertil image, its sections, and the start or the
rejection of its job. -/

namespace Sys2Proof.Machine

/-! ## The image (R415, R416) -/

/-- Where HBM ends. -/
def hbmEnd : Nat := 0xC000000000

/-- The header's checks. -/
def headerValid (image : Nat) (h : List Nat) : Bool :=
  let n (o k : Nat) : Nat := leNat (cut h o k)
  cut h 0 5 == [0x4E, 0x52, 0x54, 0x4C, 1] && n 5 3 == 0 && bits (n 12 2) 14 12 == 0 && n 14 2 == 0 &&
    decide (n 16 8 < 2 ^ 48) && n 16 8 != 0 && n 72 56 == 0 &&
    decide (128 ≤ n 24 8) && decide (n 24 8 ≤ 2 ^ 36) && decide (image + n 24 8 ≤ hbmEnd) &&
    n 32 4 % 64 == 0 && decide (128 ≤ n 32 4) && decide (1 ≤ n 36 4) && decide (n 36 4 ≤ 2 ^ 20) &&
    decide (n 32 4 + 32 * n 36 4 ≤ n 24 8)

/-- A section entry as read. -/
structure ImagePart where
  kind : Nat
  length : Nat
  dst : Nat
  src : Nat
  slot : Nat
  /-- Every reserved bit is zero. -/
  clean : Bool

def ImagePart.ofBytes (b : List Nat) : ImagePart :=
  let slot := b.getD 24 0
  ⟨b.getD 0 0, leNat (cut b 4 4), leNat (cut b 8 8), leNat (cut b 16 8), slot % 8,
    leNat (cut b 1 3) == 0 && decide (leNat (cut b 8 8) < 2 ^ 48) && decide (slot < 8) && leNat (cut b 25 7) == 0⟩

/-- The entries of a section table. -/
def sectionTable (bs : List Nat) (n : Nat) : List ImagePart := (List.range n).map fun i => ImagePart.ofBytes (cut bs (32 * i) 32)

/-- Whether an offset of a page of a field's set holds a register, and not a reserved place (R8). -/
def holdsReg (code o : Nat) : Bool := (findReg (blockRegs code) o).isSome || (code == 0x16 && decide (0x400 ≤ o))

/-- What a valid entry's destination may be, by kind; `before` are the entries earlier in the table. -/
def ImagePart.valid (c : ImagePart) (image size fields : Nat) (before : List ImagePart) : Bool :=
  let used (f : Nat) : Bool := decide (f < 48) && bit fields f
  c.clean &&
  match c.kind with
  | 1 =>
    decide (1 ≤ c.length) && decide (c.src + c.length ≤ size) && c.slot == 0 &&
      match Loc.of c.dst, Loc.of (c.dst + c.length - 1) with
      | .hbm _, .hbm _ => decide (c.dst + c.length ≤ image) || decide (image + size ≤ c.dst)
      | .sram x _, .sram y _ => x == y && used x.field
      | .foreman f _, .foreman g _ => f == g && used f
      | _, _ => false
  | 2 =>
    c.length == 0 && c.src == 0 && c.dst % 64 == 0 &&
      (match Loc.of c.dst with | .sram x _ => used x.field | _ => false) &&
      before.any fun e => e.kind == 1 && decide (e.dst ≤ c.dst) && decide (c.dst + 2048 ≤ e.dst + e.length)
  | 3 =>
    c.length == 4 && decide (c.src < 2 ^ 32) && c.slot == 0 && c.dst % 4 == 0 &&
      match Loc.of c.dst with
      | .page x off => used x.field && (findReg corePageRegs off).isSome
      | .space off =>
        match pageAt off with
        | some (code, inst) => ((pageField? code inst).any used) && holdsReg code (off % 0x1000) && off != rotCtrl ((pageField? code inst).getD 0)
        | none => false
      | _ => false
  | _ => false

def sectionsValid (image size fields : Nat) : List ImagePart → List ImagePart → Bool
  | _, [] => true
  | before, c :: cs => c.valid image size fields before && sectionsValid image size fields (before ++ [c]) cs

/-! ## Applying a section (R417 step 5) -/

/-- A write of a register of a field's page set: whether its register refused it. -/
def State.spaceRefuses (s : State) (code inst off : Nat) : Bool :=
  match code, off % 0x1000 with
  | 0x10, 0x0A8 => s.sregBits off 7 0 != 0
  | 0x19, 0x0D0 => s.sregBits off 15 8 != 0
  | 0x21, _ => s.sregBit (pageHoist inst + 0x058) 3
  | 0x10, o => decide (0x060 ≤ o ∧ o < 0x0A0) && s.sregBit (rotCtrl inst) 2
  | _, _ => false

/-- A kind-3 section. -/
def State.applyRegister (s : State) (dst v : Nat) : Status × State :=
  match Loc.of dst with
  | .page x off =>
    match s.siteStatus x with
    | .ok =>
      let s := s.coreWrite .pithead x off 4 v
      (if (s.core x).regBit 0x044 31 then .denied else .ok, s)
    | st => (st, s)
  | .space off =>
    match pageAt off with
    | some (code, inst) =>
      let t := s.spaceWrite .pithead code inst off 4 v
      let asks := if code = 0x10 ∧ off % 0x1000 = 0x0A8 then bit v 31
        else if code = 0x19 ∧ off % 0x1000 = 0x0D0 then bit v 0 else !s.spaceRefuses code inst off
      (if asks && t.spaceRefuses code inst off then .denied else .ok, t)
    | none => (.addrRange, s)
  | _ => (.addrRange, s)

/-- A kind-2 section: the load of a shift slot, to its end. -/
def State.applyShift (s : State) (dst slot : Nat) : Status × State :=
  match Loc.of dst with
  | .sram x off =>
    match s.siteStatus x with
    | .ok =>
      let s := s.shiftLoadWrite x (2 ^ 31 + slot * 2 ^ 28 + off)
      match (s.core x).shiftLoad with
      | some (k, o) =>
        let s := s.shiftLoadEnds x k o
        (if s.coreOn x then Status.ofCode ((s.core x).regBits 0x090 24 17) else .targetSealed, s)
      | none => (.denied, s)
    | st => (st, s)
  | _ => (.addrRange, s)

/-- A kind-1 section: bytes are copied from the image. -/
def State.applyData (s : State) (src dst n : Nat) : Status × State :=
  let r := s.readSpan src n
  if firstBad (r.1.map Prod.snd) ≠ .ok then (.eccUncorrected, r.2)
  else let w := r.2.writeSpan dst (r.1.map Prod.fst); (firstBad w.1, w.2)

def State.applySection (s : State) (image : Nat) (c : ImagePart) : Status × State :=
  match c.kind with
  | 1 => s.applyData (image + c.src) c.dst c.length
  | 2 => s.applyShift c.dst c.slot
  | _ => s.applyRegister c.dst c.src

/-- Sections in table order, to the first that fails. -/
def State.applySections (s : State) (image : Nat) : List ImagePart → Status × State
  | [] => (.ok, s)
  | c :: cs =>
    let r := s.applySection image c
    if r.1 = .ok then r.2.applySections image cs else r

/-! ## LOADING (R417) -/

/-- Whether a used field can carry the job: a lost one cannot, nor can one that is parked and not on its way. -/
def State.fieldBarred (s : State) (f : Nat) : Bool :=
  let fl := s.field f
  fl.bringup == .lost || (fl.power == .parked && !s.sregBit (pageModpwr + 0x048) 8)

/-- Step 1: the header, read, checked and held against the engine. -/
def State.headerStatus (s : State) (image : Nat) : Status × List Nat × State :=
  let r := s.readSpan image 128
  let h := r.1.map Prod.fst
  let fields := leNat (cut h 16 8)
  let chip := leNat (cut h 12 2)
  let st : Status :=
    if firstBad (r.1.map Prod.snd) ≠ .ok then .eccUncorrected
    else if !headerValid image h then .formatInvalid
    else if !bit chip 15 && bits chip 11 0 != s.chip then .denied
    else if leNat (cut h 8 4) ≠ s.pithead.harvestGen then .denied
    else if (List.range 48).any fun f => bit fields f && s.fieldBarred f then .denied
    else .ok
  (st, h, r.2)

/-- A core's banks that wake have woken. -/
def Core.woken (c : Core) : Core :=
  (List.range 16).foldl (fun c b => if c.bank b = .waking then (c.clearBank b).setBank b .active else c) c

/-- Step 4: every core of the used fields is reset, and its banks wake before anything is placed in them. -/
def State.clearFields (s : State) (fields : Nat) : State :=
  let used := (List.range 48).filter (bit fields)
  let s := used.foldl State.resetCores s
  let left := used.flatMap fun f => (s.coreSites f).flatMap fun x => (List.range 16).map (s.wakeLeft x)
  let s := s.elapse (left.foldl max 0)
  used.foldl (fun s f => s.mapCores f fun _ c => c.woken) s

/-- Steps 2 to 5, for a header that passes step 1: the status that ends them and the state they leave. -/
def State.loadBody (s : State) (image : Nat) (h : List Nat) : Status × State :=
  let fields := leNat (cut h 16 8)
  let size := leNat (cut h 24 8)
  let off := leNat (cut h 32 4)
  let r := s.readSpan (image + off) (size - off)
  let bs := r.1.map Prod.fst
  if firstBad (r.1.map Prod.snd) ≠ .ok then (.eccUncorrected, r.2)
  else if shake256 bs ≠ cut h 40 32 then (.formatInvalid, r.2)
  else
    let s := r.2.extendM 4 (shake256 h)
    let table := sectionTable bs (leNat (cut h 36 4))
    if !sectionsValid image size fields [] table then (.formatInvalid, s)
    else
      let w := (s.clearFields fields).applySections image table
      if w.1 = .ok then w else (w.1, w.2.clearFields fields)

/-- The whole of LOADING up to step 5. -/
def State.loadImage (s : State) (image : Nat) : Status × State :=
  let a := s.headerStatus image
  if a.1 = .ok then a.2.2.loadBody image a.2.1 else (a.1, a.2.2)

/-! ## Events -/

/-- The slate that starts next: the first of the run order that is its port's current slate and waits (R413). -/
def State.nextSlate (s : State) : Option (Nat × Slate) :=
  (s.pithead.runOrder.filterMap fun e =>
    ((s.port e.1).cur.filter fun sl => sl.seq == e.2 && sl.state == .waiting).map fun sl => (e.1, sl)).head?

/-- A slate enters LOADING: its hoists are bound and, where the header is good, its parked fields unpark. -/
def State.startLoading (s : State) (p : Nat) (sl : Slate) : State :=
  let s := s.slateState p .loading
  let s := (List.range 16).foldl (fun s h =>
    if bit sl.hoistBind h then s.onHoist (128 + 16 * p + h) fun z => { z with job := sl.id } else s) s
  let a := s.headerStatus sl.image
  let fields := if a.1 = .ok ∨ a.1 = .denied then leNat (cut a.2.1 16 8) else 0
  let s := a.2.2.onPithead fun q => { q with
    canary := []
    job := some { port := p, id := sl.id, fields := fields, startTime := 0, running := false
                  genStart := q.harvestGen, ended := none, limitExpired := false, snapshots := false, truncated := false
                  faults := [], sealed_ := 0, fenced := 0, undrained := 0, hoistsEnded := false, journalFail := false
                  thenPark := none } }
  if a.1 = .ok then
    (List.range 48).foldl (fun s f =>
      if bit fields f && !bit s.pithead.railFault f then s.unparkStart f else s) s
  else s

/-- JOB_LOADING. -/
def execJobLoading (s : State) : Out :=
  if s.pithead.boot ≠ .ready || s.flash.stopped || s.pithead.job.isSome then .next s
  else
    match s.nextSlate with
    | some (p, sl) => .next (s.startLoading p sl)
    | none => .next s

/-- The slate that loads. -/
def State.loadingSlate (s : State) : Option (Job × Slate) :=
  (s.liveJob.filter fun j => !j.running).bind fun j =>
    ((s.port j.port).cur.filter fun sl => sl.state == .loading).map fun sl => (j, sl)

/-- Whether a used field is up. -/
def State.fieldReady (s : State) (f : Nat) : Bool := (s.field f).bringup == .up && (s.field f).runs && (s.field f).clocked

/-- The status with which LOADING ends, and its state; none while a used field is not yet up. -/
def State.loadEnd (s : State) (j : Job) (sl : Slate) : Option (Status × State) :=
  if (s.headerStatus sl.image).1 ≠ .ok then some (s.loadImage sl.image)
  else if j.fieldList.all s.fieldReady then some (s.loadImage sl.image)
  else if j.fieldList.any fun f => (s.field f).power == .parked || (s.field f).power == .stopped then some (.denied, s)
  else none

/-- Step 6: every used field starts its rotation, and the slate runs. -/
def State.startJob (s : State) (j : Job) : State :=
  let s := j.fieldList.foldl (fun s f =>
    (s.rotWrite f (((s.sreg (rotCtrl f)).toNat &&& 0x20000700) + 1)).onField f fun fl => { fl with stillSince := fl.clk }) s
  (s.onPithead fun p => { p with job := p.job.map fun q => { q with
    running := true, startTime := s.time, genStart := p.harvestGen } }).slateState j.port .running

/-- JOB_RUNNING: a job that an error has ended while it loaded does not start. -/
def execJobRunning (s : State) : Out :=
  match s.loadingSlate with
  | some (j, sl) =>
    match s.loadEnd j sl with
    | some (.ok, t) => .next (if t.loadingSlate.isSome then t.startJob j else t)
    | _ => .next s
  | none => .next s

/-- A slate ends REJECTED: its fields are left in the empty shift, and its record is written. -/
def State.rejectSlate (s : State) (j : Job) (sl : Slate) (st : Status) : State :=
  let s := j.fieldList.foldl (fun s f =>
    ((((s.coreSites f).foldl State.holdReqFlush (s.switchFlush f)).mapCores f fun _ c => c.emptyShift).onField f fun fl => { fl with sched := .idle }).setSregBits (rotCtrl f) 0 0 0) s
  let s := s.raiseHost j.port 0x0F04 .contained
  (s.slateEnds j.port sl (.rejected st)).onPithead fun p => { p with job := none, canary := [] }

/-- SLATE_REJECTED. -/
def execSlateRejected (s : State) : Out :=
  match s.loadingSlate with
  | some (j, sl) =>
    match s.loadEnd j sl with
    | some (.ok, _) => .next s
    | some (st, t) => .next (if t.loadingSlate.isSome then t.rejectSlate j sl st else t)
    | none => .next s
  | none => .next s

end Sys2Proof.Machine
end

