-- ==== Sys2Proof/Machine/Scalar.lean ====
section
/-! DEFINITION. Meanings of the scalar, predicate and branch instructions (R181 to R183). -/

namespace Sys2Proof.Machine

/-! ## Shared forms -/

/-- gd := f ga gb, and the thread goes on. -/
def aluRun (i : Iss) (d a b : GReg) (f : DWord → DWord → DWord) (s : State) : Out :=
  .next <| issue i [d.val, a.val, b.val] s fun th =>
    s.setThread i.site i.thread.val (th.put d.val (f (th.get a.val) (th.get b.val))).advance

/-- gd := f ga. -/
def unaryRun (i : Iss) (d a : GReg) (f : DWord → DWord) (s : State) : Out :=
  .next <| issue i [d.val, a.val] s fun th =>
    s.setThread i.site i.thread.val (th.put d.val (f (th.get a.val))).advance

/-- pd := f of the thread, which reads the general registers listed. -/
def predRun (i : Iss) (pd : PReg) (rs : List Nat) (f : Thread → Bool) (s : State) : Out :=
  .next <| issue i rs s fun th => s.setThread i.site i.thread.val (th.putPred pd.val (f th)).advance

/-- An unguarded instruction (R175) that gives gd a value of its old one. -/
def unguardedRun (x : Site) (t : Fin 4) (d : GReg) (f : DWord → DWord) (s : State) : Out :=
  .next <| issue ⟨x, t, false, 0⟩ [d.val] s fun th =>
    s.setThread x t.val (th.put d.val (f (th.get d.val))).advance

/-! ## Results (R181, R182) -/

def shiftAmount (b : DWord) : Nat := b.toNat % 64
def mulHigh (a b : DWord) : DWord := BitVec.ofInt 64 (a.toInt * b.toInt / 2 ^ 64)
def mulHighU (a b : DWord) : DWord := BitVec.ofNat 64 (a.toNat * b.toNat / 2 ^ 64)
/-- Division toward zero; all ones for a zero divisor; −2^63 / −1 wraps to −2^63. -/
def divS (a b : DWord) : DWord := if b = 0 then BitVec.allOnes 64 else BitVec.ofInt 64 (Int.tdiv a.toInt b.toInt)
def divU (a b : DWord) : DWord := if b = 0 then BitVec.allOnes 64 else BitVec.ofNat 64 (a.toNat / b.toNat)
/-- Remainder with the dividend's sign; the dividend for a zero divisor. -/
def remS (a b : DWord) : DWord := if b = 0 then a else BitVec.ofInt 64 (Int.tmod a.toInt b.toInt)
def remU (a b : DWord) : DWord := if b = 0 then a else BitVec.ofNat 64 (a.toNat % b.toNat)
def minS (a b : DWord) : DWord := if b.slt a then b else a
def maxS (a b : DWord) : DWord := if a.slt b then b else a
def minU (a b : DWord) : DWord := if b.ult a then b else a
def maxU (a b : DWord) : DWord := if a.ult b then b else a
/-- Zeros above the highest one bit. -/
def leadingZeros (a : DWord) : DWord := BitVec.ofNat 64 (if a = 0 then 64 else 63 - a.toNat.log2)
def popCount (a : DWord) : DWord := BitVec.ofNat 64 ((List.range 64).filter fun n => a.getLsbD n).length
/-- SHI's three kinds. -/
def shiftKind (kind : Fin 3) (a : DWord) (n : Nat) : DWord :=
  match kind with
  | 0 => a <<< n
  | 1 => a >>> n
  | 2 => a.sshiftRight n
/-- MOVSH: slice h of a register replaced. -/
def replaceSlice (h : Fin 4) (imm : BitVec 16) (v : DWord) : DWord :=
  BitVec.ofNat 64 (putBits v.toNat (16 * h.val + 15) (16 * h.val) imm.toNat)

/-! ## ALU operations (R181) -/

def execAdd (i : Iss) (d a b : GReg) (s : State) : Out := aluRun i d a b (· + ·) s
def execSub (i : Iss) (d a b : GReg) (s : State) : Out := aluRun i d a b (· - ·) s
def execAnd (i : Iss) (d a b : GReg) (s : State) : Out := aluRun i d a b (· &&& ·) s
def execOr (i : Iss) (d a b : GReg) (s : State) : Out := aluRun i d a b (· ||| ·) s
def execXor (i : Iss) (d a b : GReg) (s : State) : Out := aluRun i d a b (· ^^^ ·) s
def execSll (i : Iss) (d a b : GReg) (s : State) : Out := aluRun i d a b (fun x y => x <<< shiftAmount y) s
def execSrl (i : Iss) (d a b : GReg) (s : State) : Out := aluRun i d a b (fun x y => x >>> shiftAmount y) s
def execSra (i : Iss) (d a b : GReg) (s : State) : Out := aluRun i d a b (fun x y => x.sshiftRight (shiftAmount y)) s
def execMul (i : Iss) (d a b : GReg) (s : State) : Out := aluRun i d a b (· * ·) s
def execMulh (i : Iss) (d a b : GReg) (s : State) : Out := aluRun i d a b mulHigh s
def execMulhu (i : Iss) (d a b : GReg) (s : State) : Out := aluRun i d a b mulHighU s
def execDiv (i : Iss) (d a b : GReg) (s : State) : Out := aluRun i d a b divS s
def execDivu (i : Iss) (d a b : GReg) (s : State) : Out := aluRun i d a b divU s
def execRem (i : Iss) (d a b : GReg) (s : State) : Out := aluRun i d a b remS s
def execRemu (i : Iss) (d a b : GReg) (s : State) : Out := aluRun i d a b remU s
def execMin (i : Iss) (d a b : GReg) (s : State) : Out := aluRun i d a b minS s
def execMax (i : Iss) (d a b : GReg) (s : State) : Out := aluRun i d a b maxS s
def execMinu (i : Iss) (d a b : GReg) (s : State) : Out := aluRun i d a b minU s
def execMaxu (i : Iss) (d a b : GReg) (s : State) : Out := aluRun i d a b maxU s
def execClz (i : Iss) (d a : GReg) (s : State) : Out := unaryRun i d a leadingZeros s
def execPopc (i : Iss) (d a : GReg) (s : State) : Out := unaryRun i d a popCount s

/-! ## Immediates, compares and predicates (R182) -/

def execAddi (i : Iss) (d a : GReg) (imm : BitVec 12) (s : State) : Out := unaryRun i d a (· + simm imm) s
def execAndi (i : Iss) (d a : GReg) (imm : BitVec 12) (s : State) : Out := unaryRun i d a (· &&& simm imm) s
def execOri (i : Iss) (d a : GReg) (imm : BitVec 12) (s : State) : Out := unaryRun i d a (· ||| simm imm) s
def execXori (i : Iss) (d a : GReg) (imm : BitVec 12) (s : State) : Out := unaryRun i d a (· ^^^ simm imm) s
def execShi (i : Iss) (d a : GReg) (kind : Fin 3) (amount : Fin 64) (s : State) : Out :=
  unaryRun i d a (fun v => shiftKind kind v amount.val) s
def execCmpi (i : Iss) (pd : PReg) (a : GReg) (cond : Fin 7) (imm : BitVec 9) (s : State) : Out :=
  predRun i pd [a.val] (fun th => condHolds cond.val (th.get a.val) (simm imm)) s
def execCmp (i : Iss) (pd : PReg) (a b : GReg) (cond : Fin 7) (s : State) : Out :=
  predRun i pd [a.val, b.val] (fun th => condHolds cond.val (th.get a.val) (th.get b.val)) s
def execMovi (x : Site) (t : Fin 4) (d : GReg) (imm : BitVec 21) (s : State) : Out :=
  unguardedRun x t d (fun _ => simm imm) s
def execMovsh (x : Site) (t : Fin 4) (d : GReg) (h : Fin 4) (imm : BitVec 16) (s : State) : Out :=
  unguardedRun x t d (replaceSlice h imm) s
def execPand (i : Iss) (pd pa pb : PReg) (s : State) : Out :=
  predRun i pd [] (fun th => th.pred pa.val && th.pred pb.val) s
def execPor (i : Iss) (pd pa pb : PReg) (s : State) : Out :=
  predRun i pd [] (fun th => th.pred pa.val || th.pred pb.val) s
def execPxor (i : Iss) (pd pa pb : PReg) (s : State) : Out :=
  predRun i pd [] (fun th => th.pred pa.val != th.pred pb.val) s
def execPandn (i : Iss) (pd pa pb : PReg) (s : State) : Out :=
  predRun i pd [] (fun th => th.pred pa.val && !th.pred pb.val) s
def execPnot (i : Iss) (pd pa : PReg) (s : State) : Out := predRun i pd [] (fun th => !th.pred pa.val) s

/-! ## Branches and jumps (R183) -/

def execBr (i : Iss) (off : BitVec 22) (s : State) : Out :=
  .next <| issue i [] s fun th =>
    s.setThread i.site i.thread.val { th with pc := branchTarget th.pc off.toInt }

/-- pc + 4, the return address of BRL and JRL. -/
def Thread.link (th : Thread) : DWord := BitVec.ofNat 64 (th.pc + 4)

def execBrl (i : Iss) (d : GReg) (off : BitVec 17) (s : State) : Out :=
  .next <| issue i [d.val] s fun th =>
    s.setThread i.site i.thread.val { th.put d.val th.link with pc := branchTarget th.pc off.toInt }

/-- A jump to ga, modulo 0x2_0000, or ALIGN where ga[1:0] is not zero. -/
def jumpRun (i : Iss) (th : Thread) (a : GReg) (link : Thread → Thread) (s : State) : State :=
  let target := (th.get a.val).toNat
  if target % 4 ≠ 0 then s.precise i.site i.thread.val 0x02 .addrRange target
  else s.setThread i.site i.thread.val { link th with pc := target % 0x20000 }

def execJr (i : Iss) (a : GReg) (s : State) : Out :=
  .next <| issue i [a.val] s fun th => jumpRun i th a id s
def execJrl (i : Iss) (d a : GReg) (s : State) : Out :=
  .next <| issue i [d.val, a.val] s fun th => jumpRun i th a (fun th => th.put d.val th.link) s

end Sys2Proof.Machine
end

