-- ==== Sys2Proof/Machine/Dispatch.lean ====
section
/-! DEFINITION. One arm per command: each is one direct call of its meaning. -/

namespace Sys2Proof.Machine

def exec (i : Instr) (s : State) : Host.Outcome State Fault Refusal :=
  match i with
  | .add iss d a b => Sys2Proof.Machine.execAdd iss d a b s
  | .sub iss d a b => Sys2Proof.Machine.execSub iss d a b s
  | .and iss d a b => Sys2Proof.Machine.execAnd iss d a b s
  | .or iss d a b => Sys2Proof.Machine.execOr iss d a b s
  | .xor iss d a b => Sys2Proof.Machine.execXor iss d a b s
  | .sll iss d a b => Sys2Proof.Machine.execSll iss d a b s
  | .srl iss d a b => Sys2Proof.Machine.execSrl iss d a b s
  | .sra iss d a b => Sys2Proof.Machine.execSra iss d a b s
  | .mul iss d a b => Sys2Proof.Machine.execMul iss d a b s
  | .mulh iss d a b => Sys2Proof.Machine.execMulh iss d a b s
  | .mulhu iss d a b => Sys2Proof.Machine.execMulhu iss d a b s
  | .div iss d a b => Sys2Proof.Machine.execDiv iss d a b s
  | .divu iss d a b => Sys2Proof.Machine.execDivu iss d a b s
  | .rem iss d a b => Sys2Proof.Machine.execRem iss d a b s
  | .remu iss d a b => Sys2Proof.Machine.execRemu iss d a b s
  | .min iss d a b => Sys2Proof.Machine.execMin iss d a b s
  | .max iss d a b => Sys2Proof.Machine.execMax iss d a b s
  | .minu iss d a b => Sys2Proof.Machine.execMinu iss d a b s
  | .maxu iss d a b => Sys2Proof.Machine.execMaxu iss d a b s
  | .clz iss d a => Sys2Proof.Machine.execClz iss d a s
  | .popc iss d a => Sys2Proof.Machine.execPopc iss d a s
  | .addi iss d a imm => Sys2Proof.Machine.execAddi iss d a imm s
  | .andi iss d a imm => Sys2Proof.Machine.execAndi iss d a imm s
  | .ori iss d a imm => Sys2Proof.Machine.execOri iss d a imm s
  | .xori iss d a imm => Sys2Proof.Machine.execXori iss d a imm s
  | .shi iss d a kind amount => Sys2Proof.Machine.execShi iss d a kind amount s
  | .cmpi iss pd a cond imm => Sys2Proof.Machine.execCmpi iss pd a cond imm s
  | .cmp iss pd a b cond => Sys2Proof.Machine.execCmp iss pd a b cond s
  | .movi site t d imm => Sys2Proof.Machine.execMovi site t d imm s
  | .movsh site t d h imm => Sys2Proof.Machine.execMovsh site t d h imm s
  | .pand iss pd pa pb => Sys2Proof.Machine.execPand iss pd pa pb s
  | .por iss pd pa pb => Sys2Proof.Machine.execPor iss pd pa pb s
  | .pxor iss pd pa pb => Sys2Proof.Machine.execPxor iss pd pa pb s
  | .pandn iss pd pa pb => Sys2Proof.Machine.execPandn iss pd pa pb s
  | .pnot iss pd pa => Sys2Proof.Machine.execPnot iss pd pa s
  | .br iss off => Sys2Proof.Machine.execBr iss off s
  | .brl iss d off => Sys2Proof.Machine.execBrl iss d off s
  | .jr iss a => Sys2Proof.Machine.execJr iss a s
  | .jrl iss d a => Sys2Proof.Machine.execJrl iss d a s
  | .ld iss size d a imm => Sys2Proof.Machine.execLd iss size d a imm s
  | .st iss size d a imm => Sys2Proof.Machine.execSt iss size d a imm s
  | .ldx iss size d a b => Sys2Proof.Machine.execLdx iss size d a b s
  | .stx iss size d a b => Sys2Proof.Machine.execStx iss size d a b s
  | .vld iss v a imm => Sys2Proof.Machine.execVld iss v a imm s
  | .vst iss v a imm => Sys2Proof.Machine.execVst iss v a imm s
  | .vadd iss fmt d a b => Sys2Proof.Machine.execVadd iss fmt d a b s
  | .vsub iss fmt d a b => Sys2Proof.Machine.execVsub iss fmt d a b s
  | .vmul iss fmt d a b => Sys2Proof.Machine.execVmul iss fmt d a b s
  | .vfma iss fmt d a b => Sys2Proof.Machine.execVfma iss fmt d a b s
  | .vfnma iss fmt d a b => Sys2Proof.Machine.execVfnma iss fmt d a b s
  | .vmin iss fmt d a b => Sys2Proof.Machine.execVmin iss fmt d a b s
  | .vmax iss fmt d a b => Sys2Proof.Machine.execVmax iss fmt d a b s
  | .vabs iss fmt d a => Sys2Proof.Machine.execVabs iss fmt d a s
  | .vneg iss fmt d a => Sys2Proof.Machine.execVneg iss fmt d a s
  | .vcvt iss d a src dst rm part => Sys2Proof.Machine.execVcvt iss d a src dst rm part s
  | .vmov iss d a => Sys2Proof.Machine.execVmov iss d a s
  | .vsplat iss fmt d a => Sys2Proof.Machine.execVsplat iss fmt d a s
  | .vext iss fmt d a b => Sys2Proof.Machine.execVext iss fmt d a b s
  | .vins iss fmt d a b => Sys2Proof.Machine.execVins iss fmt d a b s
  | .vrsum iss fmt d a => Sys2Proof.Machine.execVrsum iss fmt d a s
  | .vrmax iss fmt d a => Sys2Proof.Machine.execVrmax iss fmt d a s
  | .vspmv iss a => Sys2Proof.Machine.execVspmv iss a s
  | .vswait iss d => Sys2Proof.Machine.execVswait iss d s
  | .vunpk iss d a b => Sys2Proof.Machine.execVunpk iss d a b s
  | .vpack iss stochastic fmt d a b => Sys2Proof.Machine.execVpack iss stochastic fmt d a b s
  | .aload iss a b => Sys2Proof.Machine.execAload iss a b s
  | .aopen iss a => Sys2Proof.Machine.execAopen iss a s
  | .apass iss a b => Sys2Proof.Machine.execApass iss a b s
  | .aclose iss a b => Sys2Proof.Machine.execAclose iss a b s
  | .afence iss d => Sys2Proof.Machine.execAfence iss d s
  | .cput iss d e => Sys2Proof.Machine.execCput iss d e s
  | .cget iss d e => Sys2Proof.Machine.execCget iss d e s
  | .cgetn iss d e => Sys2Proof.Machine.execCgetn iss d e s
  | .vcput iss v e => Sys2Proof.Machine.execVcput iss v e s
  | .vcget iss v e => Sys2Proof.Machine.execVcget iss v e s
  | .cropen iss e => Sys2Proof.Machine.execCropen iss e s
  | .crclose iss e => Sys2Proof.Machine.execCrclose iss e s
  | .clevel iss d e => Sys2Proof.Machine.execClevel iss d e s
  | .tadd iss a tally => Sys2Proof.Machine.execTadd iss a tally s
  | .ttgt iss a tally => Sys2Proof.Machine.execTtgt iss a tally s
  | .tset iss a tally => Sys2Proof.Machine.execTset iss a tally s
  | .twait iss d a tally => Sys2Proof.Machine.execTwait iss d a tally s
  | .tbar iss d a tally => Sys2Proof.Machine.execTbar iss d a tally s
  | .trd iss d tally => Sys2Proof.Machine.execTrd iss d tally s
  | .tnote iss d a tally => Sys2Proof.Machine.execTnote iss d a tally s
  | .rld iss d a => Sys2Proof.Machine.execRld iss d a s
  | .rst iss d a => Sys2Proof.Machine.execRst iss d a s
  | .rsta iss d a => Sys2Proof.Machine.execRsta iss d a s
  | .rsig iss d a b => Sys2Proof.Machine.execRsig iss d a b s
  | .rput iss d a b => Sys2Proof.Machine.execRput iss d a b s
  | .rget iss d a b => Sys2Proof.Machine.execRget iss d a b s
  | .rtsig iss d a b => Sys2Proof.Machine.execRtsig iss d a b s
  | .rfence iss d => Sys2Proof.Machine.execRfence iss d s
  | .rdsys iss d num => Sys2Proof.Machine.execRdsys iss d num s
  | .wrsys iss a num => Sys2Proof.Machine.execWrsys iss a num s
  | .iflush iss => Sys2Proof.Machine.execIflush iss s
  | .fence iss => Sys2Proof.Machine.execFence iss s
  | .halt iss => Sys2Proof.Machine.execHalt iss s
  | .trap iss code => Sys2Proof.Machine.execTrap iss code s
  | .rte iss => Sys2Proof.Machine.execRte iss s
  | .nop iss => Sys2Proof.Machine.execNop iss s
  | .rdreg iss d a imm => Sys2Proof.Machine.execRdreg iss d a imm s
  | .wrreg iss d a imm => Sys2Proof.Machine.execWrreg iss d a imm s
  | .exceptionTake site t => Sys2Proof.Machine.execExceptionTake site t s
  | .ibufRefill site t => Sys2Proof.Machine.execIbufRefill site t s
  | .coreRun w site v => Sys2Proof.Machine.execCoreRun w site v s
  | .aloadStart site => Sys2Proof.Machine.execAloadStart site s
  | .loadEnd site => Sys2Proof.Machine.execLoadEnd site s
  | .aopenStart site => Sys2Proof.Machine.execAopenStart site s
  | .openEnd site => Sys2Proof.Machine.execOpenEnd site s
  | .apassStart site residues => Sys2Proof.Machine.execApassStart site residues s
  | .passEnd site => Sys2Proof.Machine.execPassEnd site s
  | .acloseStart site => Sys2Proof.Machine.execAcloseStart site s
  | .closeRun site slot => Sys2Proof.Machine.execCloseRun site slot s
  | .closeEnd site slot => Sys2Proof.Machine.execCloseEnd site slot s
  | .tailings site cycles => Sys2Proof.Machine.execTailings site cycles s
  | .srSeedLoad w site stream hi => Sys2Proof.Machine.execSrSeedLoad w site stream hi s
  | .spmvEnd site => Sys2Proof.Machine.execSpmvEnd site s
  | .shiftLoad w site v => Sys2Proof.Machine.execShiftLoad w site v s
  | .shiftLoadEnd site => Sys2Proof.Machine.execShiftLoadEnd site s
  | .rotRun w f v => Sys2Proof.Machine.execRotRun w f v s
  | .rotAdvance w f v => Sys2Proof.Machine.execRotAdvance w f v s
  | .rotStop w f v => Sys2Proof.Machine.execRotStop w f v s
  | .beat f residues => Sys2Proof.Machine.execBeat f residues s
  | .shiftSwitch f => Sys2Proof.Machine.execShiftSwitch f s
  | .switchBeat0 f => Sys2Proof.Machine.execSwitchBeat0 f s
  | .holdRequest site switchLeft => Sys2Proof.Machine.execHoldRequest site switchLeft s
  | .fieldFreeze f => Sys2Proof.Machine.execFieldFreeze f s
  | .fieldResume f => Sys2Proof.Machine.execFieldResume f s
  | .steerTokenPush w site u v => Sys2Proof.Machine.execSteerTokenPush w site u v s
  | .elasticSteer site u => Sys2Proof.Machine.execElasticSteer site u s
  | .elasticMerge site u => Sys2Proof.Machine.execElasticMerge site u s
  | .steerTimeout site u => Sys2Proof.Machine.execSteerTimeout site u s
  | .drainStart w f v => Sys2Proof.Machine.execDrainStart w f v s
  | .drainScheduleStop f => Sys2Proof.Machine.execDrainScheduleStop f s
  | .drainEnd f => Sys2Proof.Machine.execDrainEnd f s
  | .drainLimitExpiry f => Sys2Proof.Machine.execDrainLimitExpiry f s
  | .chuteBind w site e v => Sys2Proof.Machine.execChuteBind w site e v s
  | .chuteUnbind w site e v => Sys2Proof.Machine.execChuteUnbind w site e v s
  | .bindRequestRetry site e => Sys2Proof.Machine.execBindRequestRetry site e s
  | .bindRequest p => Sys2Proof.Machine.execBindRequest p s
  | .grant p => Sys2Proof.Machine.execGrant p s
  | .notYet p => Sys2Proof.Machine.execNotYet p s
  | .mismatch p => Sys2Proof.Machine.execMismatch p s
  | .readPointerUpdate p => Sys2Proof.Machine.execReadPointerUpdate p s
  | .unbindNotice p => Sys2Proof.Machine.execUnbindNotice p s
  | .chuteDataSend site e => Sys2Proof.Machine.execChuteDataSend site e s
  | .pointerUpdateSend site e => Sys2Proof.Machine.execPointerUpdateSend site e s
  | .chuteData p => Sys2Proof.Machine.execChuteData p s
  | .chuteLanding site e => Sys2Proof.Machine.execChuteLanding site e s
  | .read p => Sys2Proof.Machine.execRead p s
  | .write p => Sys2Proof.Machine.execWrite p s
  | .writeAcked p => Sys2Proof.Machine.execWriteAcked p s
  | .signalledWrite p => Sys2Proof.Machine.execSignalledWrite p s
  | .countedWrite p => Sys2Proof.Machine.execCountedWrite p s
  | .privRead p => Sys2Proof.Machine.execPrivRead p s
  | .privWrite p => Sys2Proof.Machine.execPrivWrite p s
  | .readData p => Sys2Proof.Machine.execReadData p s
  | .ack p => Sys2Proof.Machine.execAck p s
  | .lossNotice p => Sys2Proof.Machine.execLossNotice p s
  | .tagTimeout site tag => Sys2Proof.Machine.execTagTimeout site tag s
  | .windowOpen w site win v => Sys2Proof.Machine.execWindowOpen w site win v s
  | .windowClose w site win v => Sys2Proof.Machine.execWindowClose w site win v s
  | .windowClosed site win => Sys2Proof.Machine.execWindowClosed site win s
  | .bankPark w site v => Sys2Proof.Machine.execBankPark w site v s
  | .bankWake w site v => Sys2Proof.Machine.execBankWake w site v s
  | .bankParkedDone site bank => Sys2Proof.Machine.execBankParkedDone site bank s
  | .bankActive site bank => Sys2Proof.Machine.execBankActive site bank s
  | .scrubRead site => Sys2Proof.Machine.execScrubRead site s
  | .eccWriteback site word => Sys2Proof.Machine.execEccWriteback site word s
  | .hoistDoorbell w h v => Sys2Proof.Machine.execHoistDoorbell w h v s
  | .doorbellRtsig p => Sys2Proof.Machine.execDoorbellRtsig p s
  | .descriptorStart h => Sys2Proof.Machine.execDescriptorStart h s
  | .copy h bad => Sys2Proof.Machine.execCopy h bad s
  | .fill h => Sys2Proof.Machine.execFill h s
  | .turn h bad => Sys2Proof.Machine.execTurn h bad s
  | .pack h bad => Sys2Proof.Machine.execPack h bad s
  | .hoistCompletion h => Sys2Proof.Machine.execHoistCompletion h s
  | .hoistSignal h => Sys2Proof.Machine.execHoistSignal h s
  | .hoistEnable w h v => Sys2Proof.Machine.execHoistEnable w h v s
  | .hoistPause w h v => Sys2Proof.Machine.execHoistPause w h v s
  | .hoistAbort w h v => Sys2Proof.Machine.execHoistAbort w h v s
  | .interleaveWrite w v => Sys2Proof.Machine.execInterleaveWrite w v s
  | .patrolScrub stack => Sys2Proof.Machine.execPatrolScrub stack s
  | .stackOffline stack cause => Sys2Proof.Machine.execStackOffline stack cause s
  | .headRoute site p => Sys2Proof.Machine.execHeadRoute site p s
  | .vc2Escape site p => Sys2Proof.Machine.execVc2Escape site p s
  | .linkCrcError site side flit errs => Sys2Proof.Machine.execLinkCrcError site side flit errs s
  | .linkDead site side => Sys2Proof.Machine.execLinkDead site side s
  | .routerDeath site => Sys2Proof.Machine.execRouterDeath site s
  | .routeMapUpdate x => Sys2Proof.Machine.execRouteMapUpdate x s
  | .eidWrite w site v => Sys2Proof.Machine.execEidWrite w site v s
  | .addressBookWrite w site entry v => Sys2Proof.Machine.execAddressBookWrite w site entry v s
  | .directory p => Sys2Proof.Machine.execDirectory p s
  | .directoryAnswer p => Sys2Proof.Machine.execDirectoryAnswer p s
  | .tallySignal p => Sys2Proof.Machine.execTallySignal p s
  | .barrierArrival p => Sys2Proof.Machine.execBarrierArrival p s
  | .barrierRelease p => Sys2Proof.Machine.execBarrierRelease p s
  | .tallyTimeout site t => Sys2Proof.Machine.execTallyTimeout site t s
  | .tallyCapture w f v => Sys2Proof.Machine.execTallyCapture w f v s
  | .tallyCommit w f v => Sys2Proof.Machine.execTallyCommit w f v s
  | .canaryWindow f => Sys2Proof.Machine.execCanaryWindow f s
  | .canaryPoll => Sys2Proof.Machine.execCanaryPoll s
  | .jobWatchdog => Sys2Proof.Machine.execJobWatchdog s
  | .linkEnable w n v => Sys2Proof.Machine.execLinkEnable w n v s
  | .linkDisable w n v => Sys2Proof.Machine.execLinkDisable w n v s
  | .trainingDone n => Sys2Proof.Machine.execTrainingDone n s
  | .trainingTimeout n => Sys2Proof.Machine.execTrainingTimeout n s
  | .frameSend n => Sys2Proof.Machine.execFrameSend n s
  | .dataFrame n frame => Sys2Proof.Machine.execDataFrame n frame s
  | .idleFrame n frame => Sys2Proof.Machine.execIdleFrame n frame s
  | .identityFrame n frame => Sys2Proof.Machine.execIdentityFrame n frame s
  | .goingDownFrame n frame => Sys2Proof.Machine.execGoingDownFrame n frame s
  | .replayTimeout n => Sys2Proof.Machine.execReplayTimeout n s
  | .signalLoss n => Sys2Proof.Machine.execSignalLoss n s
  | .seamEgress n p => Sys2Proof.Machine.execSeamEgress n p s
  | .seamIngress n p => Sys2Proof.Machine.execSeamIngress n p s
  | .translationFill n p => Sys2Proof.Machine.execTranslationFill n p s
  | .occupancyPublish n => Sys2Proof.Machine.execOccupancyPublish n s
  | .crtDataWrite w v => Sys2Proof.Machine.execCrtDataWrite w v s
  | .bar2Read port off length => Sys2Proof.Machine.execBar2Read port off length s
  | .bar2Write port off data => Sys2Proof.Machine.execBar2Write port off data s
  | .keeperHeartbeat port => Sys2Proof.Machine.execKeeperHeartbeat port s
  | .keeperLapsed => Sys2Proof.Machine.execKeeperLapsed s
  | .takeover port => Sys2Proof.Machine.execTakeover port s
  | .handover port => Sys2Proof.Machine.execHandover port s
  | .jobArm port v => Sys2Proof.Machine.execJobArm port v s
  | .cancelCurrent port => Sys2Proof.Machine.execCancelCurrent port s
  | .cancelNext port => Sys2Proof.Machine.execCancelNext port s
  | .jobLoading => Sys2Proof.Machine.execJobLoading s
  | .jobRunning => Sys2Proof.Machine.execJobRunning s
  | .jobDone p => Sys2Proof.Machine.execJobDone p s
  | .jobCompletion => Sys2Proof.Machine.execJobCompletion s
  | .portReset port => Sys2Proof.Machine.execPortReset port s
  | .cappingLoop m => Sys2Proof.Machine.execCappingLoop m s
  | .avsbusWrite => Sys2Proof.Machine.execAvsbusWrite s
  | .stepUpConfirm f => Sys2Proof.Machine.execStepUpConfirm f s
  | .stepFault f => Sys2Proof.Machine.execStepFault f s
  | .droopStretch f mv => Sys2Proof.Machine.execDroopStretch f mv s
  | .stretchEnd f mv => Sys2Proof.Machine.execStretchEnd f mv s
  | .envelopeUpdate f rise => Sys2Proof.Machine.execEnvelopeUpdate f rise s
  | .ledgerTick f => Sys2Proof.Machine.execLedgerTick f s
  | .throttleClear w f v => Sys2Proof.Machine.execThrottleClear w f v s
  | .envStamp w v => Sys2Proof.Machine.execEnvStamp w v s
  | .envStale => Sys2Proof.Machine.execEnvStale s
  | .park w v => Sys2Proof.Machine.execPark w v s
  | .unpark w v => Sys2Proof.Machine.execUnpark w v s
  | .parkInteriorDrained f => Sys2Proof.Machine.execParkInteriorDrained f s
  | .unparkVoltageTimeout f => Sys2Proof.Machine.execUnparkVoltageTimeout f s
  | .autoPark => Sys2Proof.Machine.execAutoPark s
  | .coolantStop => Sys2Proof.Machine.execCoolantStop s
  | .thermalStop f => Sys2Proof.Machine.execThermalStop f s
  | .stopClockGate => Sys2Proof.Machine.execStopClockGate s
  | .stopClear w v coolantOk hottest => Sys2Proof.Machine.execStopClear w v coolantOk hottest s
  | .fieldPllUnlock f => Sys2Proof.Machine.execFieldPllUnlock f s
  | .moduleColdReset => Sys2Proof.Machine.execModuleColdReset s
  | .resetRelease coolantOk => Sys2Proof.Machine.execResetRelease coolantOk s
  | .bringupStage r => Sys2Proof.Machine.execBringupStage r s
  | .fieldBringup f r => Sys2Proof.Machine.execFieldBringup f r s
  | .aditRead f addr errs => Sys2Proof.Machine.execAditRead f addr errs s
  | .aditWrite f addr data errs => Sys2Proof.Machine.execAditWrite f addr data errs s
  | .aditTimeHi f data errs => Sys2Proof.Machine.execAditTimeHi f data errs s
  | .aditTimeLo f data errs => Sys2Proof.Machine.execAditTimeLo f data errs s
  | .aditLoop f errs => Sys2Proof.Machine.execAditLoop f errs s
  | .aditTest f data errs => Sys2Proof.Machine.execAditTest f data errs s
  | .aditScan f data errs => Sys2Proof.Machine.execAditScan f data errs s
  | .aditPower f data errs => Sys2Proof.Machine.execAditPower f data errs s
  | .foremanReset f errs => Sys2Proof.Machine.execForemanReset f errs s
  | .fieldReset f errs => Sys2Proof.Machine.execFieldReset f errs s
  | .aditResponse f errs => Sys2Proof.Machine.execAditResponse f errs s
  | .aditTimeout f errs => Sys2Proof.Machine.execAditTimeout f errs s
  | .timeBroadcast bad => Sys2Proof.Machine.execTimeBroadcast bad s
  | .fullHarvest w v => Sys2Proof.Machine.execFullHarvest w v s
  | .journalWrite ok mapOk => Sys2Proof.Machine.execJournalWrite ok mapOk s
  | .heartbeatSend f => Sys2Proof.Machine.execHeartbeatSend f s
  | .heartbeat p => Sys2Proof.Machine.execHeartbeat p s
  | .heartbeatAnswer p => Sys2Proof.Machine.execHeartbeatAnswer p s
  | .heartbeatMiss site => Sys2Proof.Machine.execHeartbeatMiss site s
  | .echoReturn p => Sys2Proof.Machine.execEchoReturn p s
  | .echoTimeout site => Sys2Proof.Machine.execEchoTimeout site s
  | .foremanHeartbeat f => Sys2Proof.Machine.execForemanHeartbeat f s
  | .foremanLost f stopped => Sys2Proof.Machine.execForemanLost f stopped s
  | .engineWarmReset w v => Sys2Proof.Machine.execEngineWarmReset w v s
  | .fieldResetRequest w v => Sys2Proof.Machine.execFieldResetRequest w v s
  | .coreReset w f v => Sys2Proof.Machine.execCoreReset w f v s
  | .errlogClear w f v => Sys2Proof.Machine.execErrlogClear w f v s
  | .quote port flashOk => Sys2Proof.Machine.execQuote port flashOk s
  | .readCert port => Sys2Proof.Machine.execReadCert port s
  | .extend port => Sys2Proof.Machine.execExtend port s
  | .install port => Sys2Proof.Machine.execInstall port s
  | .commitSvn port => Sys2Proof.Machine.execCommitSvn port s
  | .setOwner port => Sys2Proof.Machine.execSetOwner port s
  | .enrolSuccessor port flashOk => Sys2Proof.Machine.execEnrolSuccessor port flashOk s
  | .debugChallenge port => Sys2Proof.Machine.execDebugChallenge port s
  | .debugUnlock port => Sys2Proof.Machine.execDebugUnlock port s
  | .debugLock port => Sys2Proof.Machine.execDebugLock port s
  | .lock w v => Sys2Proof.Machine.execLock w v s
  | .coreaccRead w f v => Sys2Proof.Machine.execCoreaccRead w f v s
  | .coreaccWrite w f v => Sys2Proof.Machine.execCoreaccWrite w f v s
  | .coreaccEnd f => Sys2Proof.Machine.execCoreaccEnd f s
  | .smbusStatus => Sys2Proof.Machine.execSmbusStatus s
  | .bootState => Sys2Proof.Machine.execBootState s
  | .smbusPower => Sys2Proof.Machine.execSmbusPower s
  | .temp => Sys2Proof.Machine.execTemp s
  | .railFault => Sys2Proof.Machine.execRailFault s
  | .serial => Sys2Proof.Machine.execSerial s
  | .stopCause => Sys2Proof.Machine.execStopCause s
  | .alertAck good pec => Sys2Proof.Machine.execAlertAck good pec s
  | .vcoreRailFault f => Sys2Proof.Machine.execVcoreRailFault f s
  | .rimRailFault rail => Sys2Proof.Machine.execRimRailFault rail s
  | .readClear w a n => Sys2Proof.Machine.execReadClear w a n s
  | .registerWrite w a v n => Sys2Proof.Machine.execRegisterWrite w a v n s
  | .illegal site t word => Sys2Proof.Machine.execIllegal site t word s
  | .slateRejected => Sys2Proof.Machine.execSlateRejected s
  | .unparkVoltageConfirm f => Sys2Proof.Machine.execUnparkVoltageConfirm f s
  | .hostLinkUp port => Sys2Proof.Machine.execHostLinkUp port s

end Sys2Proof.Machine
end

