-- ==== Sys2Proof/WellFormed.lean ====
section
/-! DEFINITION. Which commands are well formed: their operands lie in the ranges the spec gives the fields they stand
for. A meaning is total and does not need it; statements about words and fields do. -/

namespace Sys2Proof

/-- A core's site is no position of a foreman block (R17). -/
def siteOk (x : Site) : Bool := !x.foremanBlock
/-- An instruction is issued by a thread of a core. -/
def issOk (i : Iss) : Bool := siteOk i.site
def requesterOk : Requester → Bool
  | .thread x _ => siteOk x
  | .hostA | .hostB | .pithead | .foreman _ => true

/-- Types with no payload flit (R332). -/
def PType.bare : PType → Bool
  | .read | .ack | .tallySignal | .chuteControl | .privRead | .directory | .heartbeat | .barrier | .lossNotice => true
  | .readData | .write | .writeAcked | .signalledWrite | .countedWrite | .chuteData | .privWrite | .reserved _ => false

/-- The fields of a head flit and its payload lie in their ranges (R331, R332). -/
def packetOk (p : Packet) : Bool :=
  decide (p.vc < 4) && decide (p.tx < 1024) && decide (p.ty < 512) && decide (p.dst < 2 ^ 32) && decide (p.src < 2 ^ 32) &&
    decide (p.tag < 2 ^ 12) && decide (p.job < 2 ^ 16) && decide (p.arg < 2 ^ 32) && decide (p.data < 2 ^ 64) &&
    decide (p.payload.length ≤ 512) && (!p.ptype.bare || p.payload.isEmpty)

/-- A seam frame is 536 bytes long (R383, R384). -/
def frameOk (r : WireFrame) : Bool := decide (r.bytes.length = 536)

def badFlitOk : BadFlit → Bool
  | .idle | .scheduled => true
  | .head p => packetOk p
  | .payload p _ => packetOk p

/-- A register access names bytes of the space it goes to (R402, R403, R526): any length and alignment may be tried. -/
def regAddrOk (a : RegAddr) (n : Nat) : Bool :=
  decide (0 < n ∧ n ≤ 4096) &&
    match a with
    | .space off => decide (off < 0x4000000)
    | .core x off => siteOk x && decide (off < 0x1000)
    | .config _ => n == 4
    | .bar4 off => decide (off < 0x2000)

/-- An offset within a field's page set (R460). -/
def nodeAddrOk (addr : Nat) : Bool := decide (addr < 0x10000) && addr % 4 == 0

/-- At most one reading a field. -/
def readingsOk (m : Readings) : Bool := decide (m.fields.length ≤ 48)

/-- Test results name sites of the field under test (R465). -/
def fieldTestOk (f : FieldNo) (r : FieldTest) : Bool :=
  (r.sites.all fun t => siteOk t.1 && t.1.field == f.val) && (r.stitch.all fun q => q.1.field == f.val) &&
    (r.entries.all fun x => x.field == f.val)

/-- Well-formed commands. -/
def wellFormed (c : Instr) : Bool :=
  match c with
  | .add i _ _ _ | .sub i _ _ _ | .and i _ _ _ | .or i _ _ _ | .xor i _ _ _ | .sll i _ _ _ | .srl i _ _ _
    | .sra i _ _ _ | .mul i _ _ _ | .mulh i _ _ _ | .mulhu i _ _ _ | .div i _ _ _ | .divu i _ _ _ | .rem i _ _ _
    | .remu i _ _ _ | .min i _ _ _ | .max i _ _ _ | .minu i _ _ _ | .maxu i _ _ _ | .clz i _ _ | .popc i _ _
    | .addi i _ _ _ | .andi i _ _ _ | .ori i _ _ _ | .xori i _ _ _ | .shi i _ _ _ _ | .cmpi i _ _ _ _
    | .cmp i _ _ _ _ | .pand i _ _ _ | .por i _ _ _ | .pxor i _ _ _ | .pandn i _ _ _ | .pnot i _ _ | .br i _
    | .brl i _ _ | .jr i _ | .jrl i _ _ | .ld i _ _ _ _ | .st i _ _ _ _ | .ldx i _ _ _ _ | .stx i _ _ _ _
    | .vld i _ _ _ | .vst i _ _ _ | .vadd i _ _ _ _ | .vsub i _ _ _ _ | .vmul i _ _ _ _ | .vfma i _ _ _ _
    | .vfnma i _ _ _ _ | .vmin i _ _ _ _ | .vmax i _ _ _ _ | .vabs i _ _ _ | .vneg i _ _ _ | .vmov i _ _
    | .vsplat i _ _ _ | .vext i _ _ _ _ | .vins i _ _ _ _ | .vrsum i _ _ _ | .vrmax i _ _ _ | .vspmv i _
    | .vswait i _ | .vunpk i _ _ _ | .aload i _ _ | .aopen i _ | .apass i _ _ | .aclose i _ _ | .afence i _
    | .cput i _ _ | .cget i _ _ | .cgetn i _ _ | .vcput i _ _ | .vcget i _ _ | .cropen i _ | .crclose i _
    | .clevel i _ _ | .tadd i _ _ | .ttgt i _ _ | .tset i _ _ | .twait i _ _ _ | .tbar i _ _ _ | .trd i _ _
    | .tnote i _ _ _ | .rld i _ _ | .rst i _ _ | .rsta i _ _ | .rsig i _ _ _ | .rput i _ _ _ | .rget i _ _ _
    | .rtsig i _ _ _ | .rfence i _ | .rdsys i _ _ | .iflush i | .fence i | .halt i | .trap i _ | .rte i | .nop i
    | .rdreg i _ _ _ | .wrreg i _ _ _ =>
    issOk i
  | .movi site _ _ _ | .movsh site _ _ _ _ | .exceptionTake site _ | .ibufRefill site _ | .aloadStart site
    | .loadEnd site | .aopenStart site | .openEnd site | .apassStart site _ | .passEnd site | .acloseStart site
    | .closeRun site _ | .closeEnd site _ | .tailings site _ | .spmvEnd site | .shiftLoadEnd site
    | .holdRequest site _ | .elasticSteer site _ | .elasticMerge site _ | .steerTimeout site _
    | .bindRequestRetry site _ | .chuteDataSend site _ | .pointerUpdateSend site _ | .chuteLanding site _
    | .tagTimeout site _ | .windowClosed site _ | .bankParkedDone site _ | .bankActive site _ | .scrubRead site
    | .eccWriteback site _ | .linkDead site _ | .routerDeath site | .tallyTimeout site _ | .heartbeatMiss site
    | .echoTimeout site =>
    siteOk site
  | .vcvt i _ _ src dst rm part => issOk i && Isa.vcvtOk src.val dst.val rm.val part.val
  | .vpack i _ fmt d _ _ => issOk i && decide (d.val + Isa.vpackRegs fmt.val ≤ 32)
  | .wrsys i _ num => issOk i && Isa.sysWritable num.val
  | .coreRun w site _ | .srSeedLoad w site _ _ | .shiftLoad w site _ | .steerTokenPush w site _ _
    | .chuteBind w site _ _ | .chuteUnbind w site _ _ | .windowOpen w site _ _ | .windowClose w site _ _
    | .bankPark w site _ | .bankWake w site _ | .eidWrite w site _ | .addressBookWrite w site _ _ =>
    requesterOk w && siteOk site
  | .rotRun w _ _ | .rotAdvance w _ _ | .rotStop w _ _ | .drainStart w _ _ | .hoistDoorbell w _ _
    | .hoistEnable w _ _ | .hoistPause w _ _ | .hoistAbort w _ _ | .interleaveWrite w _ | .tallyCapture w _ _
    | .tallyCommit w _ _ | .linkEnable w _ _ | .linkDisable w _ _ | .crtDataWrite w _ | .throttleClear w _ _
    | .envStamp w _ | .park w _ | .unpark w _ | .stopClear w _ _ _ | .fullHarvest w _ | .engineWarmReset w _
    | .fieldResetRequest w _ | .coreReset w _ _ | .errlogClear w _ _ | .lock w _ | .coreaccRead w _ _
    | .coreaccWrite w _ _ =>
    requesterOk w
  | .beat _ _ | .shiftSwitch _ | .switchBeat0 _ | .fieldFreeze _ | .fieldResume _ | .drainScheduleStop _
    | .drainEnd _ | .drainLimitExpiry _ | .descriptorStart _ | .copy _ _ | .fill _ | .turn _ _ | .pack _ _
    | .hoistCompletion _ | .hoistSignal _ | .patrolScrub _ | .stackOffline _ _ | .routeMapUpdate _ | .canaryWindow _
    | .canaryPoll | .jobWatchdog | .trainingDone _ | .trainingTimeout _ | .frameSend _ | .replayTimeout _
    | .signalLoss _ | .occupancyPublish _ | .keeperHeartbeat _ | .keeperLapsed | .takeover _ | .handover _
    | .jobArm _ _ | .cancelCurrent _ | .cancelNext _ | .jobLoading | .jobRunning | .jobCompletion | .portReset _
    | .avsbusWrite | .stepUpConfirm _ | .stepFault _ | .droopStretch _ _ | .stretchEnd _ _ | .envelopeUpdate _ _
    | .ledgerTick _ | .envStale | .parkInteriorDrained _ | .unparkVoltageTimeout _ | .autoPark | .coolantStop
    | .thermalStop _ | .stopClockGate | .fieldPllUnlock _ | .moduleColdReset | .resetRelease _ | .bringupStage _
    | .aditTimeHi _ _ _ | .aditTimeLo _ _ _ | .aditLoop _ _ | .aditTest _ _ _ | .aditScan _ _ _ | .aditPower _ _ _
    | .foremanReset _ _ | .fieldReset _ _ | .aditResponse _ _ | .aditTimeout _ _ | .timeBroadcast _ | .journalWrite _ _
    | .heartbeatSend _ | .foremanHeartbeat _ | .foremanLost _ _ | .quote _ _ | .readCert _ | .extend _ | .install _
    | .commitSvn _ | .setOwner _ | .enrolSuccessor _ _ | .debugChallenge _ | .debugUnlock _ | .debugLock _
    | .coreaccEnd _ | .smbusStatus | .bootState | .smbusPower | .temp | .railFault | .serial | .stopCause
    | .alertAck _ _ | .vcoreRailFault _ | .rimRailFault _ | .slateRejected | .unparkVoltageConfirm _ | .hostLinkUp _ =>
    true
  | .bindRequest p | .grant p | .notYet p | .mismatch p | .readPointerUpdate p | .unbindNotice p | .chuteData p
    | .read p | .write p | .writeAcked p | .signalledWrite p | .countedWrite p | .privRead p | .privWrite p
    | .readData p | .ack p | .lossNotice p | .doorbellRtsig p | .directory p | .directoryAnswer p | .tallySignal p
    | .barrierArrival p | .barrierRelease p | .seamEgress _ p | .seamIngress _ p | .translationFill _ p
    | .jobDone p | .heartbeat p | .heartbeatAnswer p | .echoReturn p =>
    packetOk p
  | .headRoute x p => siteOk x && packetOk p
  | .vc2Escape site p => siteOk site && packetOk p
  | .linkCrcError site _ flit _ => siteOk site && badFlitOk flit
  | .dataFrame _ frame | .idleFrame _ frame | .identityFrame _ frame | .goingDownFrame _ frame => frameOk frame
  | .bar2Read _ off length => decide (1 ≤ length) && decide (off + length ≤ 2 ^ 36)
  | .bar2Write _ off data => decide (1 ≤ data.length) && decide (off + data.length ≤ 2 ^ 36)
  | .cappingLoop m => readingsOk m
  | .fieldBringup f r => fieldTestOk f r
  | .aditRead _ addr _ | .aditWrite _ addr _ _ => nodeAddrOk addr
  | .readClear w a n | .registerWrite w a _ n => requesterOk w && regAddrOk a n
  | .illegal x t w => siteOk x && (decodeWord x t w).isNone

/-- Every command of a queue is well formed. -/
def queueOk (q : List Instr) : Bool := q.all wellFormed

end Sys2Proof
end

