-- ==== Sys2Proof/Safety.lean ====
section
/-! DEFINITION. The terms claims are stated in: a command that completes, an instruction that stands ready to issue, what
a command leaves as it was, and a state whose stores are in canonical form. -/

namespace Sys2Proof.Machine

/-- The command answers a next state, of which `P` holds. -/
def Completes (o : Out) (P : State → Prop) : Prop := ∃ t, o = .next t ∧ P t

/-! ## Canonical form -/

/-- A memory's canonical form: addresses strictly rising, no byte equal to what an unlisted address reads as, 0. -/
def Memory.wf (m : SMap Byte) : Bool := SMap.wf (fun _ => 0) m

/-- Every memory of the engine outside its cores is in canonical form: HBM and the memories of both hosts. -/
def State.memoriesWf (s : State) : Bool := Memory.wf s.hbm && Memory.wf s.hostA && Memory.wf s.hostB

/-- The memories of a core and of a foreman. -/
def Core.memoryWf (c : Core) : Bool := Memory.wf c.sram
def Field.memoryWf (fl : Field) : Bool := Memory.wf fl.foremanMem

/-! ## Issue -/

/-- The thread of an instruction. -/
def State.issuer (s : State) (i : Iss) : Thread := s.thread i.site i.thread.val

/-- An instruction under guard `i` that reads or writes the general registers `rs` issues and executes: its thread can
issue, the guard is true, and no outstanding RLD owes it a register (R175, R177). -/
def Ready (i : Iss) (rs : List Nat) (s : State) : Bool :=
  canIssue s i.site i.thread.val && guardHolds (s.issuer i) i && ((s.issuer i).awaited rs).isEmpty

/-- The guard of a core instruction; the U-format instructions and the events have none (R173, R175). -/
def guardOf (c : Instr) : Option Iss :=
  match c with
  | .add i _ _ _ | .sub i _ _ _ | .and i _ _ _ | .or i _ _ _ | .xor i _ _ _ | .sll i _ _ _ | .srl i _ _ _
  | .sra i _ _ _ | .mul i _ _ _ | .mulh i _ _ _ | .mulhu i _ _ _ | .div i _ _ _ | .divu i _ _ _ | .rem i _ _ _
  | .remu i _ _ _ | .min i _ _ _ | .max i _ _ _ | .minu i _ _ _ | .maxu i _ _ _ | .clz i _ _ | .popc i _ _
  | .addi i _ _ _ | .andi i _ _ _ | .ori i _ _ _ | .xori i _ _ _ | .shi i _ _ _ _ | .cmpi i _ _ _ _
  | .cmp i _ _ _ _ | .pand i _ _ _ | .por i _ _ _ | .pxor i _ _ _ | .pandn i _ _ _ | .pnot i _ _ | .br i _
  | .brl i _ _ | .jr i _ | .jrl i _ _ | .ld i _ _ _ _ | .st i _ _ _ _ | .ldx i _ _ _ _ | .stx i _ _ _ _
  | .vld i _ _ _ | .vst i _ _ _ | .vadd i _ _ _ _ | .vsub i _ _ _ _ | .vmul i _ _ _ _ | .vfma i _ _ _ _
  | .vfnma i _ _ _ _ | .vmin i _ _ _ _ | .vmax i _ _ _ _ | .vabs i _ _ _ | .vneg i _ _ _ | .vcvt i _ _ _ _ _ _
  | .vmov i _ _ | .vsplat i _ _ _ | .vext i _ _ _ _ | .vins i _ _ _ _ | .vrsum i _ _ _ | .vrmax i _ _ _
  | .vspmv i _ | .vswait i _ | .vunpk i _ _ _ | .vpack i _ _ _ _ _ | .aload i _ _ | .aopen i _ | .apass i _ _
  | .aclose i _ _ | .afence i _ | .cput i _ _ | .cget i _ _ | .cgetn i _ _ | .vcput i _ _ | .vcget i _ _
  | .cropen i _ | .crclose i _ | .clevel i _ _ | .tadd i _ _ | .ttgt i _ _ | .tset i _ _ | .twait i _ _ _
  | .tbar i _ _ _ | .trd i _ _ | .tnote i _ _ _ | .rld i _ _ | .rst i _ _ | .rsta i _ _ | .rsig i _ _ _
  | .rput i _ _ _ | .rget i _ _ _ | .rtsig i _ _ _ | .rfence i _ | .rdsys i _ _ | .wrsys i _ _ | .iflush i
  | .fence i | .halt i | .trap i _ | .rte i | .nop i | .rdreg i _ _ _ | .wrreg i _ _ _ => some i
  | _ => none

/-! ## What stays as it was -/

/-- Everything but the core at x is as before. -/
def CoreOnly (x : Site) (s t : State) : Prop :=
  { t with cores := s.cores } = s ∧ ∀ y : Site, y.key ≠ x.key → t.core y = s.core y

/-- Every byte of memory is as before: HBM, the memories of both hosts, and the SRAM of every core. -/
def MemoryKept (s t : State) : Prop :=
  t.hbm = s.hbm ∧ t.hostA = s.hostA ∧ t.hostB = s.hostB ∧ ∀ y : Site, (t.core y).sram = (s.core y).sram

/-- Everything but the core at x, and the model's own count of free values drawn, is as before. -/
def CoreEvent (x : Site) (s t : State) : Prop := CoreOnly x s { t with freeCtr := s.freeCtr }

/-- Everything but the core at x is as before, and but the quiet state that activity ends in x's field (R374): its canary
page, and since when the field has been still. -/
def OnlyCore (x : Site) (s t : State) : Prop :=
  { t with cores := s.cores, regs := s.regs, fields := s.fields } = s ∧
  (∀ y : Site, y.key ≠ x.key → t.core y = s.core y) ∧
  (∀ f, f ≠ x.field → t.field f = s.field f) ∧
  { t.field x.field with stillSince := (s.field x.field).stillSince } = s.field x.field ∧
  (∀ off, off < pageCanary x.field ∨ pageCanary x.field + 0x1000 ≤ off → t.sreg off = s.sreg off)

/-- Everything but thread k of the core at x is as before, in the same sense. -/
def OnlyThread (x : Site) (k : Nat) (s t : State) : Prop :=
  OnlyCore x s t ∧ t.core x = (s.core x).setThread k (t.thread x k)

/-- The thread's program counter is `pc`, and nothing else of it has changed but general register d, which holds v
unless it is g0 (R41). -/
def Thread.wrote (th th' : Thread) (d : Nat) (v : DWord) (pc : Nat) : Prop :=
  th'.get d = (if d = 0 then 0 else v) ∧ (∀ r, r ≠ d → th'.get r = th.get r) ∧ th'.pc = pc ∧
  { th' with g := th.g, pc := th.pc } = th

/-- The thread's program counter is `pc` and nothing else of it has changed. -/
def Thread.moved (th th' : Thread) (pc : Nat) : Prop := th' = { th with pc := pc }

/-- The instruction completes: gd := v, the program counter goes on to `pc`, and all else is as before. -/
def WritesG (i : Iss) (d : GReg) (v : DWord) (pc : Nat) (s : State) (o : Out) : Prop :=
  Completes o fun t => (s.issuer i).wrote (t.issuer i) d.val v pc ∧ OnlyThread i.site i.thread.val s t

/-- The instruction completes: pd := v unless it is p0, the next instruction follows, and all else is as before. -/
def WritesP (i : Iss) (pd : PReg) (v : Bool) (s : State) (o : Out) : Prop :=
  Completes o fun t =>
    (t.issuer i).pred pd.val = (pd.val == 0 || v) ∧
    (∀ q : PReg, q ≠ pd → (t.issuer i).pred q.val = (s.issuer i).pred q.val) ∧
    { t.issuer i with p := (s.issuer i).p } = (s.issuer i).advance ∧ OnlyThread i.site i.thread.val s t

/-- The instruction completes: it only moves the program counter. -/
def MovesPc (i : Iss) (pc : Nat) (s : State) (o : Out) : Prop :=
  Completes o fun t => (s.issuer i).moved (t.issuer i) pc ∧ OnlyThread i.site i.thread.val s t

/-- The instruction completes: vd := v with its flags added to FCSR, the next instruction follows, all else is as before. -/
def WritesV (i : Iss) (d : VReg) (r : VRes) (s : State) (o : Out) : Prop :=
  Completes o fun t =>
    (t.core i.site).vreg d.val = r.v ∧
    (∀ q : VReg, q ≠ d → (t.core i.site).vreg q.val = (s.core i.site).vreg q.val) ∧
    t.issuer i = { (s.issuer i).advance with fcsr := (s.issuer i).fcsr ||| (r.flags.setWidth 64 <<< 4) } ∧
    OnlyCore i.site s t ∧ (∀ k : Fin 4, k ≠ i.thread → t.thread i.site k.val = s.thread i.site k.val) ∧
    { t.core i.site with v := (s.core i.site).v, threads := (s.core i.site).threads } = s.core i.site

/-- Every byte of core x's SRAM outside the `n` bytes at `a` is as before (R59). -/
def SramBut (x : Site) (a n : Nat) (s t : State) : Prop :=
  ∀ b < 0x20000, b < a ∨ a + n ≤ b → (t.core x).byte b = (s.core x).byte b

/-- No word that the `n` bytes at `a` touch holds a check error. -/
def Core.cleanAt (c : Core) (a n : Nat) : Bool := (wordsOf a n).all fun w => decide (c.eccAt w = .clean)

/-- The `n` bytes at `a` lie in SRAM, in active banks, with clean words (R184, R283). -/
def Core.plainAt (c : Core) (a n : Nat) : Bool := decide (a + n ≤ 0x20000) && c.rangeActive a n && c.cleanAt a n

/-- The number of the `n` bytes at `a` of a core's SRAM, little-endian (R6). -/
def Core.le (c : Core) (a : Nat) : Nat → Nat
  | 0 => 0
  | n + 1 => (c.byte a).toNat + 256 * c.le (a + 1) n

/-! ## Events of a core -/

/-- An entry with this code, from this site, is in the field's ERRLOG ring (R478, R479). -/
def Logged (f code site : Nat) (t : State) : Prop :=
  ∃ n r, (t.field f).errlog.get (fun _ => none) n = some r ∧ r.code = code ∧ r.site = site

/-- Everything but the core at x and the packets on the wafer is as before, and but the quiet state of the fields that
activity ends (R374): their canary pages, and since when they have been still. -/
def CoreAndNet (x : Site) (s t : State) : Prop :=
  { t with cores := s.cores, regs := s.regs, fields := s.fields, net := s.net } = s ∧
  (∀ y : Site, y.key ≠ x.key → t.core y = s.core y) ∧
  (∀ f, { t.field f with stillSince := (s.field f).stillSince } = s.field f) ∧
  (∀ off, (∀ f, off < pageCanary f ∨ pageCanary f + 0x1000 ≤ off) → t.sreg off = s.sreg off)

/-- The address book of the core at x knows where an endpoint lies (R350). -/
abbrev Knows (s : State) (x : Site) (eid : Nat) : Prop := ((s.core x).bookFind s.chip eid).isSome = true

/-- The packets on the wafer are `net` and one more, which enters at the core at x and of which P holds. -/
def Sends (x : Site) (net : List Flight) (t : State) (P : Packet → Prop) : Prop :=
  ∃ p, P p ∧ t.net = net ++ [Flight.fresh x.key p]

/-- A packet arrives whole at the core at x: it is neither poisoned nor too long (R331, R343). -/
abbrev Arrives (p : Packet) (x : Site) (s : State) : Prop :=
  s.arrival p = some x ∧ p.poisoned = false ∧ p.payload.length ≤ 512

/-- No thread waits on a chute of the core, and nothing that a cursor has pushed waits there (R259). -/
def Core.chutesIdle (c : Core) : Bool := c.chuteWait.isEmpty && c.chutes.all fun kv => kv.2.late.isEmpty

/-- Of core x's chutes only endpoint e has changed, to `v`. -/
def ChuteIs (x : Site) (e : Nat) (v : Chute) (s t : State) : Prop :=
  (t.core x).chute e = v ∧ ∀ k, k ≠ e → (t.core x).chute k = (s.core x).chute k

/-- Of core x's tallies only tally n has changed, to `v`. -/
def TallyIs (x : Site) (n : Nat) (v : Tally) (s t : State) : Prop :=
  (t.core x).tally n = v ∧ ∀ k, k ≠ n → (t.core x).tally k = (s.core x).tally k

/-! ## Events of a field or of register space -/

/-- Everything but the registers of register space and field f is as before. -/
def FieldOnly (f : Nat) (s t : State) : Prop :=
  { t with regs := s.regs, fields := s.fields } = s ∧ ∀ g, g ≠ f → t.field g = s.field g

/-- Every register of register space but these is as before. -/
def SregsBut (offs : List Nat) (s t : State) : Prop := ∀ off, off ∉ offs → t.sreg off = s.sreg off

/-! ## Exceptions -/

/-- The thread enters the handler (R201): EPC, ECAUSE and EVAL are written, handler mode is entered, and the program
counter is CORE.TVEC.handler; nothing else of the engine changes but the hold of R203. -/
def EntersHandler (x : Site) (k : Nat) (e : Exc) (epc : Nat) (s t : State) : Prop :=
  t.thread x k = { s.thread x k with
    epc := BitVec.ofNat 64 epc, ecause := e.ecause, eval := e.eval, handler := true
    pc := (s.core x).regBits 0x070 16 2 * 4, state := .running, wait := .none } ∧
  OnlyCore x s t ∧
  { t.core x with threads := (s.core x).threads, array := (s.core x).array } = s.core x ∧
  { (t.core x).array with checkHold := (s.core x).array.checkHold } = (s.core x).array ∧
  (∀ j, j ≠ k → t.thread x j = s.thread x j)

/-- The thread becomes TRAPPED (R202): EPC, ECAUSE and EVAL are written, CORE.PCt is EPC, CORE.TRAPt records the exception
unless its valid bit is already 1, and CORE_THREAD_TRAPPED is in the field ERRLOG. -/
def BecomesTrapped (x : Site) (k : Nat) (e : Exc) (epc : Nat) (s t : State) : Prop :=
  t.thread x k = { s.thread x k with
    epc := BitVec.ofNat 64 epc, ecause := e.ecause, eval := e.eval, pc := epc % 0x20000, state := .trapped, wait := .none } ∧
  (t.core x).reg (0x080 + 4 * k) =
    (if (s.core x).regBit (0x080 + 4 * k) 31 then (s.core x).reg (0x080 + 4 * k)
     else BitVec.ofNat 32 (2 ^ 31 + e.async.toNat * 2 ^ 30 + (s.thread x k).handler.toNat * 2 ^ 29 + e.cause * 2 ^ 24 +
       e.status.code * 2 ^ 16 + epc / 4 % 2 ^ 15)) ∧
  Logged x.field 0x0701 (siteWord x k) t ∧
  (∀ j, j ≠ k → t.thread x j = s.thread x j) ∧ (t.core x).sram = (s.core x).sram ∧ (t.core x).v = (s.core x).v ∧
  t.pithead = s.pithead

end Sys2Proof.Machine
end

