-- ==== Sys2Proof/Certificates/Slice0/Obligations.lean ====
section
/-! DEFINITION. The statements for the provers. -/

open Sys2Proof Sys2Proof.Machine

/-! ## The machine -/

/-- A step with a command in front of the queue is that command's effect on the state with the queue's rest. -/
def Obligations.StepRunsFrontCommand : Prop :=
  ∀ (c : Instr) (rest : List Instr) (s : State), s.pending = c :: rest → step s = exec c { s with pending := rest }

/-! ## Issue -/

/-- R175: an instruction whose guard is false has no effect: the thread goes on to the next instruction; p0 is true in every thread,
and MOVI and MOVSH execute whatever the predicates hold. R177, R180: a thread that is not RUNNING, a core without power or clock
and a frozen field issue nothing; that the command of such a thread then changes nothing at all is the model's choice (log 4,
PRESUMED). -/
def Obligations.Issue : Prop :=
  (∀ (c : Instr) (i : Iss) (s : State), guardOf c = some i → wellFormed c = true →
    canIssue s i.site i.thread.val = true → (s.issuer i).pred i.pred.val = i.neg →
    exec c s = .next (s.setThread i.site i.thread.val (s.issuer i).advance)) ∧
  (∀ (c : Instr) (i : Iss) (s : State), guardOf c = some i →
    ((s.issuer i).state ≠ .running ∨ s.coreOn i.site = false ∨ (s.field i.site.field).frozen = true) →
    exec c s = .next s) ∧
  (∀ (x : Site) (t : Fin 4) (d : GReg) (imm : BitVec 21) (h : Fin 4) (imm16 : BitVec 16) (s : State),
    let i : Iss := ⟨x, t, false, 0⟩
    (s.issuer i).pred 0 = true ∧
    (Ready i [d.val] s = true →
      (∃ v, WritesG i d v (s.issuer i).nextPc s (exec (.movi x t d imm) s)) ∧
      ∃ v, WritesG i d v (s.issuer i).nextPc s (exec (.movsh x t d h imm16) s)))

/-! ## Scalar instructions -/

/-- R181: the results of the ALU operations, and their frame. Division never traps: a zero divisor gives all ones and the dividend,
and −2^63 / −1 gives −2^63 with remainder 0. CLZ counts the zeros above the highest one bit, POPC the one bits. -/
def Obligations.AluResults : Prop :=
  (∀ (i : Iss) (d a b : GReg) (s : State), Ready i [d.val, a.val, b.val] s = true →
    let x := (s.issuer i).get a.val
    let y := (s.issuer i).get b.val
    let W := fun v o => WritesG i d v (s.issuer i).nextPc s o
    W (x + y) (exec (.add i d a b) s) ∧
    W (x - y) (exec (.sub i d a b) s) ∧
    W (x &&& y) (exec (.and i d a b) s) ∧
    W (x ||| y) (exec (.or i d a b) s) ∧
    W (x ^^^ y) (exec (.xor i d a b) s) ∧
    W (x <<< (y.toNat % 64)) (exec (.sll i d a b) s) ∧
    W (x >>> (y.toNat % 64)) (exec (.srl i d a b) s) ∧
    W (x.sshiftRight (y.toNat % 64)) (exec (.sra i d a b) s) ∧
    W (BitVec.ofNat 64 (x.toNat * y.toNat)) (exec (.mul i d a b) s) ∧
    W (BitVec.ofInt 64 ((x.toInt * y.toInt) / 2 ^ 64)) (exec (.mulh i d a b) s) ∧
    W (BitVec.ofNat 64 ((x.toNat * y.toNat) / 2 ^ 64)) (exec (.mulhu i d a b) s) ∧
    W (if y.toInt < x.toInt then y else x) (exec (.min i d a b) s) ∧
    W (if x.toInt < y.toInt then y else x) (exec (.max i d a b) s) ∧
    W (if y.toNat < x.toNat then y else x) (exec (.minu i d a b) s) ∧
    W (if x.toNat < y.toNat then y else x) (exec (.maxu i d a b) s)) ∧
  (∀ (i : Iss) (d a b : GReg) (s : State), Ready i [d.val, a.val, b.val] s = true →
    let x := (s.issuer i).get a.val
    let y := (s.issuer i).get b.val
    let W := fun v o => WritesG i d v (s.issuer i).nextPc s o
    (y = 0 →
      W (BitVec.allOnes 64) (exec (.div i d a b) s) ∧ W (BitVec.allOnes 64) (exec (.divu i d a b) s) ∧
      W x (exec (.rem i d a b) s) ∧ W x (exec (.remu i d a b) s)) ∧
    (y ≠ 0 → ∃ q r : DWord,
      W q (exec (.divu i d a b) s) ∧ W r (exec (.remu i d a b) s) ∧
      x.toNat = q.toNat * y.toNat + r.toNat ∧ r.toNat < y.toNat) ∧
    (y ≠ 0 → ¬(x.toInt = -2 ^ 63 ∧ y.toInt = -1) → ∃ q r : DWord,
      W q (exec (.div i d a b) s) ∧ W r (exec (.rem i d a b) s) ∧
      x.toInt = q.toInt * y.toInt + r.toInt ∧ r.toInt.natAbs < y.toInt.natAbs ∧
      (r.toInt ≠ 0 → (r.toInt < 0 ↔ x.toInt < 0))) ∧
    (x.toInt = -2 ^ 63 → y.toInt = -1 → W x (exec (.div i d a b) s) ∧ W 0 (exec (.rem i d a b) s))) ∧
  (∀ (i : Iss) (d a : GReg) (s : State), Ready i [d.val, a.val] s = true →
    let x := (s.issuer i).get a.val
    (∃ n : Nat, n ≤ 64 ∧ WritesG i d (BitVec.ofNat 64 n) (s.issuer i).nextPc s (exec (.clz i d a) s) ∧
      x.toNat < 2 ^ (64 - n) ∧ (n < 64 → 2 ^ (63 - n) ≤ x.toNat)) ∧
    WritesG i d (BitVec.ofNat 64 ((List.range 64).map fun k => x.toNat / 2 ^ k % 2).sum) (s.issuer i).nextPc s
      (exec (.popc i d a) s))

/-- R182: the immediate instructions, MOVI and MOVSH; the compares and the predicate operations, which set pd. -/
def Obligations.ImmediatesAndPredicates : Prop :=
  (∀ (i : Iss) (d a : GReg) (imm : BitVec 12) (n : Fin 64) (imm21 : BitVec 21) (imm16 : BitVec 16) (h : Fin 4) (s : State),
    (Ready i [d.val, a.val] s = true →
      let x := (s.issuer i).get a.val
      let W := fun v o => WritesG i d v (s.issuer i).nextPc s o
      W (x + imm.signExtend 64) (exec (.addi i d a imm) s) ∧
      W (x &&& imm.signExtend 64) (exec (.andi i d a imm) s) ∧
      W (x ||| imm.signExtend 64) (exec (.ori i d a imm) s) ∧
      W (x ^^^ imm.signExtend 64) (exec (.xori i d a imm) s) ∧
      W (x <<< n.val) (exec (.shi i d a 0 n) s) ∧
      W (x >>> n.val) (exec (.shi i d a 1 n) s) ∧
      W (x.sshiftRight n.val) (exec (.shi i d a 2 n) s)) ∧
    (Ready ⟨i.site, i.thread, false, 0⟩ [d.val] s = true →
      let x := (s.issuer i).get d.val
      WritesG i d (imm21.signExtend 64) (s.issuer i).nextPc s (exec (.movi i.site i.thread d imm21) s) ∧
      ∃ v : DWord, WritesG i d v (s.issuer i).nextPc s (exec (.movsh i.site i.thread d h imm16) s) ∧
        ∀ k < 64, v.getLsbD k = if k / 16 = h.val then imm16.getLsbD (k % 16) else x.getLsbD k)) ∧
  (∀ (i : Iss) (pd pa pb : PReg) (a b : GReg) (imm : BitVec 9) (s : State),
    let th := s.issuer i
    let x := th.get a.val
    let W := fun v o => WritesP i pd v s o
    let cond : Fin 7 → DWord → Bool := fun n y =>
      match n with
      | 0 => x == y | 1 => x != y | 2 => decide (x.toInt < y.toInt) | 3 => decide (y.toInt ≤ x.toInt)
      | 4 => decide (x.toNat < y.toNat) | 5 => decide (y.toNat ≤ x.toNat) | 6 => (x &&& y) != 0
    (Ready i [a.val, b.val] s = true → ∀ n, W (cond n (th.get b.val)) (exec (.cmp i pd a b n) s)) ∧
    (Ready i [a.val] s = true → ∀ n, W (cond n (imm.signExtend 64)) (exec (.cmpi i pd a n imm) s)) ∧
    (Ready i [] s = true →
      W (th.pred pa.val && th.pred pb.val) (exec (.pand i pd pa pb) s) ∧
      W (th.pred pa.val || th.pred pb.val) (exec (.por i pd pa pb) s) ∧
      W (th.pred pa.val ^^ th.pred pb.val) (exec (.pxor i pd pa pb) s) ∧
      W (th.pred pa.val && !th.pred pb.val) (exec (.pandn i pd pa pb) s) ∧
      W (!th.pred pa.val) (exec (.pnot i pd pa) s)))

/-- R183, R199: branches and jumps. Every target is taken modulo 0x2_0000; a jump to an address that is not a multiple of 4
takes ALIGN, with the address in EVAL. -/
def Obligations.BranchesAndJumps : Prop :=
  (∀ (i : Iss) (d a : GReg) (off : BitVec 22) (off17 : BitVec 17) (s : State),
    let th := s.issuer i
    let link : DWord := BitVec.ofNat 64 (th.pc + 4)
    let target := (th.get a.val).toNat
    (Ready i [] s = true →
      MovesPc i (((th.pc : Int) + 4 * off.toInt) % 0x20000).toNat s (exec (.br i off) s)) ∧
    (Ready i [d.val] s = true →
      WritesG i d link (((th.pc : Int) + 4 * off17.toInt) % 0x20000).toNat s (exec (.brl i d off17) s)) ∧
    (Ready i [a.val] s = true → target % 4 = 0 → MovesPc i (target % 0x20000) s (exec (.jr i a) s)) ∧
    (Ready i [d.val, a.val] s = true → target % 4 = 0 →
      WritesG i d link (target % 0x20000) s (exec (.jrl i d a) s))) ∧
  (∀ (i : Iss) (d a : GReg) (s : State),
    let target := ((s.issuer i).get a.val).toNat
    let e : Exc := ⟨0x02, false, false, .addrRange, BitVec.ofNat 64 target⟩
    target % 4 ≠ 0 →
    (Ready i [a.val] s = true →
      exec (.jr i a) s = .next ((s.takeExc i.site i.thread.val e (s.issuer i).pc).stirs i.site.field)) ∧
    (Ready i [d.val, a.val] s = true →
      exec (.jrl i d a) s = .next ((s.takeExc i.site i.thread.val e (s.issuer i).pc).stirs i.site.field)))

/-! ## Loads and stores -/

/-- R184: a load from SRAM completes: gd is the little-endian number of its bytes, sign-extended (sizes 0 to 3) or
zero-extended (sizes 4 to 6); byte j of a VLD's vd is the byte at the address plus j. -/
def Obligations.LoadsFromSram : Prop :=
  (∀ (i : Iss) (size : Fin 7) (d a b : GReg) (imm : BitVec 9) (s : State),
    let th := s.issuer i
    let n := match size with | 0 => 1 | 1 => 2 | 2 => 4 | 3 => 8 | 4 => 1 | 5 => 2 | 6 => 4
    let value := fun addr =>
      let raw := BitVec.ofNat (8 * n) ((s.core i.site).le addr n)
      if size.val < 4 then raw.signExtend 64 else raw.setWidth 64
    let ea := (th.get a.val + imm.signExtend 64 * BitVec.ofNat 64 n).toNat
    let ex := (th.get a.val + th.get b.val).toNat
    (Ready i [d.val, a.val] s = true → ea % n = 0 → (s.core i.site).plainAt ea n = true →
      WritesG i d (value ea) th.nextPc s (exec (.ld i size d a imm) s)) ∧
    (Ready i [d.val, a.val, b.val] s = true → ex % n = 0 → (s.core i.site).plainAt ex n = true →
      WritesG i d (value ex) th.nextPc s (exec (.ldx i size d a b) s))) ∧
  (∀ (i : Iss) (v : VReg) (a : GReg) (imm : BitVec 9) (s : State),
    let ea := ((s.issuer i).get a.val + imm.signExtend 64 * 8).toNat
    Ready i [a.val] s = true → ea % 8 = 0 → (s.core i.site).plainAt ea 64 = true →
      WritesV i v ⟨BitVec.ofNat 512 ((s.core i.site).le ea 64), 0⟩ s (exec (.vld i v a imm) s))

/-- R184: a store to SRAM completes: its bytes, at the address the operands give, take the low bytes of the register in
increasing order; every other byte of the core's SRAM, every register and every other thread is as before. -/
def Obligations.StoresToSram : Prop :=
  ∀ (i : Iss) (size : Fin 4) (d a b : GReg) (v : VReg) (imm : BitVec 9) (s : State),
    let th := s.issuer i
    let c := s.core i.site
    let n := 2 ^ size.val
    let stored := fun (addr n value : Nat) (o : Out) => Completes o fun t =>
      (∀ j < n, (t.core i.site).byte (addr + j) = BitVec.ofNat 8 (value / 256 ^ j)) ∧ SramBut i.site addr n s t ∧
      th.moved (t.issuer i) th.nextPc ∧ OnlyCore i.site s t ∧
      (∀ k : Fin 4, k ≠ i.thread → t.thread i.site k.val = s.thread i.site k.val) ∧
      { t.core i.site with sram := c.sram, threads := c.threads } = c
    let ea := (th.get a.val + imm.signExtend 64 * BitVec.ofNat 64 n).toNat
    let ex := (th.get a.val + th.get b.val).toNat
    let ev := (th.get a.val + imm.signExtend 64 * 8).toNat
    (Ready i [d.val, a.val] s = true → ea % n = 0 → c.plainAt ea n = true →
      stored ea n (th.get d.val).toNat (exec (.st i size d a imm) s)) ∧
    (Ready i [d.val, a.val, b.val] s = true → ex % n = 0 → c.plainAt ex n = true →
      stored ex n (th.get d.val).toNat (exec (.stx i size d a b) s)) ∧
    (Ready i [a.val] s = true → ev % 8 = 0 → c.plainAt ev 64 = true →
      stored ev 64 (c.vreg v.val).toNat (exec (.vst i v a imm) s))

/-- R59, R184: LD, LDX, ST and STX of a word or a double, and VLD and VST, act on whole entries of the accumulator buffer:
entry e lies at 0x3_0000 + 4·e, little-endian. Every other entry and SRAM are as before. -/
def Obligations.AccumulatorAccess : Prop :=
  ∀ (i : Iss) (size : Fin 7) (wide : Bool) (d a b : GReg) (v : VReg) (imm : BitVec 9) (s : State),
    let th := s.issuer i
    let c := s.core i.site
    let n := 2 ^ (size.val % 4)
    let w := if wide then 8 else 4
    let entry := fun (ea j : Nat) => c.accEntry ((ea - 0x30000) / 4 + j) % 2 ^ 32
    let whole := fun (ea n aligned : Nat) => 0x30000 ≤ ea ∧ ea + n ≤ 0x38000 ∧ ea % aligned = 0 ∧ s.width i.site ≠ 0
    let loaded := fun ea =>
      let raw := entry ea 0 + (if n = 8 then 2 ^ 32 * entry ea 1 else 0)
      if size = 2 then (BitVec.ofNat 32 raw).signExtend 64 else BitVec.ofNat 64 raw
    let stored := fun (ea n value : Nat) (o : Out) => Completes o fun t =>
      (∀ q, (t.core i.site).accEntry q =
        if (ea - 0x30000) / 4 ≤ q ∧ q < (ea - 0x30000) / 4 + n / 4 then value / 2 ^ (32 * (q - (ea - 0x30000) / 4)) % 2 ^ 32
        else c.accEntry q) ∧
      (t.core i.site).sram = c.sram ∧ th.moved (t.issuer i) th.nextPc ∧ OnlyCore i.site s t
    let ea := fun n => (th.get a.val + imm.signExtend 64 * BitVec.ofNat 64 n).toNat
    let ex := (th.get a.val + th.get b.val).toNat
    (4 ≤ n → Ready i [d.val, a.val, b.val] s = true →
      (whole (ea n) n n → WritesG i d (loaded (ea n)) th.nextPc s (exec (.ld i size d a imm) s)) ∧
      (whole ex n n → WritesG i d (loaded ex) th.nextPc s (exec (.ldx i size d a b) s))) ∧
    (Ready i [d.val, a.val, b.val] s = true → c.array.refuses = false →
      (whole (ea w) w w → stored (ea w) w (th.get d.val).toNat (exec (.st i (if wide then 3 else 2) d a imm) s)) ∧
      (whole ex w w → stored ex w (th.get d.val).toNat (exec (.stx i (if wide then 3 else 2) d a b) s))) ∧
    (Ready i [a.val] s = true → whole (ea 8) 64 8 →
      (∃ u : VWord, WritesV i v ⟨u, 0⟩ s (exec (.vld i v a imm) s) ∧ ∀ j < 16, lane 32 u j = entry (ea 8) j) ∧
      (c.array.refuses = false → stored (ea 8) 64 (c.vreg v.val).toNat (exec (.vst i v a imm) s)))

/-- R184, R185, R199: what an access of n bytes at an address meets, in the order of its checks; the access leaves no effect but the
exception, with the address in EVAL. A load that meets an uncorrectable word completes with zero, and the thread owes an
asynchronous ECC exception with the address. -/
def Obligations.AccessChecks : Prop :=
  (∀ (i : Iss) (size : Fin 4) (d a b : GReg) (s : State),
    let th := s.issuer i
    let c := s.core i.site
    let n := 2 ^ size.val
    let ea := (th.get a.val + th.get b.val).toNat
    let inAccumulator := 0x30000 ≤ ea ∧ ea + n ≤ 0x38000 ∧ 4 ≤ n ∧ s.width i.site ≠ 0
    let takes := fun cause st =>
      (s.takeExc i.site i.thread.val ⟨cause, false, false, st, BitVec.ofNat 64 ea⟩ th.pc).stirs i.site.field
    Ready i [d.val, a.val, b.val] s = true →
    (ea % n ≠ 0 →
      exec (.stx i size d a b) s = .next (takes 0x02 .addrRange) ∧
      exec (.ldx i (size.castLE (by decide)) d a b) s = .next (takes 0x02 .addrRange)) ∧
    (ea % n = 0 → ¬(ea + n ≤ 0x20000) → ¬inAccumulator →
      exec (.stx i size d a b) s = .next (takes 0x03 .addrRange) ∧
      exec (.ldx i (size.castLE (by decide)) d a b) s = .next (takes 0x03 .addrRange)) ∧
    (ea % n = 0 → ea + n ≤ 0x20000 → c.rangeActive ea n = false →
      exec (.stx i size d a b) s = .next (takes 0x05 .bankParked) ∧
      exec (.ldx i (size.castLE (by decide)) d a b) s = .next (takes 0x05 .bankParked)) ∧
    (ea % n = 0 → inAccumulator → c.array.refuses = true → exec (.stx i size d a b) s = .next (takes 0x04 .busy))) ∧
  (∀ (i : Iss) (d a : GReg) (s : State),
    let th := s.issuer i
    let ea := (th.get a.val).toNat
    Ready i [d.val, a.val] s = true → ea % 8 = 0 → ea + 8 ≤ 0x20000 → (s.core i.site).rangeActive ea 8 = true →
    (s.core i.site).eccAt ea = .double true → (s.core i.site).regBit 0x0C4 31 = true →
    Completes (exec (.ld i 3 d a 0) s) fun t =>
      (t.issuer i).get d.val = 0 ∧ (t.issuer i).pc = th.nextPc ∧ (t.issuer i).state = .running ∧
      (t.issuer i).async = th.async ++ [⟨0x06, Status.eccUncorrected.code, BitVec.ofNat 64 ea⟩])

/-! ## System instructions and exceptions -/

/-- R171, R174, R197: RDSYS and WRSYS; a WRSYS of a read-only register is ILLEGAL, whatever the guard. -/
def Obligations.SystemRegisters : Prop :=
  (∀ (i : Iss) (d a : GReg) (s : State),
    let th := s.issuer i
    let v := th.get a.val
    let rd := fun num v => WritesG i d v th.nextPc s (exec (.rdsys i d num) s)
    let wr := fun num (th' : Thread) => Completes (exec (.wrsys i a num) s) fun t =>
      t.issuer i = { th' with pc := th.nextPc } ∧ OnlyThread i.site i.thread.val s t
    (Ready i [d.val] s = true →
      rd 0 (BitVec.ofNat 64 (s.coreEid i.site * 2 ^ 32 + i.thread.val)) ∧ rd 1 th.epc ∧ rd 2 th.ecause ∧ rd 3 th.eval ∧
      rd 4 th.fcsr ∧ rd 5 th.rstatus ∧ rd 6 (BitVec.ofNat 64 (s.now i.site.field)) ∧
      rd 7 (BitVec.ofNat 64 (((s.field i.site.field).clk - (s.field i.site.field).held) / 20 -
        max (s.field i.site.field).base (s.core i.site).cycles)) ∧ rd 8 th.scratch ∧
      rd 9 (if th.handler then 1 else 0)) ∧
    (Ready i [a.val] s = true →
      wr 1 { th with epc := v } ∧ wr 2 { th with ecause := v &&& 0x3FF1F#64 } ∧ wr 3 { th with eval := v } ∧
      wr 4 { th with fcsr := if v.toNat % 8 < 4 then v &&& 0x3F3#64 else v &&& 0x3F0#64 } ∧
      wr 5 { th with rstatus := v &&& 0xFFFF00FF#64 } ∧ wr 8 { th with scratch := v })) ∧
  (∀ (i : Iss) (a : GReg) (num : Fin 10) (s : State), num = 0 ∨ num = 6 ∨ num = 7 ∨ num = 9 →
    canIssue s i.site i.thread.val = true → ∃ w : Nat,
      Isa.encode (.wrsys i a num) = some w ∧
      exec (.wrsys i a num) s = .next (s.takeExc i.site i.thread.val ⟨0x01, false, false, .ok, BitVec.ofNat 64 w⟩ (s.issuer i).pc))

/-- R197: FENCE and NOP, IFLUSH, HALT and RTE. -/
def Obligations.SystemInstructions : Prop :=
  ∀ (i : Iss) (s : State), Ready i [] s = true →
    let th := s.issuer i
    let c := s.core i.site
    MovesPc i th.nextPc s (exec (.fence i) s) ∧ MovesPc i th.nextPc s (exec (.nop i) s) ∧
    (Completes (exec (.iflush i) s) fun t =>
      (t.core i.site).ibuf = [] ∧ th.moved (t.issuer i) th.nextPc ∧ OnlyCore i.site s t ∧
      { t.core i.site with ibuf := c.ibuf, threads := c.threads } = c) ∧
    (th.pendingG = [] → th.async = [] → Completes (exec (.halt i) s) fun t =>
      t.issuer i = { th with pc := th.nextPc, state := .stopped } ∧ (t.core i.site).runBit i.thread.val = false ∧
      (∀ k : Fin 4, k ≠ i.thread → t.thread i.site k.val = s.thread i.site k.val ∧
        (t.core i.site).runBit k.val = c.runBit k.val) ∧
      OnlyCore i.site s t ∧ (t.core i.site).sram = c.sram) ∧
    (Completes (exec (.rte i) s) fun t =>
      t.issuer i = { th with pc := th.epc.toNat % 0x20000 / 4 * 4, handler := false } ∧ OnlyCore i.site s t ∧
      { t.core i.site with threads := c.threads, array := c.array } = c)

/-- R198, R199, R201, R202: TRAP, a word that R174 finds unassigned, and the oldest asynchronous exception of a thread are
taken: into the handler where CORE.TVEC.en is 1 and the thread is not in handler mode, and otherwise the thread becomes
TRAPPED. A taken asynchronous exception is no longer owed. -/
def Obligations.ExceptionsAreTaken : Prop :=
  ∀ (i : Iss) (code : Fin 32) (word : Word) (s : State),
    let x := i.site
    let k := i.thread.val
    let th := s.issuer i
    let taken := fun (e : Exc) (epc : Nat) (s : State) (o : Out) => Completes o fun t =>
      if (s.core x).regBit 0x070 0 = true ∧ th.handler = false then EntersHandler x k e epc s t
      else BecomesTrapped x k e epc s t
    (Ready i [] s = true → taken ⟨0x07, false, false, .ok, BitVec.ofNat 64 code.val⟩ th.nextPc s (exec (.trap i code) s)) ∧
    (canIssue s x k = true → decodeWord x i.thread word = none →
      taken ⟨0x01, false, false, .ok, word.setWidth 64⟩ th.pc s (exec (.illegal x i.thread word) s)) ∧
    (∀ a rest, th.async = a :: rest → s.coreRuns x = true → th.state = .running → th.handler = false → th.wait = .none →
      taken ⟨a.cause, false, true, Status.ofCode a.status, a.eval⟩ th.pc (s.setThread x k { th with async := rest })
        (exec (.exceptionTake x i.thread) s))

/-- R42, R179, R198, R281: the 64-byte line of a thread's next instruction enters the instruction buffer as SRAM holds it,
unless its bank is parked or closing: then the fetch raises PARKED. -/
def Obligations.InstructionFetch : Prop :=
  ∀ (x : Site) (t : Fin 4) (s : State),
    let c := s.core x
    let pc := (s.thread x t.val).pc
    let line := pc / 64
    canIssue s x t.val = true →
    ((c.rangeActive (line * 64) 64 = true → c.cleanAt (line * 64) 64 = true →
      Completes (exec (.ibufRefill x t) s) fun u =>
        ((u.core x).ibuf.find? fun e => e.1 == line) = some (line, (List.range 64).map fun j => c.byte (line * 64 + j)) ∧
        { u.core x with ibuf := c.ibuf } = c ∧ (∀ y : Site, y.key ≠ x.key → u.core y = s.core y) ∧
        u.regs = s.regs ∧ u.fields = s.fields) ∧
     (c.rangeActive (line * 64) 64 = false →
      exec (.ibufRefill x t) s = .next (s.takeExc x t.val ⟨0x05, true, false, .bankParked, BitVec.ofNat 64 pc⟩ pc)))

/-- R197, R205: RDREG gives a register of the own page, zero-extended; WRREG writes gd[31:0]: at every offset of the page, as
the page reads and writes, and both go on to the next instruction. At CORE.TVEC reserved bits read zero. R63, R172, R560: a write of CORE.RUN starts the STOPPED threads whose bits it sets, out of handler mode and at CORE.PCt,
and stops the running threads whose bits it clears; one from a requester that does not reach the page, or of a core without
power or clock, changes nothing.
How a host in reset is turned away is the model's reading (log 155, DEDUCED). -/
def Obligations.PageAndRunRegisters : Prop :=
  (∀ (i : Iss) (d a : GReg) (imm : BitVec 12) (s : State),
    let th := s.issuer i
    let c := s.core i.site
    let off := (th.get a.val + imm.signExtend 64).toNat
    let w : Requester := .thread i.site i.thread
    Ready i [d.val, a.val] s = true →
    (off % 4 = 0 → off < 0x1000 →
      (let r := s.coreRead w i.site off 4
       exec (.rdreg i d a imm) s = .next ((r.2.onThread i.site i.thread.val fun th =>
         { th.put d.val (BitVec.ofNat 64 r.1) with pc := th.nextPc }).stirs i.site.field)) ∧
      exec (.wrreg i d a imm) s = .next (((s.setThread i.site i.thread.val { th with pc := th.nextPc }).coreWrite w i.site off 4
        ((th.get d.val).toNat % 2 ^ 32)).stirs i.site.field)) ∧
    (c.latch = [] → off = 0x070 → Completes (exec (.rdreg i d a imm) s) fun t =>
      th.wrote (t.issuer i) d.val ((c.reg 0x070).setWidth 64) th.nextPc ∧ OnlyThread i.site i.thread.val s t) ∧
    (c.latch = [] → off = 0x070 → Completes (exec (.wrreg i d a imm) s) fun t =>
      (t.core i.site).reg 0x070 = ((c.reg 0x070) &&& ~~~0x1FFFD#32) ||| ((th.get d.val).setWidth 32 &&& 0x1FFFD#32) ∧
      (∀ o, o ≠ 0x070 → (t.core i.site).reg o = c.reg o) ∧ th.moved (t.issuer i) th.nextPc ∧ OnlyCore i.site s t) ∧
    (off % 4 ≠ 0 → exec (.rdreg i d a imm) s =
      .next ((s.takeExc i.site i.thread.val ⟨0x02, false, false, .addrRange, BitVec.ofNat 64 off⟩ th.pc).stirs i.site.field)) ∧
    (off % 4 = 0 → 0x1000 ≤ off → exec (.wrreg i d a imm) s =
      .next ((s.takeExc i.site i.thread.val ⟨0x03, false, false, .addrRange, BitVec.ofNat 64 off⟩ th.pc).stirs i.site.field))) ∧
  (∀ (w : Requester) (x : Site) (v : Word) (s : State),
    (s.awake w = false → exec (.coreRun w x v) s = .next (s.turnedAway w)) ∧
    (s.awake w = true → (s.coreClocked x && reaches w x) = false → exec (.coreRun w x v) s = .next s) ∧
    (s.awake w = true → s.coreClocked x = true → reaches w x = true → Completes (exec (.coreRun w x v) s) fun t =>
      (∀ k : Fin 4, (s.thread x k.val).async = [] ∧ (s.thread x k.val).late = []) →
      (∀ k : Fin 4, let th := s.thread x k.val
        (t.core x).runBit k.val = v.getLsbD k.val ∧
        (th.state = .stopped → t.thread x k.val =
          if v.getLsbD k.val = true then { th with state := .running, handler := false, wait := .none } else th) ∧
        (v.getLsbD k.val = false → th.state = .running → th.pendingG = [] → (s.core x).runBit k.val = true →
          (s.field x.field).frozen = false → t.thread x k.val = { th with state := .stopped, wait := .none })) ∧
      (t.core x).sram = (s.core x).sram ∧ (t.core x).v = (s.core x).v ∧
      { t with cores := s.cores } = s ∧ (∀ y : Site, y.key ≠ x.key → t.core y = s.core y)))

/-! ## Vector instructions -/

/-- R186: the lane-wise arithmetic. Each lane is computed from its own lanes of the operands and rounded once, under
FCSR.rm or, in the 8-bit formats, to nearest; the lanes' flags are added to FCSR. -/
def Obligations.VectorArithmetic : Prop :=
  ∀ (i : Iss) (fmt : Fin 6) (d a b : VReg) (s : State), Ready i [] s = true →
    let c := s.core i.site
    let f := match fmt with | 0 => fp64 | 1 => fp32 | 2 => fp16 | 3 => bf16 | 4 => e4m3 | 5 => e5m2
    let md := if 4 ≤ fmt.val then RMode.nearest else RMode.ofRm ((s.issuer i).fcsr.toNat % 8)
    let A := lane f.width (c.vreg a.val)
    let B := lane f.width (c.vreg b.val)
    let D := lane f.width (c.vreg d.val)
    let W := fun (op : Nat → Rounded) o =>
      WritesV i d (VRes.ofRounded f.width ((List.range (512 / f.width)).map op)) s o
    W (fun j => f.addSub md false (A j) (B j)) (exec (.vadd i fmt d a b) s) ∧
    W (fun j => f.addSub md true (A j) (B j)) (exec (.vsub i fmt d a b) s) ∧
    W (fun j => f.mulR md (A j) (B j)) (exec (.vmul i fmt d a b) s) ∧
    W (fun j => f.fma md false (A j) (B j) (D j)) (exec (.vfma i fmt d a b) s) ∧
    W (fun j => f.fma md true (A j) (B j) (D j)) (exec (.vfnma i fmt d a b) s) ∧
    W (fun j => f.minMax false (A j) (B j)) (exec (.vmin i fmt d a b) s) ∧
    W (fun j => f.minMax true (A j) (B j)) (exec (.vmax i fmt d a b) s) ∧
    W (fun j => ⟨A j % 2 ^ (f.width - 1), 0⟩) (exec (.vabs i fmt d a) s) ∧
    W (fun j => ⟨(A j + 2 ^ (f.width - 1)) % 2 ^ f.width, 0⟩) (exec (.vneg i fmt d a) s)

/-- R187: VCVT converts the lanes of the selected part; lanes of vd outside the part keep their values, and only
stochastic rounding (rm 4) moves the thread's stream. R188: the moves and reductions. VSPLAT fills every lane, VINS replaces one and keeps the others, VEXT gives one
zero-extended; the lane number is taken modulo the lanes. VRSUM and VRMAX reduce by a pairwise tree. -/
def Obligations.VectorConversionAndMoves : Prop :=
  (∀ (i : Iss) (d a : VReg) (src dst : Fin 8) (rm : Fin 6) (part : Fin 8) (s : State), Ready i [] s = true →
    Isa.vcvtOk src.val dst.val rm.val part.val = true →
    let c := s.core i.site
    let fs := LaneFmt.ofCode src.val
    let fd := LaneFmt.ofCode dst.val
    let n := min fs.lanes fd.lanes
    let r := vcvt fs fd rm.val ((s.issuer i).fcsr.toNat % 8) part.val (c.vreg a.val) (c.vreg d.val) (c.stream i.thread.val)
    Completes (exec (.vcvt i d a src dst rm part) s) fun t =>
      (t.core i.site).vreg d.val = r.1.v ∧
      (∀ j < fd.lanes, fs.lanes < fd.lanes → (j < part.val * n ∨ part.val * n + n ≤ j) →
        lane fd.width ((t.core i.site).vreg d.val) j = lane fd.width (c.vreg d.val) j) ∧
      (∀ q : VReg, q ≠ d → (t.core i.site).vreg q.val = c.vreg q.val) ∧
      (rm.val ≠ 4 → (t.core i.site).stream i.thread.val = c.stream i.thread.val) ∧
      t.issuer i = { (s.issuer i).advance with fcsr := (s.issuer i).fcsr ||| (r.1.flags.setWidth 64 <<< 4) } ∧
      OnlyCore i.site s t ∧
      { t.core i.site with v := c.v, threads := c.threads, rng := c.rng } = c) ∧
  (∀ (i : Iss) (fmt : Fin 6) (d a : VReg) (ga gb gd : GReg) (s : State),
    let c := s.core i.site
    let th := s.issuer i
    let f := match fmt with | 0 => fp64 | 1 => fp32 | 2 => fp16 | 3 => bf16 | 4 => e4m3 | 5 => e5m2
    let md := if 4 ≤ fmt.val then RMode.nearest else RMode.ofRm (th.fcsr.toNat % 8)
    let n := 512 / f.width
    let k := (th.get gb.val).toNat % n
    let reduced := fun (r : Rounded) o => Completes o fun t =>
      (th.wrote { t.issuer i with fcsr := th.fcsr } gd.val (BitVec.ofNat 64 r.bits) th.nextPc) ∧
      (t.issuer i).fcsr = th.fcsr ||| (r.flags.setWidth 64 <<< 4) ∧ OnlyThread i.site i.thread.val s t
    (Ready i [] s = true → WritesV i d ⟨c.vreg a.val, 0⟩ s (exec (.vmov i d a) s)) ∧
    (Ready i [ga.val] s = true → ∃ v : VWord, WritesV i d ⟨v, 0⟩ s (exec (.vsplat i fmt d ga) s) ∧
      ∀ j < n, lane f.width v j = (th.get ga.val).toNat % 2 ^ f.width) ∧
    (Ready i [gd.val, gb.val] s = true →
      WritesG i gd (BitVec.ofNat 64 (lane f.width (c.vreg a.val) k)) th.nextPc s (exec (.vext i fmt gd a gb) s)) ∧
    (Ready i [ga.val, gb.val] s = true → ∃ v : VWord, WritesV i d ⟨v, 0⟩ s (exec (.vins i fmt d ga gb) s) ∧
      ∀ j < n, lane f.width v j = if j = k then (th.get ga.val).toNat % 2 ^ f.width else lane f.width (c.vreg d.val) j) ∧
    (Ready i [gd.val] s = true →
      reduced (pairTree (fun x y => f.addSub md false x y) n.log2 (lanesOf f.width (c.vreg a.val)))
        (exec (.vrsum i fmt gd a) s) ∧
      reduced (pairTree (fun x y => f.minMax true x y) n.log2 (lanesOf f.width (c.vreg a.val)))
        (exec (.vrmax i fmt gd a) s)))

/-- R76, R189: VUNPK gives the values of 16 positions of a run, in FP32; a header that is not valid, or a run beyond the
tensor, gives +0 in every lane and sets FCSR.fmt_invalid. VPACK writes the element bytes and the scale byte of one block
packed by R92 with tensor_scale 1.0, and no other byte. -/
def Obligations.BlockOperations : Prop :=
  ∀ (i : Iss) (d : VReg) (a b : GReg) (fmt : Fin 4) (s : State),
    let c := s.core i.site
    let th := s.issuer i
    let at_ := (th.get a.val).toNat
    let n := (th.get b.val).toNat / 2 ^ 32
    let p := (th.get b.val).toNat % 2 ^ 32
    let h := Header.parse c.rd at_
    Ready i [a.val, b.val] s = true →
    (at_ % 32 = 0 → p % 16 = 0 → c.plainAt at_ 32 = true → (h.valid = false ∨ h.runs ≤ n) →
      WritesV i d ⟨0, 0b100000⟩ s (exec (.vunpk i d a b) s)) ∧
    (at_ % 32 = 0 → p % 16 = 0 → c.plainAt at_ 32 = true → h.valid = true → n < h.runs →
      (h.unpackRanges at_ n p).all (fun r => c.plainAt r.1 r.2) = true → (unpackLanes h c.rd at_ n p).2 = 0 →
      WritesV i d
        (VRes.ofRounded 32 ((List.range 16).map fun j => unpackAt h c.rd at_ n (p + j)))
        s (exec (.vunpk i d a b) s)) ∧
    (let ea := at_
     let sa := (th.get b.val).toNat
     let base := match fmt with | 0 => Base.q4b | 1 => .q3b | 2 => .q2b | 3 => .tri5
     let regs := match fmt with | 0 => 1 | 1 => 1 | 2 => 2 | 3 => 4
     let nbytes := match fmt with | 0 => 8 | 1 => 6 | 2 => 8 | 3 => 12
     let xs := (((List.range regs).flatMap fun j => lanesOf 32 (c.vreg (d.val + j))).take base.blockLen).map fun w =>
       PackIn.ofFVal (fp32.decode w) (fp32.decode 0x3F800000)
     let r := packBlock base false false 0 4 1 xs (c.stream i.thread.val)
     d.val + regs ≤ 32 → c.plainAt ea nbytes = true → c.plainAt sa 1 = true → (sa < ea ∨ ea + nbytes ≤ sa) →
     r.saturations = 0 → r.malformed = 0 →
     Completes (exec (.vpack i false fmt d a b) s) fun t =>
       (∀ j < nbytes, (t.core i.site).byte (ea + j) = BitVec.ofNat 8 ((packBits base r.codes).1 / 256 ^ j)) ∧
       (t.core i.site).byte sa = BitVec.ofNat 8 r.scale ∧
       (∀ q < 0x20000, (q < ea ∨ ea + nbytes ≤ q) → q ≠ sa → (t.core i.site).byte q = c.byte q) ∧
       th.moved (t.issuer i) th.nextPc ∧ (t.core i.site).v = c.v ∧ OnlyCore i.site s t)

/-- R158, R166, R189 (with the order of its checks that log 125, DESIGN CHOICE, gives): VSPMV starts the operation its descriptor describes and the thread goes on; VSWAIT gives the last
operation's status once none runs. SPMV_END ends the operation with the status of its rows, whose elements of y are in
SRAM, and the VSWAITs that waited complete. -/
def Obligations.GatherOperations : Prop :=
  ∀ (i : Iss) (a d : GReg) (x : Site) (s : State),
    let c := s.core i.site
    let th := s.issuer i
    let at_ := (th.get a.val).toNat
    (Ready i [a.val] s = true → at_ % 32 = 0 → c.plainAt at_ 32 = true → c.spmv = none →
      (Spmv.parse c.rd at_).formatOk c.rd at_ = false →
      Completes (exec (.vspmv i a) s) fun t =>
        (t.core i.site).spmv = some { Spmv.parse c.rd at_ with start := .formatInvalid, since := s.cycleOf i.site } ∧
        th.moved (t.issuer i) th.nextPc ∧ OnlyCore i.site s t ∧
        { t.core i.site with spmv := c.spmv, threads := c.threads } = c) ∧
    (Ready i [a.val] s = true → at_ % 32 = 0 → at_ + 32 ≤ 0x20000 → c.spmv = none →
      (spmvStart s i.site at_).2.coreOn i.site = true →
      Completes (exec (.vspmv i a) s) fun t =>
        (t.core i.site).spmv = some (spmvStart s i.site at_).1 ∧ (t.issuer i).pc =
          ((spmvStart s i.site at_).2.issuer i).nextPc) ∧
    (Ready i [d.val] s = true → c.spmv = none →
      WritesG i d (BitVec.ofNat 64 c.spmvLast.code) th.nextPc s (exec (.vswait i d) s)) ∧
    (∀ q : Spmv, (s.core x).spmv = some q → s.coreRuns x = true → q.start ≠ .ok → q.start ≠ .eccUncorrected →
      Completes (exec (.spmvEnd x) s) fun t =>
        (t.core x).spmv = none ∧ (t.core x).spmvLast = q.start ∧ (t.core x).sram = (s.core x).sram ∧
        (∀ k : Fin 4, ∀ g, (s.thread x k.val).wait = .vswait g →
          (s.thread x k.val).wrote { t.thread x k.val with wait := .vswait g, state := (s.thread x k.val).state } g
            (BitVec.ofNat 64 q.start.code) (s.thread x k.val).nextPc ∧ (t.thread x k.val).state = .running)) ∧
    (∀ q : Spmv, (s.core x).spmv = some q → s.coreRuns x = true → q.start = .ok →
      let v := s.fresh
      let r := q.rowsFrom x (splitLen ((s.core x).regBits 0x1C0 12 0)) v.1 q.ptrRows 0 v.2 SpmvCounts.zero
      r.1.coreOn x = true → r.2.range = 0 → r.2.malformed = 0 → r.2.fail = none →
      Completes (exec (.spmvEnd x) s) fun t =>
        (t.core x).spmv = none ∧ (t.core x).spmvLast = .ok ∧ (t.core x).sram = (r.1.core x).sram)

/-! ## Matrix array -/

/-- R130, R131, R190, R191: an array command enters the queue with its operands, and the thread goes on; a full queue
stalls it. AFENCE with no command queued or running gives the first status other than OK and clears it. -/
def Obligations.ArrayCommandsQueue : Prop :=
  ∀ (i : Iss) (d a b : GReg) (s : State),
    let c := s.core i.site
    let th := s.issuer i
    let queued := fun kind (ga gb : DWord) o => Completes o fun t =>
      (t.core i.site).array = { c.array with
        queue := c.array.queue ++ [⟨c.array.nextNo, kind, ga, gb, some i.thread.val⟩], nextNo := c.array.nextNo + 1 } ∧
      th.moved (t.issuer i) th.nextPc ∧ OnlyCore i.site s t ∧
      { t.core i.site with array := c.array, threads := c.threads } = c
    s.width i.site ≠ 0 → c.regBit 0x100 8 = false →
    (Ready i [a.val, b.val] s = true → c.array.queue.length < 8 →
      queued .aload (th.get a.val) (th.get b.val) (exec (.aload i a b) s) ∧
      queued .apass (th.get a.val) (th.get b.val) (exec (.apass i a b) s) ∧
      queued .aclose (th.get a.val) (th.get b.val) (exec (.aclose i a b) s)) ∧
    (Ready i [a.val, 0] s = true → c.array.queue.length < 8 →
      queued .aopen (th.get a.val) 0 (exec (.aopen i a) s)) ∧
    (Ready i [a.val, b.val] s = true → 8 ≤ c.array.queue.length →
      Completes (exec (.aload i a b) s) fun t => t.core i.site = c ∧ OnlyCore i.site s t) ∧
    (Ready i [d.val] s = true → c.array.numbers = [] →
      Completes (exec (.afence i d) s) fun t =>
        th.wrote { t.issuer i with firstArray := th.firstArray } d.val (BitVec.ofNat 64 th.firstArray.code) th.nextPc ∧
        (t.issuer i).firstArray = .ok ∧ (t.core i.site).array = { c.array with lastStatus := .ok } ∧
        OnlyCore i.site s t ∧ { t.core i.site with array := c.array, threads := c.threads } = c)

/-- R128, R129: a load whose operands R130 allows starts when its bank is free: the bank is loading with its rows aligned
from SRAM, and the command leaves the queue. LOAD_END makes the bank ready. -/
def Obligations.ArrayLoads : Prop :=
  ∀ (x : Site) (s : State), s.coreRuns x = true →
    let c := s.core x
    (∀ cmd md b, c.array.queue.head? = some cmd → cmd.kind = .aload →
      let l := LoadArgs.of cmd
      cmd.ga.toNat / 2 ^ 30 % 4 = 0 → cmd.gb.toNat < 2 ^ 17 → l.formats = some (md, b) → l.check s x = .ok →
      (c.abank l.bank).state ≠ .inUse → (c.abank l.bank).state ≠ .loading → c.array.load = none →
      (∀ q ∈ c.array.passes, q.bank ≠ l.bank ∨ q.bankFree ≤ s.cycleOf x) →
      (List.range l.rows).all (fun k => c.plainAt (l.src + k * l.stride) (rowBytes md b (s.width x))) = true →
      let r := loadRows md b (s.width x) (c.regBit 0x140 1)
        ((List.range l.rows).map fun k => c.bytes (l.src + k * l.stride) (rowBytes md b (s.width x))) (c.stream 4)
      Completes (exec (.aloadStart x) s) fun t =>
        (t.core x).abank l.bank = ⟨.loading, md, b, l.format, l.src, l.rows - 1, l.scale,
          r.1 ++ List.replicate (32 - r.1.length) (zeroRow md b (s.width x)), r.2.1, c.array.loadNo + 1⟩ ∧
        (∀ k, k ≠ l.bank → (t.core x).abank k = c.abank k) ∧ (t.core x).array.queue = c.array.queue.tail ∧
        (t.core x).array.load = some (cmd, l.bank, .ok) ∧ (t.core x).sram = c.sram ∧ (t.core x).v = c.v ∧
        (t.core x).threads = c.threads ∧ CoreOnly x s t) ∧
    (∀ cmd bank, c.array.load = some (cmd, bank, .ok) → (c.abank bank).counts = LoadCounts.zero → cmd.issuer = none →
      (∀ k : Fin 4, ∀ d n, (s.thread x k.val).wait ≠ .afence d n) → (s.field x.field).drain = none →
      c.reg 0x18C ≠ 0xFFFFFFFF#32 →
      Completes (exec (.loadEnd x) s) fun t =>
        (t.core x).abank bank = { c.abank bank with state := .ready } ∧ (t.core x).array.load = none ∧
        (t.core x).array.lastStatus = .ok ∧ (t.core x).sram = c.sram ∧ (t.core x).threads = c.threads ∧ CoreEvent x s t)

/-- R134: a tile opens in a free slot whose columns no other open tile holds: it takes its mode, first column and width,
and a clear sets its entries to zero and no other. OPEN_END ends the command with OK. R113, R143, R439: over the cycles of a tailings event an array that is idle, or whose command is frozen, runs tailings in d of
every 100, counted in ARRAY.TAILINGS_CYCLES; how they spread over the cycles is the model's choice (log 134, DEDUCED).
A write of ASSAY.SR_SEEDs_HI loads its stream with the pair of halves written, or with the fixed state for zero; where no low half
was written since the last load it takes the stream's present one, the model's choice (log 123, DEDUCED). -/
def Obligations.ArrayTilesAndUpkeep : Prop :=
  (∀ (x : Site) (s : State), s.coreRuns x = true →
    let c := s.core x
    (∀ cmd md, c.array.queue.head? = some cmd → cmd.kind = .aopen →
      let slot := cmd.ga.toNat % 2
      let a0 := cmd.ga.toNat / 16 % 256
      let m := cmd.ga.toNat / 4096 % 256 + 1
      cmd.ga.toNat < 2 ^ 21 → AMode.ofCode (cmd.ga.toNat / 2 % 8) = some md → c.array.closes = [] →
      (c.tile slot).open_ = false → (c.tile (1 - slot)).open_ = false → a0 + m ≤ 256 →
      Completes (exec (.aopenStart x) s) fun t =>
        ((t.core x).tile slot).open_ = true ∧ ((t.core x).tile slot).mode = md ∧ ((t.core x).tile slot).a0 = a0 ∧
        ((t.core x).tile slot).m = m ∧ (t.core x).tile (1 - slot) = c.tile (1 - slot) ∧
        (∀ r < 32, ∀ n < 256, (t.core x).accEntry (r * 256 + n) =
          if cmd.ga.toNat / 2 ^ 20 % 2 = 1 ∧ a0 ≤ n ∧ n < a0 + m then 0 else c.accEntry (r * 256 + n)) ∧
        (t.core x).array.queue = c.array.queue.tail ∧ (t.core x).array.opening = c.array.opening ++ [(cmd, slot)] ∧
        (t.core x).sram = c.sram ∧ (t.core x).threads = c.threads ∧ CoreOnly x s t) ∧
    (∀ cmd slot rest, c.array.opening = (cmd, slot) :: rest →
      Completes (exec (.openEnd x) s) fun t =>
        (t.core x).array.opening = rest ∧ (t.core x).array.acc = c.array.acc ∧ (t.core x).sram = c.sram ∧ CoreEvent x s t)) ∧
  (∀ (w : Requester) (x : Site) (cycles : Nat) (stream : Fin 5) (hi : Word) (s : State),
    let c := s.core x
    (s.arrayIdle x = true →
      let d := (s.field x.field).duty
      let ran := (c.array.idle + cycles) * d.n / (100 * d.d) - c.array.idle * d.n / (100 * d.d)
      Completes (exec (.tailings x cycles) s) fun t =>
        ((t.core x).reg 0x12C).toNat = min ((c.reg 0x12C).toNat + ran) 0xFFFFFFFF ∧
        (∀ o, o ≠ 0x12C → (t.core x).reg o = c.reg o) ∧ (t.core x).array = { c.array with idle := (c.array.idle + cycles) % 100 } ∧
        { t.core x with regs := c.regs, array := c.array } = c ∧ CoreOnly x s t) ∧
    (s.awake w = true → s.coreClocked x = true → reaches w x = true → (stream = 4 → c.array.load = none ∧ c.array.passes = []) →
      let v : DWord := hi ++ c.seedLo.get (fun k => (c.stream k).setWidth 32) stream.val
      Completes (exec (.srSeedLoad w x stream hi) s) fun t =>
        (t.core x).stream stream.val = (if v = 0 then 0x5D0EA1D57A11B0CE#64 else v) ∧
        (∀ k, k ≠ stream.val → (t.core x).stream k = c.stream k) ∧
        { t.core x with rng := c.rng, seedLo := c.seedLo, latch := c.latch } = c ∧ CoreOnly x s t))

/-- R94, R122, R123, R130, R131, in the model's reading of R94 and R123 (log 29, DEDUCED: one addition for each column and
row): a pass with promotion off, whose checks and words are in order, adds to entry
(r, a + n) one value with one rounding (R94, R95): the sum of column n against row r. No other entry and no byte of SRAM
changes. PASS_END ends the oldest pass, once its budget cycles have run. -/
def Obligations.ArrayPasses : Prop :=
  ∀ (x : Site) (s : State), s.coreRuns x = true →
    let c := s.core x
    (∀ cmd md, c.array.queue.head? = some cmd → cmd.kind = .apass →
      let p := PassCmd.of cmd
      let k := c.abank p.bank
      let h := Header.parse c.rd p.header
      let args : PassArgs :=
        { hdr := h, at_ := p.header, n0 := p.n0, c := p.c, k0 := p.k0, mode := md, width := s.width x, actBase := k.base
          rows := k.rows, scale := (fp32.decode h.tensorScale).dy.mul (fp32.decode k.scale).dy
          promote := false, threshold := c.regBits 0x144 15 0, budget := c.regBits 0x144 23 16 }
      c.array.checkHold = [] → widthDenied s x = false → k.state = .ready →
      (∀ q ∈ c.array.passes, q.budgetEnd < s.cycleOf x ∧ (q.bank ≠ p.bank ∨ q.bankFree ≤ s.cycleOf x)) →
      p.early cmd c = .ok → c.plainAt p.header 32 = true →
      h.mode = some md → p.late h s x = .ok → c.regBit 0x140 3 = false → (c.tile p.slot).sampled = none →
      ((List.range p.c).all fun n => (p.ranges h (md.window (s.width x)) n).all fun r => c.cleanAt r.1 r.2) = true →
      p.a + p.c ≤ 256 →
      Completes (exec (.apassStart x []) s) fun t =>
        (∀ r < 32, ∀ n < p.c, (t.core x).accEntry (r * 256 + p.a + n) =
          (accAdd (c.accEntry (r * 256 + p.a + n)) (columnSum args (k.rows.getD r ⟨[], [], [], [], []⟩)
            ((passColumns args c.rd p.c 0 args.budget).getD n []))).1 % 2 ^ 32) ∧
        (∀ r < 32, ∀ n < 256, (n < p.a ∨ p.a + p.c ≤ n) → (t.core x).accEntry (r * 256 + n) = c.accEntry (r * 256 + n)) ∧
        (t.core x).array.queue = c.array.queue.tail ∧
        (∃ run : APassRun, (t.core x).array.passes = c.array.passes ++ [run] ∧
          run = { run with cmd := cmd, slot := p.slot, bank := p.bank, status := .ok, budget := args.budget }) ∧
        (t.core x).bankAt (s.cycleOf x) p.bank = .inUse ∧ MemoryKept s t) ∧
    (∀ p rest, c.array.passes = p :: rest →
      Completes (exec (.passEnd x) s) fun t =>
        (t.core x).array.passes = rest ∧ (t.core x).array.acc = c.array.acc ∧ (t.core x).sram = c.sram ∧
        (20 * p.ends ≤ (s.field x.field).ran → CoreEvent x s t))

/-- R136: a close starts when its slot is open and its destination lies in SRAM, runs once no pass into its tile runs, and
frees the slot. A close to a destination in active banks writes entry (r, a0 + i), converted to the output format, at
destination + r × stride + i × b, and no other byte. -/
def Obligations.ArrayCloses : Prop :=
  ∀ (x : Site) (slot : Fin 2) (s : State), s.coreRuns x = true →
    let c := s.core x
    let tile := c.tile slot.val
    (∀ cmd, c.array.queue.head? = some cmd → cmd.kind = .aclose → (CloseCmd.of cmd).check cmd c = .ok →
      Completes (exec (.acloseStart x) s) fun t =>
        ((t.core x).tile (CloseCmd.of cmd).slot).closing = true ∧ (t.core x).array.queue = c.array.queue.tail ∧
        (t.core x).array.closes = c.array.closes ++ [⟨cmd, (CloseCmd.of cmd).slot, none⟩] ∧
        (t.core x).array.acc = c.array.acc ∧ (t.core x).sram = c.sram ∧ (t.core x).threads = c.threads ∧ CoreOnly x s t) ∧
    (∀ k d f, c.array.closes.find? (fun k => k.slot == slot.val) = some k → k.ran = none → k.slot = slot.val →
      (c.array.passes.any fun p => p.slot == slot.val) = false → tile.sampled = none → tile.poisoned = false →
      (CloseCmd.of k.cmd).dest = some d → outputFmt (CloseCmd.of k.cmd).format = some f → c.regBit 0x140 2 = false →
      tile.m * (f.width / 8) ≤ (CloseCmd.of k.cmd).stride →
      c.plainAt d (31 * (CloseCmd.of k.cmd).stride + tile.m * (f.width / 8)) = true →
      Completes (exec (.closeRun x slot) s) fun t =>
        (∀ r < 32, ∀ j < tile.m, ∀ q < f.width / 8,
          (t.core x).byte (d + r * (CloseCmd.of k.cmd).stride + j * (f.width / 8) + q) =
            BitVec.ofNat 8 ((outConvert f false (accRead (c.accEntry (r * 256 + tile.a0 + j))).1 0).1 / 256 ^ q)) ∧
        (∀ q < 0x20000, (∀ r < 32, q < d + r * (CloseCmd.of k.cmd).stride ∨
          d + r * (CloseCmd.of k.cmd).stride + tile.m * (f.width / 8) ≤ q) → (t.core x).byte q = c.byte q) ∧
        (t.core x).array.acc = c.array.acc ∧
        ((t.core x).array.closes.find? fun k => k.slot == slot.val) = some { k with ran := some .ok }) ∧
    (∀ k st, c.array.closes.find? (fun k => k.slot == slot.val) = some k → k.ran = some st →
      Completes (exec (.closeEnd x slot) s) fun t =>
        ((t.core x).tile slot.val).open_ = false ∧ (∀ z ∈ (t.core x).array.closes, z.slot ≠ slot.val) ∧
        (t.core x).array.acc = c.array.acc ∧ (t.core x).sram = c.sram ∧ CoreEvent x s t)

/-! ## Chutes -/

/-- R242, R246, R252, R256: a push that has its room puts its entries, lowest byte first, into the send buffer of its
endpoint and completes; a push to an endpoint that is no producer only sets the misuse bit (R258). CROPEN and CRCLOSE
open and close a record. R242, R243, R256 to R258: a pop gives the oldest entry the consumer may see and releases it; VCGET pops eight. CGETN
of an endpoint with none gives the last entry popped and sets the underrun bit; CGET then waits in WAIT_CHUTE. A pop of an
endpoint that is no consumer gives zero and sets the misuse bit. CLEVEL gives the level, short by 3 at most in
asynchronous mode in the 4 cycles after the pointer it follows last changed (R244). -/
def Obligations.ChuteInstructions : Prop :=
  (∀ (i : Iss) (e : Fin 32) (d : GReg) (v : VReg) (s : State),
    let x := i.site
    let c := s.core x
    let ch := c.chute e.val
    let th := s.issuer i
    let only := fun (ch' : Chute) o => Completes o fun t =>
      ChuteIs x e.val ch' s t ∧ th.moved (t.issuer i) th.nextPc ∧
      (∀ k : Fin 4, k ≠ i.thread → t.thread x k.val = s.thread x k.val) ∧
      { t.core x with chutes := c.chutes, threads := c.threads } = c ∧ OnlyCore x s t
    c.chutesIdle = true →
    (ch.role = .producer → ch.ready = true → (ch.record = true → ch.recOpen = true) →
      (Ready i [d.val] s = true → (ch.record = false → ch.pushed + 1 ≤ ch.ring + ch.released) → c.sendUsed + 1 ≤ 128 →
        only { ch with pend := ch.pend ++ [.entry (th.get d.val)], pushed := ch.pushed + 1, pushedAt := s.clockOf x } (exec (.cput i d e) s)) ∧
      (Ready i [] s = true → (ch.record = false → ch.pushed + 8 ≤ ch.ring + ch.released) → c.sendUsed + 8 ≤ 128 →
        only { ch with
            pend := ch.pend ++ (List.range 8).map fun j => .entry (BitVec.ofNat 64 (lane 64 (c.vreg v.val) j))
            pushed := ch.pushed + 8, pushedAt := s.clockOf x } (exec (.vcput i v e) s))) ∧
    (ch.role ≠ .producer →
      (Ready i [d.val] s = true → only { ch with misuse := true } (exec (.cput i d e) s)) ∧
      (Ready i [] s = true → only { ch with misuse := true } (exec (.vcput i v e) s))) ∧
    (ch.role ≠ .producer ∨ ch.record = false → Ready i [] s = true →
      only { ch with misuse := true } (exec (.cropen i e) s) ∧ only { ch with misuse := true } (exec (.crclose i e) s)) ∧
    (ch.role = .producer → ch.record = true → Ready i [] s = true →
      (c.sendUsed + 1 ≤ 128 →
        only { ch with
            pend := ch.pend ++ (if ch.recOpen then [.closed ((ch.nextSeq + 65535) % 65536)] else []) ++ [.opened ch.nextSeq]
            nextSeq := (ch.nextSeq + 1) % 65536, recOpen := true, pushedAt := s.clockOf x }
          (exec (.cropen i e) s)) ∧
      (ch.recOpen = true →
        only { ch with pend := ch.pend ++ [.closed ((ch.nextSeq + 65535) % 65536)], recOpen := false }
          (exec (.crclose i e) s)) ∧
      (ch.recOpen = false → only ch (exec (.crclose i e) s)))) ∧
  (∀ (i : Iss) (e : Fin 32) (d : GReg) (v : VReg) (s : State),
    let x := i.site
    let c := s.core x
    let ch := c.chute e.val
    let th := s.issuer i
    let entry := fun k => c.le (ch.slot (ch.taken + k)) 8
    let popped := fun (n : Nat) => { ch with
      taken := ch.taken + n, lastPop := BitVec.ofNat 64 (entry (n - 1)), recs := if ch.record then popRecs n ch.recs else ch.recs }
    let gives := fun (w : DWord) (ch' : Chute) o => Completes o fun t =>
      th.wrote (t.issuer i) d.val w th.nextPc ∧ ChuteIs x e.val ch' s t ∧
      (∀ k : Fin 4, k ≠ i.thread → t.thread x k.val = s.thread x k.val) ∧
      { t.core x with chutes := c.chutes, threads := c.threads } = c ∧ OnlyCore x s { t with freeCtr := s.freeCtr }
    c.chutesIdle = true →
    (ch.role = .consumer → 1 ≤ ch.seen → c.plainAt (ch.slot ch.taken) 8 = true → Ready i [d.val] s = true →
      gives (BitVec.ofNat 64 (entry 0)) (popped 1) (exec (.cget i d e) s) ∧
      ((ch.lags = true → 4 ≤ ch.seen) → gives (BitVec.ofNat 64 (entry 0)) (popped 1) (exec (.cgetn i d e) s))) ∧
    (ch.role = .consumer → 8 ≤ ch.seen → Ready i [] s = true →
      ((List.range 8).all fun k => c.plainAt (ch.slot (ch.taken + k)) 8) = true →
      Completes (exec (.vcget i v e) s) fun t =>
        (∀ k < 8, lane 64 ((t.core x).vreg v.val) k = entry k) ∧ ChuteIs x e.val (popped 8) s t ∧
        (∀ q : VReg, q ≠ v → (t.core x).vreg q.val = c.vreg q.val) ∧ th.moved (t.issuer i) th.nextPc ∧
        { t.core x with chutes := c.chutes, threads := c.threads, v := c.v } = c ∧ OnlyCore x s t) ∧
    (ch.role = .consumer → ch.seen = 0 → Ready i [d.val] s = true →
      gives ch.lastPop { ch with underrun := true } (exec (.cgetn i d e) s) ∧
      Completes (exec (.cget i d e) s) fun t =>
        t.issuer i = { th with state := .waitChute, wait := .cget e.val d.val } ∧
        (t.core x).chuteWait = [i.thread.val] ∧ (t.core x).chutes = c.chutes ∧ OnlyCore x s t) ∧
    (ch.role ≠ .consumer → Ready i [d.val] s = true →
      gives 0 { ch with misuse := true } (exec (.cget i d e) s) ∧ gives 0 { ch with misuse := true } (exec (.cgetn i d e) s)) ∧
    (ch.role ≠ .consumer → Ready i [] s = true → Completes (exec (.vcget i v e) s) fun t =>
      (t.core x).vreg v.val = 0 ∧ ChuteIs x e.val { ch with misuse := true } s t ∧ OnlyCore x s t) ∧
    (Ready i [d.val] s = true →
      let level := match ch.role with
        | .unbound => 0
        | .consumer => ch.seen
        | .producer => if ch.record then ch.ring else if ch.ready then ch.ring + ch.released - ch.pushed else 0
      (ch.lags = false ∨ ch.moved + 4 ≤ s.clockOf x → WritesG i d (BitVec.ofNat 64 level) th.nextPc s (exec (.clevel i d e) s)) ∧
      (ch.lags = true → ∃ short ≤ 3,
        gives (BitVec.ofNat 64 (level - short)) ch (exec (.clevel i d e) s))))

/-- R240, R241, R247, R261: binding and unbinding through CHUTE.CFGe, and the control packets between the two endpoints
of a chute. -/
def Obligations.ChuteBinding : Prop :=
  ∀ (w : Requester) (x : Site) (e : Fin 32) (v : Word) (p : Packet) (s : State),
    let c := s.core x
    let ch := c.chute e.val
    let fields : Chute := { Chute.reset with
      record := bit v.toNat 29, async := bit v.toNat 28, size := bits v.toNat 27 24, peerEp := bits v.toNat 15 11
      base := bits v.toNat 10 0, peer := ch.peer, frame := ch.frame, lost := ch.lost
      underrun := ch.underrun && !bit v.toNat 20, misuse := ch.misuse && !bit v.toNat 19 }
    let allowed := bits v.toNat 27 24 ≤ 10 ∧ (bits v.toNat 31 30 = 2 → bits v.toNat 10 0 * 64 + 8 * 2 ^ (bits v.toNat 27 24 + 3) ≤ 0x20000) ∧
      (bits v.toNat 31 30 = 1 → bits v.toNat 10 0 = 0) ∧ (bit v.toNat 29 = true → ch.frame = 0) ∧
      (bit v.toNat 29 = false → bits ch.frame.toNat 15 0 ≤ 2 ^ (bits v.toNat 27 24 + 3))
    let control := fun (op from_ peerEp dst : Nat) (q : Packet) =>
      q.ptype = .chuteControl ∧ (Packet.ctlOp q) = op ∧ (Packet.ctlFrom q) = from_ ∧ (Packet.ctlEp q) = peerEp ∧ q.dst = dst ∧ q.src = s.coreEid x
    c.chutesIdle = true →
    (s.awake w = true → s.coreClocked x = true → reaches w x = true →
      (ch.role = .unbound → allowed →
        (bits v.toNat 31 30 = 2 → Completes (exec (.chuteBind w x e v) s) fun t =>
          ChuteIs x e.val { fields with role := .consumer, refusing := (s.field x.field).drain.isSome } s t ∧ (t.core x).threads = c.threads ∧ CoreOnly x s t) ∧
        (bits v.toNat 31 30 = 1 → Knows s x ch.peer.toNat → Completes (exec (.chuteBind w x e v) s) fun t =>
          ChuteIs x e.val { fields with role := .producer, requesting := true } s t ∧
          Sends x s.net t (control 1 e.val (bits v.toNat 15 11) ch.peer.toNat) ∧ CoreAndNet x s t)) ∧
      (ch.role = .unbound → bits v.toNat 31 30 ≠ 0 → ¬allowed → Completes (exec (.chuteBind w x e v) s) fun t =>
        ((t.core x).chute e.val).role = .unbound ∧ (t.core x).regBit 0x044 31 = true ∧ CoreOnly x s t) ∧
      (ch.role = .consumer → bits v.toNat 31 30 = 0 → ch.peerEp < 32 → Knows s x ch.peer.toNat →
        Completes (exec (.chuteUnbind w x e v) s) fun t =>
          ChuteIs x e.val { fields with discardSeen := ch.discardSeen } s t ∧
          Sends x s.net t (control 6 e.val ch.peerEp ch.peer.toNat) ∧ CoreAndNet x s t) ∧
      (ch.role = .producer → bits v.toNat 31 30 = 0 → Completes (exec (.chuteUnbind w x e v) s) fun t =>
        ChuteIs x e.val { fields with discardSeen := ch.discardSeen } s t ∧ (t.core x).threads = c.threads ∧ CoreOnly x s t)) ∧
    (s.coreClocked x = true → ch.role = .producer → ch.requesting = true → ch.peerEp < 32 → Knows s x ch.peer.toNat →
      Completes (exec (.bindRequestRetry x e) s) fun t =>
        Sends x s.net t (control 1 e.val ch.peerEp ch.peer.toNat) ∧ (t.core x).chutes = c.chutes ∧ CoreAndNet x s t) ∧
    (Arrives p x s → p.ptype = .chuteControl → (Packet.ctlEp p) = e.val →
      ((Packet.ctlOp p) = 1 → ch.role = .consumer → ch.refusing = false → ch.peer.toNat = p.src → ch.peerEp = (Packet.ctlFrom p) →
        ch.record = bit p.arg 14 → ch.async = bit p.arg 15 → (ch.async = false → s.peerInField p.src x.field = true) →
        Knows s x p.src → Completes (exec (.bindRequest p) s) fun t =>
          ChuteIs x e.val { ch with granted := true } s t ∧
          Sends x (takeFlight p s.net) t (control 2 e.val (Packet.ctlFrom p) p.src) ∧ CoreAndNet x s t) ∧
      ((Packet.ctlOp p) = 1 → ch.role = .unbound → Knows s x p.src → Completes (exec (.bindRequest p) s) fun t =>
        Sends x (takeFlight p s.net) t (control 3 e.val (Packet.ctlFrom p) p.src) ∧ (t.core x).chutes = c.chutes ∧ CoreAndNet x s t) ∧
      (ch.role = .producer → ch.peer.toNat = p.src → ch.peerEp = (Packet.ctlFrom p) →
        let becomes := fun (ch' : Chute) o => Completes o fun t =>
          ChuteIs x e.val ch' s t ∧ t.net = takeFlight p s.net ∧
          { t.core x with chutes := c.chutes } = c ∧ CoreAndNet x s t
        (ch.requesting = true →
          ((Packet.ctlOp p) = 2 → becomes { ch with ready := true, requesting := false } (exec (.grant p) s)) ∧
          ((Packet.ctlOp p) = 3 → becomes ch (exec (.notYet p) s)) ∧
          ((Packet.ctlOp p) = 4 → Completes (exec (.mismatch p) s) fun t =>
            ChuteIs x e.val { ch with bindError := true, requesting := false } s t ∧
            Logged x.field 0x0901 (siteWord x e.val) t ∧ t.net = takeFlight p s.net ∧ MemoryKept s t)) ∧
        ((Packet.ctlOp p) = 5 → ch.ready = true → ch.record = false → ∃ n < 2 * ch.ring,
          becomes { ch with released := ch.released + n, moved := if n = 0 then ch.moved else s.clockOf x } (exec (.readPointerUpdate p) s) ∧
          (ch.released + n) % (2 * ch.ring) = p.data % 2 ^ 32 % (2 * ch.ring)) ∧
        ((Packet.ctlOp p) = 6 → becomes { ch with ready := false, requesting := false } (exec (.unbindNotice p) s))))

/-- R246, R247, R333: a producer sends its pending entries, 64 at most, in one CHUTE_DATA packet, at once
where they reach 32 and otherwise 4 cycles after its last push, whether or not the endpoint is ready; they wait at the
consumer and land, in order, in its ring. A consumer reports its read pointer modulo twice the ring. -/
def Obligations.ChuteTransport : Prop :=
  ∀ (x : Site) (e : Fin 32) (p : Packet) (vs : List DWord) (s : State),
    let c := s.core x
    let ch := c.chute e.val
    let payload := vs.flatMap fun v => (List.range 8).map fun j => BitVec.ofNat 8 (v.toNat / 256 ^ j)
    c.chutesIdle = true → vs ≠ [] → vs.length ≤ 64 →
    (s.coreClocked x = true → ch.role = .producer → ch.peerEp < 32 → Knows s x ch.peer.toNat →
      ch.pend = vs.map Pend.entry → Completes (exec (.chuteDataSend x e) s) fun t =>
        ChuteIs x e.val { ch with pend := [], sent := ch.sent + vs.length } s t ∧
        Sends x s.net t (fun q => q.ptype = .chuteData ∧ q.dst = ch.peer.toNat ∧ q.src = s.coreEid x ∧
          q.arg = ch.peerEp + 32 * e.val ∧ q.payload = payload ∧
          q.data = vs.length + ch.sent % 2 ^ 16 * 2 ^ 16) ∧
        (32 ≤ vs.length ∨ 20 * (ch.pushedAt + 4) ≤ (s.field x.field).clk → CoreAndNet x s t)) ∧
    (s.coreClocked x = true → ch.role = .consumer → ch.record = false → ch.fault = false → ch.taken ≠ ch.reported →
      ch.peerEp < 32 → Knows s x ch.peer.toNat → Completes (exec (.pointerUpdateSend x e) s) fun t =>
        ChuteIs x e.val { ch with reported := ch.taken } s t ∧
        Sends x s.net t (fun q => q.ptype = .chuteControl ∧ (Packet.ctlOp q) = 5 ∧ (Packet.ctlEp q) = ch.peerEp ∧ (Packet.ctlFrom q) = e.val ∧
          q.dst = ch.peer.toNat ∧ q.data = ch.taken % (2 * ch.ring)) ∧ CoreAndNet x s t) ∧
    (Arrives p x s → p.ptype = .chuteData → bits p.arg 4 0 = e.val → ch.role = .consumer → ch.fault = false →
      ch.peer.toNat = p.src → ch.peerEp = (Packet.ctlFrom p) → p.payload = payload → p.data % 2 ^ 16 = vs.length → bit p.data 32 = false →
      bit p.data 33 = false →
      Completes (exec (.chuteData p) s) fun t =>
        ChuteIs x e.val { ch with waiting := ch.waiting ++ vs.map Landing.entry } s t ∧ t.net = takeFlight p s.net ∧
        { t.core x with chutes := c.chutes } = c ∧ CoreAndNet x s t) ∧
    (s.coreClocked x = true → ch.role = .consumer → ch.record = false → ch.fault = false → ch.waiting = vs.map Landing.entry →
      vs.length ≤ ch.ring → (∀ k < vs.length, c.plainAt (ch.slot (ch.landed + k)) 8 = true) →
      Completes (exec (.chuteLanding x e) s) fun t =>
        ChuteIs x e.val { ch with waiting := [], landed := ch.landed + vs.length, moved := s.clockOf x } s t ∧
        (∀ k < vs.length, (t.core x).le (ch.slot (ch.landed + k)) 8 = (vs.getD k 0).toNat) ∧
        (∀ a < 0x20000, (∀ k < vs.length, a < ch.slot (ch.landed + k) ∨ ch.slot (ch.landed + k) + 8 ≤ a) →
          (t.core x).byte a = c.byte a) ∧
        (t.core x).threads = c.threads ∧ CoreOnly x s t)

/-! ## Tallies -/

/-- R357, R359, R360, R368: the tally instructions on a tally that nothing waits for, and the firing of one a thread waits
for: the target is taken from the value, and the waiting thread goes on with OK. -/
def Obligations.TallyInstructions : Prop :=
  ∀ (i : Iss) (d a : GReg) (n : Fin 64) (s : State),
    let x := i.site
    let c := s.core x
    let ty := c.tally n.val
    let th := s.issuer i
    let v := (th.get a.val).toNat
    let becomes := fun (ty' : Tally) (th' : Thread) o => Completes o fun t =>
      TallyIs x n.val ty' s t ∧ t.issuer i = th' ∧ (∀ k : Fin 4, k ≠ i.thread → t.thread x k.val = s.thread x k.val) ∧
      { t.core x with tallies := c.tallies, threads := c.threads } = c ∧ OnlyCore x s t
    let writes := fun (ty' : Tally) (w : DWord) o => Completes o fun t =>
      TallyIs x n.val ty' s t ∧ th.wrote (t.issuer i) d.val w th.nextPc ∧
      (∀ k : Fin 4, k ≠ i.thread → t.thread x k.val = s.thread x k.val) ∧
      { t.core x with tallies := c.tallies, threads := c.threads } = c ∧ OnlyCore x s t
    (Ready i [d.val] s = true → WritesG i d (BitVec.ofNat 64 ty.value) th.nextPc s (exec (.trd i d n) s)) ∧
    (ty.waiters = [] → ty.regs = [] → ty.barrier = false →
      (Ready i [a.val] s = true →
        (ty.value + v % 2 ^ 32 ≤ 0xFFFFFFFF → becomes
          { ty with value := ty.value + v % 2 ^ 32, lastEid := s.coreEid x, lastTime := s.now x.field } th.advance
          (exec (.tadd i a n) s)) ∧
        becomes { ty with target := v % 2 ^ 32 } th.advance (exec (.ttgt i a n) s) ∧
        becomes { ty with value := v % 2 ^ 32 } th.advance (exec (.tset i a n) s)) ∧
      (Ready i [d.val, a.val] s = true →
        (ty.value < ty.target → becomes
          { ty with waiters := [⟨i.thread.val, false, if v = 0 then 0 else s.now x.field + v, false⟩] }
          { th with state := .waitTally, wait := .tally d.val n.val } (exec (.twait i d a n) s)) ∧
        (ty.target ≤ ty.value → writes { ty with value := ty.value - ty.target } 0 (exec (.twait i d a n) s)) ∧
        (ty.value < ty.target →
          writes { ty with regs := [⟨v % 2 ^ 32, n.val, false, false⟩] } 0 (exec (.tnote i d a n) s)) ∧
        writes ty (BitVec.ofNat 64 Status.overrun.code) (exec (.tbar i d a n) s))) ∧
    (8 ≤ ty.regs.length → Ready i [d.val, a.val] s = true →
      writes ty (BitVec.ofNat 64 Status.busy.code) (exec (.tnote i d a n) s)) ∧
    (∀ (k : Fin 4) (g dl : Nat), k ≠ i.thread → (s.thread x k.val).wait = .tally g n.val → Ready i [a.val] s = true →
      ty.waiters = [⟨k.val, false, dl, false⟩] → ty.regs = [] → ty.barrier = false →
      ty.value + v % 2 ^ 32 ≤ 0xFFFFFFFF → ty.target ≤ ty.value + v % 2 ^ 32 →
      Completes (exec (.tadd i a n) s) fun t =>
        TallyIs x n.val { ty with value := ty.value + v % 2 ^ 32 - ty.target, lastEid := s.coreEid x, lastTime := s.now x.field, waiters := [] } s t ∧
        (s.thread x k.val).wrote { t.thread x k.val with wait := .tally g n.val, state := (s.thread x k.val).state } g 0
          (s.thread x k.val).nextPc ∧ (t.thread x k.val).state = .running ∧ (t.thread x k.val).wait = .none ∧
        t.issuer i = th.advance ∧ OnlyCore x s t) ∧
    (ty.barrier = true → ty.forwarded = false → ty.parentEn = false → ty.waiters = [] → ty.regs = [] → ty.early = 0 →
      ty.round = v % 2 ^ 16 → ty.value < 2 ^ 16 → Ready i [d.val, a.val] s = true →
      (ty.value + 1 < max ty.target 1 → becomes
        { ty with value := ty.value + 1, lastEid := s.coreEid x, lastTime := s.now x.field, waiters := [⟨i.thread.val, false, 0, true⟩] }
        { th with state := .waitTally, wait := .tally d.val n.val } (exec (.tbar i d a n) s)) ∧
      (ty.value + 1 = max ty.target 1 → writes
        { ty with value := 0, round := (ty.round + 1) % 2 ^ 16, lastEid := s.coreEid x, lastTime := s.now x.field }
        0 (exec (.tbar i d a n) s)))

/-! ## Remote operations -/

/-- R54, R194, R195: a remote instruction whose tag is free and whose endpoint the address book knows sends its packets,
and the thread goes on; an operation that is answered holds the tag. RFENCE gives RSTATUS and clears it. That the offset of a
packet past the first may run beyond 17 bits is the model's reading (log 60, DEDUCED). -/
def Obligations.RemoteInstructions : Prop :=
  ∀ (i : Iss) (d a b : GReg) (k : Nat) (s : State),
    let x := i.site
    let c := s.core x
    let th := s.issuer i
    let addr := (th.get a.val).toNat
    let v := (th.get d.val).toNat
    let u := (th.get b.val).toNat
    let eid := addr / 2 ^ 32
    let low := addr / 2 ^ 20 % 2 ^ 12 * 2 ^ 20 + addr % 2 ^ 17
    let tagField := k + 64 * i.thread.val + 256 * (c.epoch k % 16)
    let frame := fun (t : State) =>
      (∀ j : Fin 4, j ≠ i.thread → t.thread x j.val = s.thread x j.val) ∧
      { t.core x with threads := c.threads, bookUse := c.bookUse, tags := c.tags } = c ∧ CoreAndNet x s t
    let posted := fun (dst : Nat) (P : Packet → Prop) o => Completes o fun t =>
      Sends x s.net t (fun q => P q ∧ q.dst = dst ∧ q.src = s.coreEid x) ∧ (t.core x).tags = c.tags ∧
      th.moved (t.issuer i) th.nextPc ∧ frame t
    let holds := fun (use : TagUse) (parts : List (Nat × Status)) (t : State) =>
      (t.core x).tag k = some ⟨use, some i.thread.val, s.now x.field, parts, .ok⟩ ∧
      ∀ m, m ≠ k → (t.core x).tag m = c.tag m
    let sendsAll := fun (n : Nat) (P : Nat → Packet → Prop) (t : State) => ∃ ps : List Packet,
      ps.length = n ∧ t.net = s.net ++ ps.map (Flight.fresh x.key) ∧
      ∀ j q, ps[j]? = some q → P j q ∧ q.dst = eid ∧ q.src = s.coreEid x ∧ q.tag = tagField
    let moves := fun (w : Nat) => w % 2 ^ 17 + (w / 2 ^ 32 % 2 ^ 12 + 1) * 16 ≤ 0x20000 ∧
      c.plainAt (w % 2 ^ 17) ((w / 2 ^ 32 % 2 ^ 12 + 1) * 16) = true
    (eid % 2 ^ 20 < 0xFFE00 → Knows s x eid → c.tagsInUse < 64 → c.freeTag = some k → addr % 8 = 0 →
      Ready i [d.val, a.val] s = true →
      (Completes (exec (.rld i d a) s) fun t =>
        t.issuer i = { th.advance with pendingG := th.pendingG ++ [(d.val, k)] } ∧ holds (.rld d.val) [(8, .ok)] t ∧
        sendsAll 1 (fun _ q => q.ptype = .read ∧ q.arg = low ∧ q.data = 8 ∧ q.payload = []) t ∧ frame t) ∧
      posted eid (fun q => q.ptype = .write ∧ q.arg = low ∧ q.data = v ∧ q.payload = []) (exec (.rst i d a) s) ∧
      (Completes (exec (.rsta i d a) s) fun t =>
        th.moved (t.issuer i) th.nextPc ∧ holds .rsta [(1, .ok)] t ∧
        sendsAll 1 (fun _ q => q.ptype = .writeAcked ∧ q.arg = low ∧ q.data = v ∧ q.payload = []) t ∧ frame t)) ∧
    (c.tagsInUse ≤ 64 → Ready i [d.val, a.val, b.val] s = true →
      (eid % 2 ^ 20 < 0xFFE00 → Knows s x eid →
        posted eid (fun q => q.ptype = .signalledWrite ∧ q.arg = low ∧
          q.data = u % 64 + 2 ^ 6 + addr % 2 ^ 17 * 2 ^ 8 + 8 * 2 ^ 32 ∧
          q.payload = (List.range 8).map fun j => BitVec.ofNat 8 (v / 256 ^ j)) (exec (.rsig i d a b) s)) ∧
      (Knows s x (addr % 2 ^ 32) →
        posted (addr % 2 ^ 32) (fun q => q.ptype = .tallySignal ∧ q.arg = u % 64 ∧ q.data = v % 2 ^ 32 ∧ q.payload = [])
          (exec (.rtsig i d a b) s))) ∧
    (eid % 2 ^ 20 < 0xFFE00 → Knows s x eid → c.tagsInUse < 64 → c.freeTag = some k → Ready i [d.val, a.val, b.val] s = true →
      (moves u → v / 2 ^ 8 % 4 ≠ 3 →
        let len := (u / 2 ^ 32 % 2 ^ 12 + 1) * 16
        Completes (exec (.rput i d a b) s) fun t =>
          th.moved (t.issuer i) th.nextPc ∧ holds (.rput (addr % 2 ^ 17)) (List.replicate ((len + 511) / 512) (1, .ok)) t ∧
          sendsAll ((len + 511) / 512) (fun j q =>
            (v / 2 ^ 8 % 4 = 0 → q.ptype = .writeAcked) ∧ (v / 2 ^ 8 % 4 = 1 → q.ptype = .signalledWrite) ∧
            (v / 2 ^ 8 % 4 = 2 → q.ptype = .countedWrite) ∧ q.arg = low + 512 * j ∧
            q.payload = (List.range (min 512 (len - 512 * j))).map fun m => c.byte (u % 2 ^ 17 + 512 * j + m)) t ∧
          frame t) ∧
      (moves v →
        let len := (v / 2 ^ 32 % 2 ^ 12 + 1) * 16
        let n := (len + 8191) / 8192
        Completes (exec (.rget i d a b) s) fun t =>
          th.moved (t.issuer i) th.nextPc ∧
          holds (.rget (v % 2 ^ 17) (addr % 2 ^ 17) (if u / 2 ^ 6 % 2 = 1 then some (u % 64) else none))
            ((List.range n).map fun j => (min 8192 (len - 8192 * j), .ok)) t ∧
          sendsAll n (fun j q => q.ptype = .read ∧ q.arg = low + 8192 * j ∧ q.data = min 8192 (len - 8192 * j)) t ∧ frame t)) ∧
    (Ready i [d.val] s = true →
      (c.opsOut i.thread.val = false → Completes (exec (.rfence i d) s) fun t =>
        th.wrote { t.issuer i with rstatus := th.rstatus } d.val th.rstatus th.nextPc ∧ (t.issuer i).rstatus = 0 ∧
        OnlyThread x i.thread.val s t) ∧
      (c.opsOut i.thread.val = true → Completes (exec (.rfence i d) s) fun t =>
        t.issuer i = { th with state := .waitRemote, wait := .rfence d.val } ∧ OnlyThread x i.thread.val s t))

/-- R267 to R269, R274, R333, R365, R366: what an access through a window does where every check passes, and where the
window is closed; opening and closing a window. -/
def Obligations.WindowAccesses : Prop :=
  ∀ (r : Requester) (x : Site) (win : Fin 16) (v : Word) (p : Packet) (s : State),
    let c := s.core x
    let w := c.win (p.arg / 2 ^ 20 % 16)
    let off := p.arg % 2 ^ 20
    let at_ := w.base.toNat + off
    let bs := Packet.writeBytes p
    let n := bs.length
    let granted := fun (perm : Bool) (n : Nat) => w.open_ = true ∧ w.closing = false ∧ p.arg / 2 ^ 24 % 2 ^ 8 = w.generation ∧
      s.admits w p.src = true ∧ perm = true ∧ off + n ≤ w.size.toNat ∧ c.plainAt at_ n = true
    let ty := c.tally (p.data % 64)
    let free := ty.waiters = [] ∧ ty.regs = [] ∧ ty.barrier = false
    let stores := fun (t : State) => (∀ j < n, (t.core x).byte (at_ + j) = BitVec.ofNat 8 (bs.getD j 0)) ∧ SramBut x at_ n s t ∧
      (t.core x).threads = c.threads ∧ CoreAndNet x s t
    let ack := fun (st : Status) (q : Packet) => q.ptype = .ack ∧ q.status = st ∧ q.dst = p.src ∧ q.tag = p.tag ∧ q.src = s.coreEid x
    (Arrives p x s →
      (granted w.write n →
        (p.ptype = .write → Completes (exec (.write p) s) fun t =>
          stores t ∧ t.net = takeFlight p s.net ∧ (t.core x).tallies = c.tallies) ∧
        (Knows s x p.src →
          (p.ptype = .writeAcked → Completes (exec (.writeAcked p) s) fun t =>
            stores t ∧ Sends x (takeFlight p s.net) t (ack .ok) ∧ (t.core x).tallies = c.tallies) ∧
          (p.ptype = .signalledWrite → free → ty.value < 0xFFFFFFFF → bit p.data 6 = true → bit p.data 7 = true →
            c.rangeActive (w.base.toNat + p.data / 2 ^ 8 % 2 ^ 17) (p.data / 2 ^ 32 % 2 ^ 32) = true →
            Completes (exec (.signalledWrite p) s) fun t =>
              stores t ∧ Sends x (takeFlight p s.net) t (ack .ok) ∧
              TallyIs x (p.data % 64) { ty with value := ty.value + 1, lastEid := p.src, lastTime := s.now x.field } s t) ∧
          (p.ptype = .countedWrite → free → ty.value + n ≤ 0xFFFFFFFF → bit p.data 6 = true →
            Completes (exec (.countedWrite p) s) fun t =>
              stores t ∧ Sends x (takeFlight p s.net) t (ack .ok) ∧
              TallyIs x (p.data % 64) { ty with value := ty.value + n, lastEid := p.src, lastTime := s.now x.field } s t))) ∧
      (granted w.read (p.data % 2 ^ 32) → Knows s x p.src → p.ptype = .read →
        let n := p.data % 2 ^ 32
        Completes (exec (.read p) s) fun t =>
          (∃ ps : List Packet, ps.length = (n + 511) / 512 ∧
            t.net = takeFlight p s.net ++ ps.map (Flight.fresh x.key) ∧
            ∀ j q, ps[j]? = some q → q.ptype = .readData ∧ q.status = .ok ∧ q.dst = p.src ∧ q.tag = p.tag ∧
              q.payload = (List.range (min 512 (n - 512 * j))).map fun m => c.byte (at_ + 512 * j + m)) ∧
          { t.core x with bookUse := c.bookUse } = c ∧ CoreAndNet x s t) ∧
      (w.open_ = false → Knows s x p.src → p.ptype = .writeAcked → Completes (exec (.writeAcked p) s) fun t =>
        Sends x (takeFlight p s.net) t (ack .windowClosed) ∧ (t.core x).sram = c.sram ∧
        (t.core x).reg 0x0D0 = BitVec.ofNat 32 (min ((c.reg 0x0D0).toNat + 1) 0xFFFFFFFF) ∧
        (t.core x).reg 0x0EC = BitVec.ofNat 32 p.src ∧ CoreAndNet x s t)) ∧
    (s.coreClocked x = true →
      let w := c.win win.val
      let is := fun (w' : Win) o => Completes o fun t =>
        (t.core x).win win.val = w' ∧ (∀ k, k ≠ win.val → (t.core x).win k = c.win k) ∧
        { t.core x with wins := c.wins, latch := c.latch } = c ∧ CoreOnly x s t
      (s.awake r = true → reaches r x = true → v.toNat / 2 ^ 24 % 8 = 0 → v.toNat / 4 % 2 ^ 14 = 0 →
        (bit v.toNat 31 = true → v.toNat / 2 ^ 27 % 4 ≠ 3 → w.open_ = false → w.closing = false → 0 < w.size.toNat →
          w.base.toNat + w.size.toNat ≤ 0x20000 →
          is { w with peerMode := v.toNat / 2 ^ 27 % 4, write := bit v.toNat 1, read := bit v.toNat 0, open_ := true }
            (exec (.windowOpen r x win v) s)) ∧
        (bit v.toNat 31 = false → w.open_ = true → w.closing = false → w.peerMode = v.toNat / 2 ^ 27 % 4 → w.peerMode ≠ 3 →
          w.write = bit v.toNat 1 → w.read = bit v.toNat 0 →
          is { w with closing := true, generation := (w.generation + 1) % 256 } (exec (.windowClose r x win v) s))) ∧
      (w.closing = true →
        is { w with open_ := w.openPending, closing := false, openPending := false } (exec (.windowClosed x win) s)))

/-- R195, R196, R345: an answer ends the operation that holds its tag: the tag is free, what was read is in place, and a
status other than OK counts in RSTATUS; a notice about no tag is counted and recorded; a time-out moves the tag's epoch. -/
def Obligations.RemoteAnswers : Prop :=
  ∀ (x : Site) (p : Packet) (k : Fin 64) (j : Fin 4) (d : Nat) (s : State),
    let c := s.core x
    let th := s.thread x j.val
    let freed := fun (t : State) => (t.core x).tag k.val = none ∧ (∀ m, m ≠ k.val → (t.core x).tag m = c.tag m) ∧
      (∀ m : Fin 4, m ≠ j → t.thread x m.val = s.thread x m.val)
    let taken := fun (t : State) => t.net = takeFlight p s.net ∧ CoreAndNet x s t
    let ends := fun (st : Status) (th' : Thread) =>
      (st = .ok → th' = th) ∧
      (st ≠ .ok → { th' with rstatus := th.rstatus } = th ∧
        th'.rstatus.toNat / 2 ^ 16 % 2 ^ 16 = min (th.rstatus.toNat / 2 ^ 16 % 2 ^ 16 + 1) 0xFFFF ∧
        th'.rstatus.toNat % 2 ^ 8 = if th.rstatus.toNat % 2 ^ 8 = 0 then st.code else th.rstatus.toNat % 2 ^ 8)
    let held := fun (g : Tag) (use : TagUse) parts => g.use = use ∧ g.thread = some j.val ∧ g.parts = parts ∧ g.own = .ok
    c.missWait = [] → (∀ m < 4, waitingOp (s.thread x m) = none) →
    (∀ g, Arrives p x s → c.tagOf p.tag = some (k.val, g) →
      (p.ptype = .readData → held g (.rld d) [(8, .ok)] → p.status = .ok → p.payload.length = 8 → p.data % 2 ^ 32 = 8 →
        let value := BitVec.ofNat 64 (leNat (p.payload.map (·.toNat)))
        let th' := { th.put d value with pendingG := th.pendingG.filter fun q => q.2 != k.val }
        (th.wait = .none → Completes (exec (.readData p) s) fun t =>
          freed t ∧ taken t ∧ t.thread x j.val = th' ∧ { t.core x with threads := c.threads, tags := c.tags } = c) ∧
        (∀ need, th.wait = .rldResult need false → th.pendingG = [(d, k.val)] → th.async = [] → s.coreRuns x = true → Completes (exec (.readData p) s) fun t =>
          freed t ∧ taken t ∧ t.thread x j.val = { th' with state := .running, wait := .none })) ∧
      (∀ loff roff n, p.ptype = .readData → held g (.rget loff roff none) [(n, .ok)] → p.status = .ok → th.wait = .none →
        p.payload.length = n → p.data % 2 ^ 32 = n → 0 < n → p.arg % 2 ^ 20 = roff →
        c.plainAt (loff + p.data / 2 ^ 32 % 2 ^ 32) n = true → Completes (exec (.readData p) s) fun t =>
          freed t ∧ taken t ∧ t.thread x j.val = th ∧ SramBut x (loff + p.data / 2 ^ 32 % 2 ^ 32) n s t ∧
          ∀ m < n, (t.core x).byte (loff + p.data / 2 ^ 32 % 2 ^ 32 + m) = p.payload.getD m 0) ∧
      (p.ptype = .ack → held g .rsta [(1, .ok)] → th.wait = .none → Completes (exec (.ack p) s) fun t =>
        freed t ∧ taken t ∧ ends p.status (t.thread x j.val) ∧ (t.core x).sram = c.sram)) ∧
    (∀ g, Arrives p x s → p.ptype = .lossNotice → c.tagOf (p.data / 2 ^ 16 % 2 ^ 16) = some (k.val, g) →
      held g .rsta [(1, .ok)] → p.data % 2 ^ 8 = 0x04 → th.wait = .none → Completes (exec (.lossNotice p) s) fun t =>
        freed t ∧ taken t ∧ ends p.status (t.thread x j.val) ∧ (t.core x).sram = c.sram) ∧
    (Arrives p x s → p.ptype = .lossNotice → c.tagOf (p.data / 2 ^ 16 % 2 ^ 16) = none →
      Completes (exec (.lossNotice p) s) fun t =>
        (t.core x).reg 0x254 = BitVec.ofNat 32 (min ((c.reg 0x254).toNat + 1) 0xFFFFFFFF) ∧
        (t.core x).reg 0x218 = BitVec.ofNat 32 (p.data / 2 ^ 32) ∧
        (∀ o, o ≠ 0x254 → o ≠ 0x214 → o ≠ 0x218 → (t.core x).reg o = c.reg o) ∧
        { t.core x with regs := c.regs } = c ∧ taken t) ∧
    (∀ g, c.tag k.val = some g → s.coreClocked x = true → g.use = .rsta → g.thread = some j.val → th.wait = .none →
      Completes (exec (.tagTimeout x k) s) fun t =>
        freed t ∧ (t.core x).epoch k.val = (c.epoch k.val + 1) % 16 ∧ ends .timeout (t.thread x j.val) ∧
        (t.core x).reg 0x258 = BitVec.ofNat 32 (min ((c.reg 0x258).toNat + 1) 0xFFFFFFFF) ∧ MemoryKept s t)

/-- R55, R349 to R353: the directory answers with an endpoint's exit, the core installs it and the packets held for it
leave; writes of ROUTER.EID and of the address book. -/
def Obligations.DirectoryAndNames : Prop :=
  ∀ (w : Requester) (x y : Site) (f : Fin 48) (p q : Packet) (k n : Nat) (entry : Fin 256) (v : Word) (s : State),
    let c := s.core x
    let mid : Site := ⟨Fin.ofNat 640 (f.val % 8 * 80 + 39), Fin.ofNat 504 (f.val / 8 * 84 + 41)⟩
    (∀ d, p.ptype = .directory → p.poisoned = false → p.dst = s.chip * 2 ^ 20 + 0xFFF00 + f.val →
      s.lands p = true → (s.field f.val).foremanUp = true → s.siteOf (eidLocal p.src) = some y → s.resolve y p.src p.arg = some d →
      (s.resolve mid p.dst p.src).isSome = true →
      Completes (exec (.directory p) s) fun t =>
        (∃ r a, t.net = takeFlight p s.net ++ [Flight.fresh a r] ∧ r.ptype = .directory ∧ r.dst = p.src ∧ r.tag = p.tag ∧
          r.status = .ok ∧
          r.data = d.x + d.y * 2 ^ 10 + d.port.code * 2 ^ 19 + (if d.chipEntry then 2 ^ 22 else 0) + 2 ^ 63) ∧
        t.cores = s.cores ∧ MemoryKept s t) ∧
    (∀ g port, Arrives p x s → p.ptype = .directory → bit p.data 63 = true → p.status = .ok →
      c.tagOf p.tag = some (k, g) → g.use = .miss q.dst → Port.ofCode (p.data / 2 ^ 19 % 8) = some port →
      c.bookVictim = some n → c.missWait = [⟨some k, q⟩] → (∀ m < 4, waitingOp (s.thread x m) = none) →
      Completes (exec (.directoryAnswer p) s) fun t =>
        (t.core x).tag k = none ∧ (t.core x).missWait = [] ∧
        (t.core x).bookEntry n = ⟨BitVec.ofNat 32 q.dst, BitVec.ofNat 32 q.dst, BitVec.ofNat 32 (2 ^ 31 +
          (if bit p.data 22 then 2 ^ 29 else 0) + port.code * 2 ^ 26 + p.data % 2 ^ 10 * 2 ^ 16 +
          p.data / 2 ^ 10 % 2 ^ 9 * 2 ^ 7)⟩ ∧
        (∀ m, m ≠ n → (t.core x).bookEntry m = c.bookEntry m) ∧
        t.net = takeFlight p s.net ++
          [Flight.fresh x.key (q.toward ⟨p.data % 2 ^ 10, p.data / 2 ^ 10 % 2 ^ 9, port, bit p.data 22⟩)] ∧
        (t.core x).threads = c.threads ∧ CoreAndNet x s t) ∧
    (s.awake w = true → s.coreClocked x = true → reaches w x = true →
      ((∀ y k, w ≠ .thread y k) → v.toNat % 2 ^ 20 < 0xFFE00 → s.eidTaken x (v.toNat % 2 ^ 20) = false →
        Completes (exec (.eidWrite w x v) s) fun t =>
          t.coreEid x = s.chip * 2 ^ 20 + v.toNat % 2 ^ 20 ∧ (∀ m, (t.seam m).cache = []) ∧
          { t.core x with eidLocal := c.eidLocal, latch := c.latch } = c ∧ CoreOnly x s { t with seams := s.seams }) ∧
      ((∃ y k, w = .thread y k) → Completes (exec (.eidWrite w x v) s) fun t =>
        t.coreEid x = s.coreEid x ∧ (t.core x).regBit 0x044 31 = true ∧ CoreOnly x s t) ∧
      (Completes (exec (.addressBookWrite w x entry v) s) fun t =>
        (t.core x).bookEntry entry.val = ⟨(c.bookEntry entry.val).lo, (c.bookEntry entry.val).lo, v &&& 0xFFFFFF80#32⟩ ∧
        (∀ m, m ≠ entry.val → (t.core x).bookEntry m = c.bookEntry m) ∧ { t.core x with book := c.book, latch := c.latch } = c ∧
        CoreOnly x s t))

/-- R357, R363, R368 to R370: tallies reached from afar: a signal adds its increment, a child's arrival counts and is
registered, a release ends a round and its waiting thread goes on with OK, a deadline ends a TWAIT with TIMEOUT. -/
def Obligations.TalliesFromAfar : Prop :=
  ∀ (x : Site) (p : Packet) (j : Fin 4) (g dl : Nat) (s : State),
    let c := s.core x
    let n := p.arg % 64
    let ty := c.tally n
    let th := s.thread x j.val
    let is := fun (ty' : Tally) (t : State) => TallyIs x n ty' s t ∧
      (∀ m : Fin 4, m ≠ j → t.thread x m.val = s.thread x m.val) ∧
      { t.core x with tallies := c.tallies, threads := c.threads } = c
    let goesOn := fun (st : Status) (th' : Thread) => th.wrote { th' with wait := th.wait, state := th.state } g
      (BitVec.ofNat 64 st.code) th.nextPc ∧ th'.state = .running ∧ th'.wait = .none
    (Arrives p x s →
      (p.ptype = .tallySignal → ty.waiters = [] → ty.regs = [] → ty.barrier = false → ty.value + p.data % 2 ^ 32 ≤ 0xFFFFFFFF →
        Completes (exec (.tallySignal p) s) fun t =>
          is { ty with value := ty.value + p.data % 2 ^ 32, lastEid := p.src, lastTime := s.now x.field } t ∧
          (t.core x).threads = c.threads ∧ t.net = takeFlight p s.net ∧ CoreAndNet x s t) ∧
      (p.ptype = .barrier → bit p.data 16 = false → ty.barrier = true → ty.round = p.data % 2 ^ 16 →
        ty.value + 1 < max ty.target 1 → ty.value < 0xFFFFFFFF → ty.regs.length < 8 →
        Completes (exec (.barrierArrival p) s) fun t =>
          is { ty with value := ty.value + 1, lastEid := p.src, lastTime := s.now x.field,
                       regs := ty.regs ++ [⟨p.src, p.data / 2 ^ 17 % 64, true, false⟩] } t ∧
          (t.core x).threads = c.threads ∧ t.net = takeFlight p s.net ∧ CoreAndNet x s t) ∧
      (p.ptype = .barrier → bit p.data 16 = true → p.status = .ok → ty.barrier = true → ty.forwarded = true →
        ty.round = p.data % 2 ^ 16 → ty.waiters = [⟨j.val, false, dl, true⟩] → ty.regs = [] → ty.early = 0 →
        th.wait = .tally g n → s.coreRuns x = true → Completes (exec (.barrierRelease p) s) fun t =>
          is { ty with value := 0, round := (ty.round + 1) % 2 ^ 16, forwarded := false, waiters := [],
                       surplus := ty.surplus || decide (max ty.target 1 < ty.value) } t ∧
          goesOn .ok (t.thread x j.val) ∧ t.net = takeFlight p s.net ∧ CoreAndNet x s t)) ∧
    (∀ m, th.wait = .tally g m → (c.tally m).waiters = [⟨j.val, false, dl, false⟩] → dl ≠ 0 → s.coreRuns x = true →
      Completes (exec (.tallyTimeout x j) s) fun t =>
        TallyIs x m { c.tally m with waiters := [] } s t ∧ goesOn .timeout (t.thread x j.val) ∧
        (∀ i : Fin 4, i ≠ j → t.thread x i.val = s.thread x i.val) ∧ MemoryKept s t)

/-! ## Shifts -/

/-- R208, R210, R227 to R229: a shift load reads the descriptor from SRAM into its slot, where it is valid only if it passes
every check; the rotation table runs, advances and stops; a switch makes a slot's shift active on its cores, and its
beat 0 starts the threads that enter. -/
def Obligations.ShiftsAndRotation : Prop :=
  ∀ (w : Requester) (x : Site) (f : FieldNo) (v : Word) (slot off k : Nat) (d : Shift) (s : State),
    let c := s.core x
    let fl := s.field f.val
    let rot := rotCtrl f.val
    let v31 := v.toNat
    (s.awake w = true → s.coreClocked x = true → reaches w x = true → bit v31 31 = true →
      ((∀ a, c.active = some a → a.1 ≠ bits v31 30 28) → c.shiftLoad = none →
        ((s.field x.field).sched = .idle ∨ (s.field x.field).sched = .beats) →
        Completes (exec (.shiftLoad w x v) s) fun t =>
          (t.core x).shiftLoad = some (bits v31 30 28, bits v31 16 0) ∧
          { t.core x with shiftLoad := c.shiftLoad, regs := c.regs, latch := c.latch } = c ∧ CoreOnly x s t) ∧
      (c.shiftLoad.isSome = true → Completes (exec (.shiftLoad w x v) s) fun t =>
        (t.core x).shiftLoad = c.shiftLoad ∧ (t.core x).regBits 0x090 24 17 = Status.busy.code ∧
        (t.core x).regBit 0x044 31 = true ∧ CoreOnly x s t)) ∧
    (c.shiftLoad = some (slot, off) → s.coreClocked x = true → off % 64 = 0 → c.plainAt off 2048 = true →
      ∃ b : Shift, (∀ j < 2048, b.get (fun _ => 0) j = c.byte (off + j)) ∧
        (b.valid (s.closedPort x) = true → Completes (exec (.shiftLoadEnd x) s) fun t =>
          (t.core x).shiftSlot slot = ⟨b, true⟩ ∧ (∀ m, m ≠ slot → (t.core x).shiftSlot m = c.shiftSlot m) ∧
          (t.core x).shiftLoad = none ∧ (t.core x).regBits 0x090 24 17 = 0 ∧
          { t.core x with shifts := c.shifts, shiftLoad := c.shiftLoad, regs := c.regs } = c ∧ CoreOnly x s t) ∧
        (b.valid (s.closedPort x) = false → Completes (exec (.shiftLoadEnd x) s) fun t =>
          (t.core x).shiftSlot slot = ShiftSlot.empty ∧ (∀ m, m ≠ slot → (t.core x).shiftSlot m = c.shiftSlot m) ∧
          (t.core x).shiftLoad = none ∧ (t.core x).regBits 0x090 24 17 = Status.formatInvalid.code ∧
          Logged x.field 0x0803 (siteWord x slot) t ∧ MemoryKept s t)) ∧
    (s.pageWriter w = true → s.pithead.boot ≠ .failed → fl.vcoreOn = true →
      let only := FieldOnly f.val (s.dropLatch w rot)
      (s.sregBit rot 0 = false → fl.drain = none → bit v31 0 = true → bit v31 30 = false →
        Completes (exec (.rotRun w f v) s) fun t =>
          t.sregBit rot 0 = true ∧ t.sregBit rot 31 = false ∧ t.sregBit rot 29 = bit v31 29 ∧
          t.sregBits rot 10 8 = bits v31 10 8 ∧ t.field f.val = { fl with
            sched := .due (some 0), beatAt := if fl.sched = .beats then fl.beatAt else max fl.beatAt fl.ran } ∧ SregsBut [rot] s t ∧ only t) ∧
      (s.sregBit rot 0 = true → bit v31 29 = s.sregBit rot 29 → bits v31 10 8 = s.sregBits rot 10 8 →
        (bit v31 0 = true → bit v31 30 = true → Completes (exec (.rotAdvance w f v) s) fun t =>
          t.sregBit rot 30 = true ∧ t.sregBit rot 0 = true ∧ t.fields = s.fields ∧ SregsBut [rot] s t ∧ only t) ∧
        (bit v31 0 = false → bit v31 30 = false → Completes (exec (.rotStop w f v) s) fun t =>
          t.sregBit rot 0 = false ∧ t.fields = s.fields ∧ SregsBut [rot] s t ∧ only t))) ∧
    (fl.sched = .due (some k) → s.schedRuns f.val = true → fl.beatAt ≤ fl.ran → s.coreSites f.val = [x] → s.coreOn x = true →
      c.shiftSlot (bits (s.sreg (rotStepHi f.val k)).toNat 2 0) = ⟨d, true⟩ → c.array.busy = false → c.chutesIdle = true →
      d.le 4 4 = 0 → d.le 8 2 = 0 → d.stationary = false → (∀ t ∈ d.enters, (s.thread x t).state = .stopped) →
      Completes (exec (.shiftSwitch f) s) fun t =>
        (t.core x).active = some (bits (s.sreg (rotStepHi f.val k)).toNat 2 0, d) ∧ (t.core x).entering = d.enters ∧
        (t.core x).threads = c.threads ∧ (t.core x).sram = c.sram ∧ (t.field f.val).sched = .switching (some k) ∧
        (t.field f.val).rotStep = k ∧ (t.field f.val).beat = 0 ∧ (t.field f.val).frame = 0 ∧
        (t.field f.val).period = bits (s.sreg (rotStepHi f.val k)).toNat 13 8 + 1 ∧
        (t.field f.val).frames = (s.sreg (rotStepLo f.val k)).toNat ∧ MemoryKept s t) ∧
    (fl.sched = .switching (some k) → s.schedRuns f.val = true → fl.beatAt ≤ fl.ran → s.coreSites f.val = [x] → s.coreOn x = true →
      c.active = some (slot, d) → c.regBit 0x094 1 = false → fl.drain = none →
      Completes (exec (.switchBeat0 f) s) fun t =>
        (∀ j : Fin 4, j.val ∈ c.entering → t.thread x j.val =
          { s.thread x j.val with pc := d.entry j.val, state := .running, handler := false, wait := .none } ∧
          (t.core x).runBit j.val = true) ∧
        (∀ j : Fin 4, j.val ∉ c.entering → t.thread x j.val = s.thread x j.val ∧
          (t.core x).runBit j.val = c.runBit j.val) ∧
        (t.core x).entering = [] ∧ t.field f.val = { fl with
          sched := .beats, beat := 0, frame := 0, switchFrom := max fl.switchFrom fl.beatAt } ∧
        t.sreg (pageFieldctl f.val + 0x050) = BitVec.ofNat 32 (min
          ((s.sreg (pageFieldctl f.val + 0x050)).toNat + (max fl.switchFrom fl.beatAt / 20 - fl.switchFrom / 20)) 0xFFFFFFFF) ∧
        MemoryKept s t)

/-- R211 to R215, R227: in a beat a router follows its slot entry: here one whose east output takes the west input, so that
the flit stands on its east neighbour's west input when the beat has ended; the field counts the beat. R220 to R225: a core that falls short raises hold; its field stands frozen where the request stood raised 8 cycles before, and goes
on where it did not; CORE.HOLD_REQ counts the cycles a request has stood. The token queues and the elastic units. -/
def Obligations.BeatsHoldsAndSteering : Prop :=
  (∀ (f : FieldNo) (x y : Site) (slot : Nat) (d : Shift) (fl : Flit) (wrong : List (Site × Fin 32 × Fin 256)) (s : State),
    let c := s.core x
    let fd := s.field f.val
    s.schedRuns f.val = true → fd.beatAt ≤ fd.ran → fd.sched = .beats → fd.drain = none → fd.beat + 1 < fd.period →
    s.coreSites f.val = [x, y] → y.x.val = x.x.val + 1 → y.y = x.y → s.coreOn x = true → s.coreOn y = true →
    c.active = some (slot, d) → (s.core y).active = none → d.entryWord fd.beat = 0x40 → d.commands = 0 →
    (d.unit 0).static = false → (d.unit 1).static = false → (c.steerUnit 0).waiting = none → (c.steerUnit 1).waiting = none →
    c.reads = [] → c.chutesIdle = true → c.schedRun.get (fun _ => 0) 2 < 7 → c.inputs.get (fun _ => none) 4 = some fl →
    Completes (exec (.beat f wrong) s) fun t =>
      (t.core y).inputs.get (fun _ => none) 4 = some fl ∧ (t.core x).inputs = [] ∧
      (t.core x).reg 0x230 = BitVec.ofNat 32 (min ((c.reg 0x230).toNat + 1) 0xFFFFFFFF) ∧
      (t.field f.val).beat = fd.beat + 1 ∧ (t.field f.val).frame = fd.frame ∧ (t.field f.val).sched = .beats ∧
      (t.core x).threads = c.threads ∧ MemoryKept s t) ∧
  (∀ (w : Requester) (x : Site) (f : FieldNo) (u : Fin 2) (v : Word) (left slot e g : Nat) (j : Fin 4) (d : Shift) (st : Status)
    (s : State),
    let c := s.core x
    let fl := s.field f.val
    let su := c.steerUnit u.val
    let cfg := d.unit u.val
    let fl' := s.field x.field
    let held := fun (cause : Option Nat) o => Completes o fun t =>
      (t.core x).holdReq = cause ∧ (t.core x).holdFrom = fl'.clk ∧
      ((t.core x).reg 0x0B0).toNat =
        min ((c.reg 0x0B0).toNat + (if c.holdReq = none then 0 else fl'.clk / 20 - c.holdFrom / 20)) 0xFFFFFFFF ∧
      (∀ o, o ≠ 0x0B0 → (t.core x).reg o = c.reg o) ∧
      { t.core x with holdReq := c.holdReq, holdFrom := c.holdFrom, regs := c.regs } = c ∧
      { t with cores := s.cores, fields := s.fields, regs := s.regs } = s ∧ (∀ y : Site, y.key ≠ x.key → t.core y = s.core y) ∧
      (∀ g, g ≠ x.field → t.field g = s.field g) ∧
      { t.field x.field with holdLog := (s.field x.field).holdLog } = s.field x.field ∧
      SregsBut [pageFieldctl x.field + 0x054] s t
    let asks := (s.coreSites f.val).any fun y => s.coreOn y && (s.core y).holdReq.isSome
    let n := fl.heldSpan fl.heldFrom fl.clk / 20
    (s.coreOn x = true → (s.field x.field).clockGated = false →
      (c.active = none → held none (exec (.holdRequest x left) s)) ∧
      (c.active = some (slot, d) →
        (∀ k < 8, (c.chute (d.cursor k).endpoint).lags = false) →
        (∃ k < 8, (d.cursor k).kind = 2 ∧ (c.chute (d.cursor k).endpoint).role = .consumer ∧
          (c.chute (d.cursor k).endpoint).seen < 4 *
            (((s.window8 x.field left).map d.slot).filter fun e => d.usesRead e && e.rdCursor == k).length) →
        held (some 1) (exec (.holdRequest x left) s))) ∧
    (fl.clocked = true → fl.frozen = false → fl.drain = none → asks = true → fl.holdLog.getLast?.map (·.2) = some true →
      fl.heldAt fl.clk = true → Completes (exec (.fieldFreeze f) s) fun t =>
        t.field f.val = { fl with
          frozen := true, freezeAt := fl.clk, heldFrom := fl.clk, longHold := false, gateFrozen := false, holdIn := true } ∧
        t.sreg (pageFieldctl f.val + 0x04C) =
          BitVec.ofNat 32 (min ((s.sreg (pageFieldctl f.val + 0x04C)).toNat + 1) 0xFFFFFFFF) ∧
        SregsBut [pageFieldctl f.val + 0x04C] s t ∧ FieldOnly f.val s t) ∧
    (fl.frozen = true → fl.gateFrozen = false → fl.longHold = true → fl.clocked = true → asks = false →
      fl.holdLog.getLast?.map (·.2) ≠ some true → s.shutAt f.val fl.clk = false → s.coreSites f.val = [x] →
      (s.thread x j.val).wait = .released g st → (∀ i : Fin 4, i ≠ j → (s.thread x i.val).wait = .none) →
      c.chutesIdle = true → c.missWait = [] → Completes (exec (.fieldResume f) s) fun t =>
        t.field f.val = { fl with frozen := false, heldFrom := fl.clk - fl.clk % 20, holdIn := fl.holdIn || decide (0 < n) } ∧
        t.sreg (pageFieldctl f.val + 0x048) = BitVec.ofNat 32
          (min ((s.sreg (pageFieldctl f.val + 0x048)).toNat + n) 0xFFFFFFFF) ∧
        (s.thread x j.val).wrote { t.thread x j.val with wait := .released g st, state := (s.thread x j.val).state } g
          (BitVec.ofNat 64 st.code) (s.thread x j.val).nextPc ∧ (t.thread x j.val).state = .running ∧
        (t.thread x j.val).wait = .none ∧ (∀ i : Fin 4, i ≠ j → t.thread x i.val = s.thread x i.val) ∧ MemoryKept s t) ∧
    (s.awake w = true → s.coreClocked x = true → reaches w x = true →
      (su.tokens.length < 4 → Completes (exec (.steerTokenPush w x u v) s) fun t =>
        (t.core x).steerUnit u.val = { su with tokens := su.tokens ++ [v.toNat % 8] } ∧
        { t.core x with steer := c.steer, latch := c.latch } = c ∧ CoreOnly x s t) ∧
      (4 ≤ su.tokens.length → Completes (exec (.steerTokenPush w x u v) s) fun t =>
        (t.core x).steer = c.steer ∧ (t.core x).regBit 0x044 31 = true ∧ CoreOnly x s t)) ∧
    (c.active = some (slot, d) → s.coreClocked x = true → su.tokenQ.length = 4 → cfg.eps[su.tokenQ.headD 0]? = some (some e) →
      su.tokenQ.headD 0 ≠ 7 →
      let into := fun (k : Nat) => let ch := c.chute k
        ch.late = [] ∧ ch.role = .producer ∧ ch.ready = true ∧ ch.record = false ∧ ch.pushed + 1 ≤ ch.ring + ch.released ∧ c.sendUsed + 1 ≤ 128
      (cfg.mode = 3 → su.dataQ.length = 4 → into e → Completes (exec (.elasticSteer x u) s) fun t =>
        ChuteIs x e { c.chute e with
          pend := (c.chute e).pend ++ [.entry (su.dataQ.headD 0)], pushed := (c.chute e).pushed + 1
          pushedAt := s.clockOf x } s t ∧
        (t.core x).steerUnit u.val = { su with dataQ := su.dataQ.tail, tokenQ := su.tokenQ.tail } ∧
        { t.core x with chutes := c.chutes, steer := c.steer } = c ∧ CoreOnly x s t) ∧
      (cfg.mode = 4 → into cfg.outEp → e ≠ cfg.outEp →
        let ch := c.chute e
        let value := BitVec.ofNat 64 (c.le (ch.slot ch.taken) 8)
        ch.role = .consumer → ch.async = false → ch.record = false → 1 ≤ ch.seen → c.plainAt (ch.slot ch.taken) 8 = true →
        Completes (exec (.elasticMerge x u) s) fun t =>
          (t.core x).chute e = { ch with taken := ch.taken + 1, lastPop := value } ∧
          (t.core x).chute cfg.outEp = { c.chute cfg.outEp with
            pend := (c.chute cfg.outEp).pend ++ [.entry value], pushed := (c.chute cfg.outEp).pushed + 1
            pushedAt := s.clockOf x } ∧
          (∀ k, k ≠ e → k ≠ cfg.outEp → (t.core x).chute k = c.chute k) ∧
          ((t.core x).steerUnit u.val).tokenQ = su.tokenQ.tail ∧
          { t.core x with chutes := c.chutes, steer := c.steer } = c ∧ CoreOnly x s t)) ∧
    (s.coreOn x = true → (s.field x.field).frozen = true → c.waits u.val = true → s.jobUses x.field = false →
      Completes (exec (.steerTimeout x u) s) fun t =>
        Logged x.field 0x0801 (siteWord x u.val) t ∧
        (∀ p < 2, (t.port p).msix = if s.pithead.job = none then (s.port p).msix else ((s.port p).raised 33).msix) ∧
        MemoryKept s t))

/-- R233, R234: a drain stops the field's threads, has its consumers refuse and discards array commands not yet started;
it stops the schedule, and ends when every core is drained or, with what is left discarded, at its limit. -/
def Obligations.Drains : Prop :=
  ∀ (w : Requester) (x : Site) (f : FieldNo) (v : Word) (d : Drain) (s : State),
    let fl := s.field f.val
    let r := drainStatus f.val
    (s.pageWriter w = true → s.pithead.boot ≠ .failed → fl.vcoreOn = true → bit v.toNat 0 = true → fl.drain = none → fl.frozen = false →
      s.coreSites f.val = [x] →
      (∀ k : Fin 4, (s.thread x k.val).state = .running ∧ (s.thread x k.val).pendingG = [] ∧ (s.thread x k.val).async = [] ∧
        (s.thread x k.val).late = []) →
      Completes (exec (.drainStart w f v) s) fun t =>
        t.field f.val = { fl with drain := some ⟨fl.clk, s.drainBeats f.val, false⟩, holdLog := [] } ∧
        (∀ k : Fin 4, t.thread x k.val = { s.thread x k.val with state := .stopped, wait := .none } ∧
          (t.core x).runBit k.val = false) ∧
        (∀ e, ((s.core x).chute e).role = .consumer → ((t.core x).chute e).refusing = true) ∧
        (t.core x).array.queue = [] ∧ SregsBut [r] s t ∧ MemoryKept s t) ∧
    (fl.drain = some d → d.schedStopped = false → (fl.sched = .idle ∨ (fl.sched = .beats ∧ d.beatsLeft = 0)) →
      Completes (exec (.drainScheduleStop f) s) fun t =>
        t.field f.val = { fl with sched := .idle, drain := some { d with schedStopped := true } } ∧
        (∀ y : Site, y.field = f.val → (t.core y).array.queue = []) ∧ t.regs = s.regs ∧ MemoryKept s t) ∧
    (fl.drain = some d → d.schedStopped = true → fl.sched = .idle → (∀ y ∈ s.coreSites f.val, s.coreOn y = true → (s.core y).drained = true) →
      s.jobUses f.val = false → Completes (exec (.drainEnd f) s) fun t =>
        t.field f.val = { fl with drain := none, sched := .idle } ∧ t.sregBit r 31 = true ∧ t.sregBits r 15 1 = 0 ∧
        t.sregBit (rotCtrl f.val) 0 = false ∧ (∀ y : Site, y.field = f.val → (t.core y).active = none) ∧
        SregsBut [r, rotCtrl f.val] s t ∧ MemoryKept s t) ∧
    (fl.drain = some d → s.pithead.job = none → d.since + 20 * (s.sreg (pageFieldctl f.val + 0x058)).toNat ≤ fl.clk →
      (∀ y ∈ s.coreSites f.val, (s.core y).array.busy = false ∧ (s.core y).spmv = none ∧
        ∀ k : Fin 4, (s.thread y k.val).async = []) →
      let left := (s.coreSites f.val).filter fun y => s.coreOn y && !(s.core y).drained
      Completes (exec (.drainLimitExpiry f) s) fun t =>
        (t.field f.val).drain = none ∧ t.sregBit r 31 = true ∧ t.sregBits r 15 1 = min left.length 0x7FFF ∧
        (left = [] → t.sregBit r 30 = s.sregBit r 30) ∧
        (left ≠ [] → t.sregBit r 30 = true ∧ Logged f.val 0x0806 (fieldWord f.val 0) t) ∧
        (∀ y ∈ s.coreSites f.val, s.coreOn y = true → ∀ k : Fin 4, (t.thread y k.val).state = .stopped))

/-! ## Register pages -/

/-- R531 to R536, R542, R60, R61, R275: reads and writes of the header registers every page has, accesses of core pages through
COREACC, and privileged packets at a core. -/
def Obligations.RegisterAccess : Prop :=
  ∀ (w : Requester) (f : FieldNo) (x : Site) (off code inst : Nat) (v : Word) (dv : DWord) (p : Packet) (s : State),
    let c := s.core x
    let bytes := fun (n : Nat) => (List.range 4).map fun j => BitVec.ofNat 8 (n / 256 ^ j)
    let sel := pageCoreacc f.val + 0x040
    let asks := fun o => Completes o fun t =>
      (t.field f.val).coreAcc = some ⟨bit v.toNat 30, bits v.toNat 29 20, bits v.toNat 19 11, bits v.toNat 10 1, w⟩ ∧
      SregsBut [sel] s t ∧ FieldOnly f.val (s.dropLatch w sel) t
    (s.pageWriter w = true → pageAt off = some (code, inst) → s.pageAnswers code = true → s.fieldOff code inst = false →
      s.latch = [] →
      (off % 0x1000 = 0 → Completes (exec (.readClear w (.space off) 4) s) fun t =>
        t.reply = ⟨.ok, bytes (code * 2 ^ 20 + inst * 2 ^ 8 + 1), .served⟩ ∧ { t with reply := s.reply, latch := s.latch } = s) ∧
      (off % 0x1000 = 0x01C → Completes (exec (.readClear w (.space off) 4) s) fun t =>
        t.reply = ⟨.ok, bytes (s.sreg off).toNat, .served⟩ ∧ t.sreg off = 0 ∧ SregsBut [off] s t ∧
        { t with reply := s.reply, regs := s.regs, latch := s.latch } = s) ∧
      (code ≠ 0x03 → code ≠ 0x04 →
        (off % 0x1000 = 0x014 → Completes (exec (.registerWrite w (.space off) dv 4) s) fun t =>
          (t.sreg off).toNat % 16 = dv.toNat % 16 ∧ t.sreg off &&& 0xFFFFFFF0#32 = s.sreg off &&& 0xFFFFFFF0#32 ∧
          SregsBut [off] s t ∧ { t with regs := s.regs } = s) ∧
        (off % 0x1000 = 0x010 → Completes (exec (.registerWrite w (.space off) dv 4) s) fun t =>
          t.sreg off = s.sreg off &&& ~~~(dv.setWidth 32 &&& 0xF#32) ∧ SregsBut [off] s t ∧
          { t with regs := s.regs } = s))) ∧
    (s.pageWriter w = true → s.pithead.boot ≠ .failed → (s.field f.val).vcoreOn = true → (s.field f.val).coreAcc = none → bit v.toNat 31 = true →
      asks (exec (.coreaccRead w f v) s) ∧ asks (exec (.coreaccWrite w f v) s)) ∧
    (∀ wr word, (s.field f.val).coreAcc = some ⟨wr, x.x.val, x.y.val, word, w⟩ →
      (x.foremanBlock = true ∨ x.field ≠ f.val → Completes (exec (.coreaccEnd f) s) fun t =>
        (t.field f.val).coreAcc = none ∧ t.sregBits (pageCoreacc f.val + 0x048) 23 16 = Status.addrRange.code ∧
        t.cores = s.cores ∧ FieldOnly f.val s t) ∧
      (x.foremanBlock = false → x.field = f.val → s.siteStatus x = .ok → c.latch = [] → wr = false → word = 5 →
        Completes (exec (.coreaccEnd f) s) fun t =>
          (t.field f.val).coreAcc = none ∧ t.sregBits (pageCoreacc f.val + 0x048) 23 16 = 0 ∧
          t.sreg (pageCoreacc f.val + 0x044) = c.reg 0x014 ∧ t.core x = c ∧ MemoryKept s t)) ∧
    (∀ so n, Arrives p x s → Packet.fromCore p = false → x.foremanBlock = false → Knows s x p.src → 0 < n → n ≤ 512 → p.arg % 2 ^ 32 = n →
      p.data % 2 ^ 48 = coreBase x + so → so + n ≤ 0x20000 → c.plainAt so n = true → s.siteStatus x = .ok →
      (p.ptype = .privRead → Completes (exec (.privRead p) s) fun t =>
        Sends x (takeFlight p s.net) t (fun q => q.ptype = .readData ∧ q.status = .ok ∧ q.dst = p.src ∧ q.tag = p.tag ∧
          q.payload = (List.range n).map fun j => c.byte (so + j)) ∧
        { t.core x with bookUse := c.bookUse } = c ∧ CoreAndNet x s t) ∧
      (p.ptype = .privWrite → p.payload.length = n → Completes (exec (.privWrite p) s) fun t =>
        (∀ j < n, (t.core x).byte (so + j) = p.payload.getD j 0) ∧ SramBut x so n s t ∧
        Sends x (takeFlight p s.net) t (fun q => q.ptype = .ack ∧ q.status = .ok ∧ q.dst = p.src ∧ q.tag = p.tag) ∧
        (t.core x).threads = c.threads ∧ CoreAndNet x s t))

/-! ## Banks of core SRAM -/

/-- R278 to R280, R285, R286: a write of CORE.MEM_PARK that is not refused asks each bank; parking and waking end, 544 cycles after
waking began; a woken bank reads zero; the scrubber reads its next word, MEM_SCRUB.interval cycles after the one before, and counts a single error, whose corrected word is then written back. -/
def Obligations.SramBanks : Prop :=
  ∀ (w : Requester) (x : Site) (v : Word) (b : Fin 16) (word : Fin 8192) (wake e : Bool) (s : State),
    let c := s.core x
    let bad := fun k : Nat => bit v.toNat k = true ∧ (bit v.toNat (16 + k) = true ∨ c.bank k = .waking ∨
      (c.linear (k / 4) = false ∧ ∃ i < 4, bit v.toNat (k / 4 * 4 + i) = false))
    let asked := fun o => Completes o fun t =>
      (∀ k < 16, (t.core x).bank k = match c.bank k with
        | .active => if bit v.toNat k then .closing false else .active
        | .parked => if bit v.toNat (16 + k) then .waking else .parked
        | .closing later => .closing (later || bit v.toNat (16 + k))
        | .waking => .waking) ∧
      { t.core x with banks := c.banks, wakeAt := c.wakeAt, latch := c.latch } = c ∧ CoreOnly x s t
    let refused := fun o => Completes o fun t =>
      (t.core x).regBit 0x044 31 = true ∧ (t.core x).banks = c.banks ∧ CoreOnly x s t
    let others := fun t : State => (∀ k, k ≠ b.val → (t.core x).bank k = c.bank k) ∧
      (∀ a < 0x20000, c.bankOf a ≠ b.val → (t.core x).byte a = c.byte a) ∧ (t.core x).threads = c.threads
    let at_ := word.val * 16
    let due := c.scrubAt + max 64 (c.regBits 0x0C0 11 0)
    let scrubbed := fun t : State => due ≤ (t.core x).scrubAt ∧ (20 * due ≤ (s.field x.field).clk → CoreOnly x s t)
    (s.awake w = true → s.coreClocked x = true → reaches w x = true →
      ((∀ k < 16, ¬bad k) → asked (exec (.bankPark w x v) s) ∧ asked (exec (.bankWake w x v) s)) ∧
      ((∃ k < 16, bad k) → refused (exec (.bankPark w x v) s) ∧ refused (exec (.bankWake w x v) s))) ∧
    (s.coreClocked x = true →
      (c.bank b.val = .closing wake → Completes (exec (.bankParkedDone x b) s) fun t =>
        (t.core x).bank b.val = (if wake then .waking else .parked) ∧
        (wake = true → (t.core x).wakeAt.get (fun _ => 0) b.val = (s.field x.field).clk / 20) ∧ others t ∧ CoreOnly x s t) ∧
      (c.bank b.val = .waking → Completes (exec (.bankActive x b) s) fun t =>
        (t.core x).bank b.val = .active ∧
        (∀ a < 0x20000, c.bankOf a = b.val → (t.core x).byte a = 0 ∧ (t.core x).eccAt a = .clean) ∧ others t ∧
        (20 * (c.wakeAt.get (fun _ => 0) b.val + 544) ≤ (s.field x.field).clk → CoreOnly x s t)) ∧
      (c.regBit 0x0C0 31 = true → c.regBits 0x0C0 29 17 = word.val → (c.activeAt at_ = false ∨ c.eccAt at_ = .clean) →
        Completes (exec (.scrubRead x) s) fun t =>
          (t.core x).regBits 0x0C0 29 17 = (word.val + 1) % 8192 ∧ scrubbed t ∧
          { t.core x with regs := c.regs, scrubAt := c.scrubAt } = c) ∧
      (c.regBit 0x0C0 31 = true → c.regBits 0x0C0 29 17 = word.val → c.activeAt at_ = true → c.eccAt at_ = .single e →
        Completes (exec (.scrubRead x) s) fun t =>
          (t.core x).reg 0x0C8 = BitVec.ofNat 32 (min ((c.reg 0x0C8).toNat + 1) 0xFFFFFFFF) ∧
          (t.core x).eccAt at_ = .single true ∧ scrubbed t) ∧
      (c.eccAt at_ = .single true → Completes (exec (.eccWriteback x word) s) fun t =>
        (t.core x).eccAt at_ = .clean ∧ { t.core x with ecc := c.ecc } = c ∧ CoreOnly x s t))

/-! ## Hoists and stack ports -/

/-- R293, R296 to R298, R310 to R313, R316, R317: doorbells, the control register, the fetch of a descriptor, its completion
record and signal, and the stack ports' own events. -/
def Obligations.HoistsAndStacks : Prop :=
  ∀ (w : Requester) (h : Fin 208) (v : Word) (p : Packet) (x : Site) (so : Nat) (r : HoistRun) (l : List Nat) (n : Fin 32)
    (why : OfflineCause) (s : State),
    let z := s.hoist h.val
    let page := pageHoist h.val
    let ctrl := page + 0x054
    let limit := min 0xFFFF (2 ^ s.sregBits (page + 0x048) 4 0)
    let is := fun (z' : Hoist) (t : State) => t.hoist h.val = z' ∧ ∀ k, k ≠ h.val → t.hoist k = s.hoist k
    let ended := fun (st : Status) (t : State) => (t.hoist h.val).run = none ∧ t.sregBits (page + 0x058) 15 8 = st.code ∧
      (t.sreg (page + 0x05C)).toNat = min ((s.sreg (page + 0x05C)).toNat + 1) 0xFFFFFFFF
    (s.pageWriter w = true → s.pithead.boot ≠ .failed →
      (z.pending + v.toNat % 2 ^ 16 ≤ limit → Completes (exec (.hoistDoorbell w h v) s) fun t =>
        is { z with pending := z.pending + v.toNat % 2 ^ 16 } t ∧ { t with hoists := s.hoists } = s.dropLatch w ctrl) ∧
      (limit < z.pending + v.toNat % 2 ^ 16 → Completes (exec (.hoistDoorbell w h v) s) fun t =>
        is z t ∧ Logged (hoistField h.val) 0x1201 (fieldWord (hoistField h.val) h.val) t ∧ MemoryKept s t) ∧
      (bit v.toNat 2 = false →
        let sets := fun o => Completes o fun t =>
          t.sregBits ctrl 1 0 = v.toNat % 4 ∧ SregsBut [ctrl] s t ∧ { t with regs := s.regs } = s.dropLatch w ctrl
        sets (exec (.hoistEnable w h v) s) ∧ sets (exec (.hoistPause w h v) s)) ∧
      (bit v.toNat 2 = true → z.run = none → Completes (exec (.hoistAbort w h v) s) fun t =>
        is { z with pending := 0 } t ∧ { t with hoists := s.hoists, regs := s.regs } = s.dropLatch w ctrl) ∧
      (bit v.toNat 2 = true → z.run = some r → r.recorded = true → r.desc_.signal = true → h.val < 128 →
        r.desc_.record = coreBase x + so → so < 0x20000 → x.foremanBlock = false → (s.hoistEntry h.val x).isSome = true →
        Completes (exec (.hoistAbort w h v) s) fun t =>
          (∃ q a, t.net = s.net ++ [Flight.fresh a q] ∧ q.ptype = .tallySignal ∧ q.dst = s.coreEid x) ∧
          (t.hoist h.val).pending = 0 ∧ ended r.status t ∧ t.sregBits ctrl 1 0 = 0 ∧ MemoryKept s t) ∧
      (s.pithead.job = none → (∀ k, (s.hoist k).run = none) → bit v.toNat 1 = false →
        Completes (exec (.interleaveWrite w v) s) fun t =>
          t.localMode = bit v.toNat 0 ∧ SregsBut [pageStack 0 + 0x044] s t ∧
          { t with regs := s.regs } = s.dropLatch w (pageStack 0 + 0x044)) ∧
      ((∃ k < 208, (s.hoist k).run.isSome = true) → Completes (exec (.interleaveWrite w v) s) fun t =>
        t.localMode = s.localMode ∧ t.sregBit (pageStack 0 + 0x044) 1 = true ∧
        { t with regs := s.regs } = s.dropLatch w (pageStack 0 + 0x044))) ∧
    (p.ptype = .tallySignal → eidLocal p.dst = 0xFFE00 + n.val → s.atStack p n.val = true → p.arg % 64 < 4 →
      h.val = 4 * n.val + p.arg % 64 → z.pending + p.data % 2 ^ 16 ≤ limit → Completes (exec (.doorbellRtsig p) s) fun t =>
        is { z with pending := z.pending + p.data % 2 ^ 16 } t ∧ t.net = takeFlight p s.net ∧ t.cores = s.cores ∧
        MemoryKept s t) ∧
    (s.hoistOn h.val = true → s.sregBit ctrl 0 = true → s.hoistPaused h.val = false → z.run = none → 0 < z.pending →
      s.ringEntry h.val z.head = (l, .ok, s) → l.headD 0 % 256 < 3 → (hoistPort h.val).isNone = true →
      descCheck false false (Desc.of l) (Ext.of []) = .ok → Completes (exec (.descriptorStart h) s) fun t =>
        is { z with
          pending := z.pending - 1, head := (z.head + 1) % 2 ^ s.sregBits (page + 0x048) 4 0
          run := some ⟨l.map (BitVec.ofNat 8), [], z.head, false, false, .ok, .ok, 0, none, 0⟩ } t ∧
        { t with hoists := s.hoists } = s) ∧
    (z.run = some r → s.hoistOn h.val = true →
      (r.moved = true → r.recorded = false → r.desc_.interrupt = false → r.desc_.record = coreBase x + so → so % 32 = 0 →
        x.foremanBlock = false → s.siteStatus x = .ok → (s.core x).plainAt so 32 = true →
        let recorded := fun t : State =>
          (t.core x).byte so = BitVec.ofNat 8 r.status.code ∧ (t.core x).byte (so + 1) = BitVec.ofNat 8 r.cause.code ∧
          (t.core x).le (so + 4) 4 = r.seq % 2 ^ 32 ∧ (t.core x).le (so + 8) 8 = r.bytesDone % 2 ^ 64 ∧
          (t.core x).le (so + 16) 8 = r.firstFail.getD (2 ^ 64 - 1) % 2 ^ 64 ∧ SramBut x so 32 s t ∧
          (∀ y : Site, y.key ≠ x.key → t.core y = s.core y)
        (r.desc_.signal = true → Completes (exec (.hoistCompletion h) s) fun t =>
          recorded t ∧ is { z with run := some { r with recorded := true } } t) ∧
        (r.desc_.signal = false → (r.status ≠ .ok → r.desc_.stop = false) →
          Completes (exec (.hoistCompletion h) s) fun t => recorded t ∧ ended r.status t)) ∧
      (r.recorded = true → h.val < 128 → r.desc_.record = coreBase x + so → so < 0x20000 → x.foremanBlock = false →
        (s.hoistEntry h.val x).isSome = true → (r.status ≠ .ok → r.desc_.stop = false) →
        Completes (exec (.hoistSignal h) s) fun t =>
          (∃ q a, t.net = s.net ++ [Flight.fresh a q] ∧ q.ptype = .tallySignal ∧ q.dst = s.coreEid x ∧
            q.arg = r.desc_.cmpl / 2 ^ 48 % 64 ∧ q.data = 1 ∧ q.tx = x.x.val ∧ q.ty = x.y.val) ∧
          ended r.status t ∧ MemoryKept s t)) ∧
    (s.stackState n.val = 2 →
      (s.flash.stopped = false → s.sregBit (pageStack n.val + 0x050) 31 = true →
        let k := s.patrol.get (fun _ => 0) n.val
        s.burst (s.burstAddr n.val k) = .clean → Completes (exec (.patrolScrub n) s) fun t =>
          t.patrol.get (fun _ => 0) n.val = (k + 1) % (32 * 24 * 2 ^ 20) ∧
          (∀ m, m ≠ n.val → t.patrol.get (fun _ => 0) m = s.patrol.get (fun _ => 0) m) ∧
          { t with patrol := s.patrol } = s) ∧
      (s.pithead.job = none → Completes (exec (.stackOffline n why) s) fun t =>
        t.stackState n.val = 3 ∧ (∀ m, m ≠ n.val → t.stackState m = s.stackState m) ∧
        Logged ((stackEntries n.val).getD 0 ⟨0, 0⟩).field 0x0B03
          (fieldWord ((stackEntries n.val).getD 0 ⟨0, 0⟩).field n.val) t ∧ MemoryKept s t))

/-- R301, R302, R306, R309: what the four operations of a hoist put at their destination, from the SRAM of one core to that of
another: a copy its source's bytes, a fill the pattern, a turn of bytes the transposed rows, a pack the block that R92
packs; the descriptor has then moved with status OK. -/
def Obligations.HoistTransfers : Prop :=
  ∀ (h : Fin 208) (x y : Site) (so dO n : Nat) (r : HoistRun) (bad : List (Nat × Nat)) (s : State),
    let d := r.desc_
    let moved := fun (size : Nat) (t : State) =>
      (∃ r', (t.hoist h.val).run = some r' ∧ r'.moved = true ∧ r'.status = .ok ∧ r'.cause = .ok ∧ r'.desc = r.desc) ∧
      SramBut y dO size s t ∧ ∀ q : Site, q.key ≠ y.key → (t.core q).sram = (s.core q).sram
    (s.hoist h.val).run = some r → r.moved = false → s.hoistOn h.val = true → s.hoistPaused h.val = false →
    s.rimLost = false → (hoistPort h.val).isNone = true → x.key ≠ y.key → x.foremanBlock = false → y.foremanBlock = false →
    s.siteStatus x = .ok → s.siteStatus y = .ok → d.dst = coreBase y + dO → d.len2 = 1 →
    (d.op = 0 → d.src = coreBase x + so → d.len1 = 1 → d.len0 = n → 0 < n → (s.core x).plainAt so n = true →
      (s.core y).plainAt dO n = true → Completes (exec (.copy h bad) s) fun t =>
        (∀ j < n, (t.core y).byte (dO + j) = (s.core x).byte (so + j)) ∧ moved n t) ∧
    (d.op = 1 → d.len1 = 1 → d.len0 = n → 0 < n → (s.core y).plainAt dO n = true → Completes (exec (.fill h) s) fun t =>
      (∀ j < n, (t.core y).byte (dO + j) = BitVec.ofNat 8 (d.src / 256 ^ (j % 4))) ∧ moved n t) ∧
    (∀ ss ds : Nat, d.op = 2 → d.elem = 3 → d.src = coreBase x + so → 0 < d.len0 → 0 < d.len1 → d.ss1 = ss → d.ds1 = ds →
      d.len0 ≤ ss → d.len1 ≤ ds → (s.core x).plainAt so (d.len1 * ss) = true → (s.core y).plainAt dO (d.len0 * ds) = true →
      Completes (exec (.turn h bad) s) fun t =>
        (∀ j < d.len0, ∀ i < d.len1, (t.core y).byte (dO + j * ds + i) = (s.core x).byte (so + i * ss + j)) ∧
        moved (d.len0 * ds) t) ∧
    (let e := r.ext_
     let k := e.k
     let xs := (List.range 16).map fun i =>
       if i < k then PackIn.ofFVal (fp32.decode ((s.core x).le (so + 4 * i) 4)) (fp32.decode e.scale) else PackIn.zero
     let b := packBlock .q4b false false 0 (if e.ratio = 0 then 4 else e.ratio) 1 xs (rngSeed (BitVec.ofNat 64 e.seed))
     d.op = 3 → d.elem = 2 → d.src = coreBase x + so → d.len1 = 1 → d.len0 = 4 * k → 0 < k → k ≤ 16 →
     e.format = 0x20 → e.sparse = 0 → e.flags = 0 → e.runs = 1 → e.header.valid = true →
     e.offs.getD 0 0 + 8 ≤ e.offs.getD 1 0 → (s.core x).plainAt so (4 * k) = true →
     (s.core y).plainAt dO (e.offs.getD 1 0 + 1) = true → Completes (exec (.pack h bad) s) fun t =>
       (∀ j < 8, (t.core y).byte (dO + e.offs.getD 0 0 + j) = BitVec.ofNat 8 ((packBits .q4b b.codes).1 / 256 ^ j)) ∧
       (t.core y).byte (dO + e.offs.getD 1 0) = BitVec.ofNat 8 b.scale ∧ moved (e.offs.getD 1 0 + 1) t)

/-! ## Routers, route updates, the debugger and the canary -/

/-- R323 to R326, R330, R337 to R342, R552: a packet at its exit router leaves on its exit port, and otherwise takes one hop, X
first, and a credit with it; without a credit it waits. A VC2 head without a credit on any productive port escapes to VC3. Link
errors: a flit that fails its CRC is counted, and ignored, voided, discarded with its packet or poisoned; dead routers and links;
the route update, router by router. -/
def Obligations.Routing : Prop :=
  ∀ (x y : Site) (p : Packet) (q : Flight) (k : Nat) (side : Side) (errs : BitVec 288) (next : List Hole) (s : State),
    let c := s.core x
    let crc := pageRoute x.field + 0x048
    let deaths := pageRoute x.field + 0x04C
    let counted := fun (off n : Nat) (t : State) =>
      (t.core x).reg off = BitVec.ofNat 32 (min ((c.reg off).toNat + n) 0xFFFFFFFF) ∧ (∀ o, o ≠ off → (t.core x).reg o = c.reg o) ∧
      { t.core x with regs := c.regs } = c
    let only := fun (t : State) => CoreAndNet x s { t with links := s.links }
    let towards := (side = .e ∧ x.x.val < p.tx ∧ y.x.val = x.x.val + 1 ∧ y.y = x.y) ∨
      (side = .w ∧ p.tx < x.x.val ∧ y.x.val + 1 = x.x.val ∧ y.y = x.y) ∨
      (side = .n ∧ p.tx = x.x.val ∧ x.y.val < p.ty ∧ y.y.val = x.y.val + 1 ∧ y.x = x.x) ∨
      (side = .s ∧ p.tx = x.x.val ∧ p.ty < x.y.val ∧ y.y.val + 1 = x.y.val ∧ y.x = x.x)
    let open_ := (∀ h, s.ringOf x.x.val x.y.val = some h → h.has p.tx p.ty = false) ∧ p.ring = none
    let dead := fun (z : Site) (t : State) =>
      t.siteCode z = 5 ∧ t.core z = { Core.reset with eidLocal := (s.core z).eidLocal } ∧
      (∃ l h, t.routePending = some l ∧ h ∈ l ∧ h.has z.x.val z.y.val = true) ∧ Logged z.field 0x1101 (siteWord z 0) t ∧
      ∀ r : Site, r.key ≠ z.key → t.core r = s.core r
    (s.net = [q] → q.at_ = x.key → q.pkt = p → q.exited = false → q.trail = [] → s.forwards x = true →
      (x.gallery = true → s.rimLost = true → exec (.headRoute x p) s = .fault .galleryRailLost) ∧
      ((x.gallery && s.rimLost) = false → open_ →
        (p.tx = x.x.val → p.ty = x.y.val → (p.port = .local_ → s.siteCode x ≠ 4) → s.unserved p = none →
          (∀ n, p.ptype ≠ .reserved n) → Completes (exec (.headRoute x p) s) fun t =>
            t.net = [Flight.landed x.key p] ∧ t.core x = c ∧ only t) ∧
        (towards → p.vc ≠ 2 → s.holeAt x.x.val x.y.val (y.x.val, y.y.val) = none → s.siteCode y ≠ 5 →
          (s.room x side p.vc false = 0 → exec (.headRoute x p) s = .next s) ∧
          (0 < s.room x side p.vc false → s.slotTakes x (Side.portNo side) = false → interiorHole x.field ∉ s.holes →
            Completes (exec (.headRoute x p) s) fun t =>
              (∃ r, t.net = [r] ∧ r.at_ = y.key ∧ r.exited = false ∧ r.pkt = p) ∧
              (q.here = 1 → t.net = [⟨y.key, false, p, Side.portNo (opposite side), p.vc, false, 1, none, []⟩] ∧
                t.room x side p.vc false = s.room x side p.vc false - 1 ∧
                counted (match p.vc with | 0 => 0x234 | 1 => 0x238 | 2 => 0x23C | _ => 0x240) 1 t ∧ only t)))) ∧
      (p.vc = 2 → s.hop q x = .waits → Completes (exec (.vc2Escape x p) s) fun t =>
        t.net = [{ q with pkt := { p with vc := 3, escape := true } }] ∧ counted 0x244 1 t ∧
        CoreOnly x s { t with net := s.net })) ∧
    (s.forwards x = true →
      let counts := fun (t : State) => t.sreg crc = BitVec.ofNat 32 (min ((s.sreg crc).toNat + 1) 0xFFFFFFFF) ∧
        SregsBut [crc] s t ∧ counted 0x24C 1 t ∧ (∀ r : Site, r.key ≠ x.key → t.core r = s.core r)
      let fails := fun flit => s.flitFails x side flit errs = true
      (∀ flit, s.flitFails x side flit errs = false → exec (.linkCrcError x side flit errs) s = .next s) ∧
      (fails .idle → Completes (exec (.linkCrcError x side .idle errs) s) fun t =>
        counts t ∧ { t with cores := s.cores, regs := s.regs } = s) ∧
      (fails (.payload p k) → s.net = [q] → q.at_ = x.key → q.inp = Side.portNo side → q.exited = false → q.pkt = p →
        Completes (exec (.linkCrcError x side (.payload p k) errs) s) fun t =>
          t.net = [{ q with pkt := { p with poisoned := true } }] ∧ counts t ∧
          { t with cores := s.cores, regs := s.regs, net := s.net } = s) ∧
      (fails (.head p) → s.net = [q] → q.at_ = x.key → q.inp = Side.portNo side → q.exited = false → q.pkt = p →
        Completes (exec (.linkCrcError x side (.head p) errs) s) fun t =>
          t.net = [] ∧ Logged x.field 0x0C02 (siteWord x (Side.portNo side)) t ∧ MemoryKept s t) ∧
      (fails .scheduled → s.pithead.job = none → Completes (exec (.linkCrcError x side .scheduled errs) s) fun t =>
        (t.core x).inputs.get (fun _ => none) (Side.portNo side) = some Flit.mkVoid ∧
        Logged x.field 0x0C01 (siteWord x (Side.portNo side)) t ∧ MemoryKept s t)) ∧
    (s.net = [] → s.pithead.job = none →
      (s.siteCode x < 5 → x.foremanBlock = false → Completes (exec (.routerDeath x) s) fun t => dead x t) ∧
      (s.routerOn x = true → s.siteCode y < 5 → y.foremanBlock = false →
        neighbour x.x.val x.y.val side = some (y.x.val, y.y.val) → Completes (exec (.linkDead x side) s) fun t =>
          dead y t ∧ t.sreg deaths = BitVec.ofNat 32 (min ((s.sreg deaths).toNat + 1) 0xFFFFFFFF))) ∧
    (s.routePending = some next →
      (Completes (exec (.routeMapUpdate (some x)) s) fun t =>
        t.mapAt x.x.val x.y.val = { s with holes := next, routePending := none }.mapAt x.x.val x.y.val ∧
        (∀ z : Site, z.key ≠ x.key → t.mapAt z.x.val z.y.val = s.mapAt z.x.val z.y.val) ∧
        { t with rewritten := s.rewritten } = s) ∧
      (s.net = [] → s.newlyFenced next = [] → (∀ h ∈ next, h.cuts = true → h ∈ s.holes) →
        Completes (exec (.routeMapUpdate none) s) fun t => t = { s with holes := next, routePending := none, rewritten := [] }))

/-- R374 to R378, R380: the tally debugger captures the tally that SEL names, and commits what its registers hold where
nothing waits (that COMMIT clears surplus and saturated only where their W1C bits were written since the capture is the model's
reading, log 84, DEDUCED); a field's canary, the pithead's poll of the canaries, and the watchdog.
That CANARY_WINDOW may count a stillness that began before it is the model's reading (log 85, DEDUCED). -/
def Obligations.DebuggerAndCanary : Prop :=
  ∀ (w : Requester) (x : Site) (f : FieldNo) (v : Word) (n k limit : Nat) (j : Job) (s : State),
    let page := pageTallydbg f.val
    let ty := (s.core x).tally n
    let ctrl := s.sreg (page + 0x050)
    let clr := (s.field f.val).tallyClr
    let named := fun sel : Nat => bit sel 30 = false ∧ bits sel 28 19 = x.x.val ∧ bits sel 18 10 = x.y.val ∧ bits sel 5 0 = n
    let steady := fun g => (s.field g).frozen = false ∧
      let held := s.sregBits (pageCanary g + 0x048) 31 30
      (held = 0 ∨ s.stillness g = held) ∧ (held = 2 → (s.field g).clk < (s.field g).quietFrom + 20)
    let endsFaulted := fun (code : Nat) (t : State) => ∃ j', t.pithead.job = some j' ∧ j'.ended = some (.faulted code) ∧ j'.id = j.id
    let page? := s.pageWriter w = true ∧ s.pithead.boot ≠ .failed ∧ (s.field f.val).vcoreOn = true
    let fl := s.field f.val
    let wait := ceilDiv (s.canaryDue f.val - fl.clk) fl.rate
    (page? → x.field = f.val → s.coreOn x = true → named v.toNat →
      Completes (exec (.tallyCapture w f v) s) fun t =>
        t.sreg (page + 0x044) = BitVec.ofNat 32 ty.value ∧ t.sreg (page + 0x048) = BitVec.ofNat 32 ty.target ∧
        t.sregBits (page + 0x04C) 31 16 = ty.round % 2 ^ 16 ∧ t.sregBits (page + 0x04C) 3 0 = ty.early % 16 ∧
        t.sregBit (page + 0x050) 31 = ty.barrier ∧ t.sreg (page + 0x054) = BitVec.ofNat 32 ty.parentEid ∧
        t.cores = s.cores ∧ FieldOnly f.val (s.dropLatch w page) t ∧ (∀ off, off < page ∨ page + 0x1000 ≤ off → t.sreg off = s.sreg off)) ∧
    (page? → x.field = f.val → s.coreOn x = true → bit v.toNat 0 = true →
      named (s.sreg (page + 0x040)).toNat →
      (ty.waiters = [] → ty.regs = [] → ty.forwarded = false → (bit ctrl.toNat 31 = true → ty.value < max ty.target 1) →
        Completes (exec (.tallyCommit w f v) s) fun t =>
          TallyIs x n { ty with
            barrier := bit ctrl.toNat 31, parentEn := bit ctrl.toNat 30, parentTally := bits ctrl.toNat 25 20
            round := s.sregBits (page + 0x04C) 31 16, parentEid := (s.sreg (page + 0x054)).toNat
            surplus := ty.surplus && !bit clr 28, saturated := ty.saturated && !bit clr 27 } s t ∧
          { t.core x with tallies := (s.core x).tallies } = s.core x ∧ t.sregBits (page + 0x0D0) 15 8 = 0 ∧
          SregsBut [page + 0x0D0] s t ∧ (∀ y : Site, y.key ≠ x.key → t.core y = s.core y)) ∧
      (ty.waiters ≠ [] ∨ ty.regs ≠ [] ∨ ty.forwarded = true → Completes (exec (.tallyCommit w f v) s) fun t =>
        t.cores = s.cores ∧ t.sregBits (page + 0x0D0) 15 8 = Status.busy.code ∧ SregsBut [page + 0x0D0] s t)) ∧
    (fl.frozen = false → s.sregBits (pageCanary f.val + 0x048) 31 30 = 0 → s.stillness f.val = k → k ≠ 0 →
      (fl.rate ≠ 0 ∨ s.canaryDue f.val ≤ fl.clk) → s.moving f.val = false → s.waitEnds f.val wait = false →
      Completes (exec (.canaryWindow f) s) fun t =>
        t.sregBits (pageCanary f.val + 0x048) 31 30 = k ∧ SregsBut [pageCanary f.val + 0x048] s t ∧
        (t.field f.val).quietFrom = fl.stillSince + 20 * max 1 (s.sreg (pageCanary f.val + 0x040)).toNat ∧
        t.time = s.time + wait ∧ t.cores = s.cores ∧ MemoryKept s t) ∧
    (s.pithead.job = none → Completes (exec .canaryPoll s) fun t =>
      t = { s with pithead := { s.pithead with canary := [] } }) ∧
    (s.pithead.job = some j → j.ended = none → j.running = true → (∀ g < 48, bit j.fields g = true → steady g) →
      let r := s.canaryReading j
      let stuck := s.pithead.canary = r ∧ (∃ e ∈ r, e.2.2.1 = true) ∧ ∀ e ∈ r, e.2.2.1 = true ∨ e.2.2.2 = true
      (¬stuck → Completes (exec .canaryPoll s) fun t =>
        t.pithead = { s.pithead with canary := r, canaryAt := s.time } ∧ t.regs = s.regs ∧ t.cores = s.cores) ∧
      (stuck → Completes (exec .canaryPoll s) fun t => endsFaulted 0x0D04 t)) ∧
    (s.pithead.job = some j → j.ended = none → j.running = true → (∃ g < 48, bit j.fields g = true) →
      (s.port j.port).cur.map (·.watchdog) = some limit → 0 < limit → s.time ≤ j.startTime + limit →
      readingStuck s.pithead.canary = false →
      Completes (exec .jobWatchdog s) fun t => endsFaulted 0x0D05 t ∧ t.time = j.startTime + limit + 1)

/-! ## Seam links -/

/-- R386 to R389, R392, R400: the keeper enables and disables a link and writes the chip route table, and a write of the other
port is flagged; training ends READY or DOWN; a link that goes DOWN clears its enable and logs SEAM_LINK_DOWN. -/
def Obligations.SeamStates : Prop :=
  ∀ (w : Requester) (n : Fin 96) (v : Word) (wire : WireFrame) (k : Nat) (s : State),
    let fr := SeamFrame.ofBytes wire.bytes
    let good := framePasses wire.bytes
    let l := s.seam n.val
    let page := pageSeam n.val
    let ctrl := seamCtrl n.val
    let is := fun (l' : Seam) (t : State) => t.seam n.val = l' ∧ ∀ j, j ≠ n.val → t.seam j = s.seam j
    let down := fun (cause : Nat) o => Completes o fun t =>
      (t.seam n.val).state = .down ∧ (t.seam n.val).cause = cause ∧ t.sregBit ctrl 0 = false ∧
      Logged (seamField n.val) 0x0E01 (fieldWord (seamField n.val) n.val) t ∧ t.cores = s.cores
    let idx := s.sregBits (pageSeam 0 + 0x084) 11 0
    (s.awake w = true → s.pithead.boot ≠ .failed → w.port? = some k → s.isKeeper w = true →
      (bit v.toNat 0 = true → s.seamEnable n.val = false → (l.state = .off ∨ l.state = .down) →
        Completes (exec (.linkEnable w n v) s) fun t =>
          (t.seam n.val).state = .training ∧ (t.seam n.val).peerSeen = false ∧ (t.seam n.val).unacked = [] ∧
          (t.seam n.val).arrived = l.arrived ∧ (∀ j, j ≠ n.val → t.seam j = s.seam j) ∧
          t.sregBit ctrl 0 = true ∧ t.sregBit ctrl 1 = bit v.toNat 1 ∧ t.sregBits ctrl 13 8 = bits v.toNat 13 8 ∧
          SregsBut [ctrl] s t ∧ { t with seams := s.seams, regs := s.regs } = s.dropLatch w ctrl) ∧
      (bit v.toNat 0 = false → (l.state = .training ∨ l.state = .ready) → Completes (exec (.linkDisable w n v) s) fun t =>
        is { l with state := .off, out := none } t ∧ t.sregBit ctrl 0 = false ∧ SregsBut [ctrl] s t ∧
        { t with seams := s.seams, regs := s.regs } = s.dropLatch w ctrl) ∧
      (bit v.toNat 0 = false → l.state = .up → l.egress = [] → Completes (exec (.linkDisable w n v) s) fun t =>
        (t.seam n.val).state = .off ∧ (t.seam n.val).unacked = [] ∧ t.sregBit ctrl 0 = false ∧
        (∃ f : SeamFrame, (t.seam n.val).out = some f.bytes ∧ f.kind = 4 ∧ f.enabled = false ∧ f.flits = []) ∧ t.cores = s.cores) ∧
      (Completes (exec (.crtDataWrite w v) s) fun t =>
        t.crt.get (fun _ => 0) idx = v &&& 0x9F9F9F9F#32 ∧ (∀ j, j ≠ idx → t.crt.get (fun _ => 0) j = s.crt.get (fun _ => 0) j) ∧
        { t with crt := s.crt } = s.dropLatch w (pageSeam 0 + 0x088))) ∧
    (s.awake w = true → s.pithead.boot ≠ .failed → s.isKeeper w = false → w.port? = some k →
      let flagged := fun off o => Completes o fun t =>
        t.sregBit (pageHostport k + 0x044) 0 = true ∧ t.sregBit (pageSeam 0 + 0x080) 31 = true ∧
        SregsBut [pageHostport k + 0x044, pageSeam 0 + 0x080] s t ∧ { t with regs := s.regs } = s.dropLatch w off
      flagged ctrl (exec (.linkEnable w n v) s) ∧ flagged ctrl (exec (.linkDisable w n v) s) ∧
      flagged (pageSeam 0 + 0x088) (exec (.crtDataWrite w v) s)) ∧
    (s.pithead.job = none →
      (l.state = .training → l.peerSeen = true → s.sregBits (page + 0x048) 31 20 = s.chip →
        down 4 (exec (.trainingDone n) s)) ∧
      (l.state = .training → down 5 (exec (.trainingTimeout n) s)) ∧
      (l.state = .up → l.egress = [] → down 2 (exec (.signalLoss n) s) ∧
        (good = true → fr.kind = 4 → down 1 (exec (.goingDownFrame n wire) s)) ∧
        (l.unacked ≠ [] → 7 ≤ l.resends → down 3 (exec (.replayTimeout n) s)))) ∧
    (l.state = .training → l.peerSeen = true → s.sregBits (page + 0x048) 31 20 ≠ s.chip →
      Completes (exec (.trainingDone n) s) fun t => is { l with state := .ready } t ∧ { t with seams := s.seams } = s) ∧
    (good = true → l.state ≠ .off → l.state ≠ .down →
      (fr.kind = 3 → Completes (exec (.identityFrame n wire) s) fun t =>
        is { l with peerSeen := true, idEnabled := fr.enabled, peerEnabled := fr.enabled } t ∧
        t.sregBits (page + 0x048) 31 20 = fr.chip % 2 ^ 12 ∧ t.sregBit (page + 0x048) 19 = true ∧
        t.sregBits (page + 0x048) 6 0 = fr.link % 2 ^ 7 ∧ t.cores = s.cores) ∧
      (fr.kind = 2 → l.state = .ready → Completes (exec (.idleFrame n wire) s) fun t =>
        ((t.seam n.val).state = .up ↔ fr.enabled = true ∧ l.idEnabled = true ∧ s.seamEnable n.val = true) ∧
        (t.seam n.val).peerEnabled = fr.enabled ∧ (∀ j, j ≠ n.val → t.seam j = s.seam j) ∧ t.cores = s.cores))

/-- R385, R386, R393 to R395: frames that are sent, resent, accepted in order and refused; a packet enters a link that its
chip's candidates name, and one that arrives for this chip goes on at the router that the foreman knows. That a frame out of order
asks for a resend only where it is 64 or more behind is the model's reading (log 87, DEDUCED). While a rail of the rim is out of
tolerance the spec gives such traffic no effect (R552), and the command stops.
Which commands stop is the model's reading (log 154, DEDUCED). -/
def Obligations.SeamTraffic : Prop :=
  ∀ (n m : Fin 96) (p : Packet) (wire : WireFrame) (r : SeamFrame) (f : SeamFlit) (rest : List SeamFrame) (h at_ : Nat) (x y : Site)
    (t0 : Nat) (s : State),
    let fr := SeamFrame.ofBytes wire.bytes
    let good := framePasses wire.bytes
    let l := s.seam n.val
    let page := pageSeam n.val
    let door := s.seamDoor n.val p
    let is := fun (l' : Seam) (t : State) => t.seam n.val = l' ∧ ∀ j, j ≠ n.val → t.seam j = s.seam j
    let sends := fun (P : SeamFrame → State → Prop) => Completes (exec (.frameSend n) s) fun t =>
      (∃ q : SeamFrame, (t.seam n.val).out = some q.bytes ∧ q.ack = l.rxSeq ∧ q.enabled = s.seamEnable n.val ∧ P q t) ∧
      (∀ j, j ≠ n.val → t.seam j = s.seam j) ∧ t.cores = s.cores
    let countedOne := fun (off : Nat) (t : State) => t.sreg off = BitVec.ofNat 32 (min ((s.sreg off).toNat + 1) 0xFFFFFFFF)
    let delivers := fun (t : State) =>
      t.net = s.net ++ [Flight.fresh door.key { p with ring := none, tx := y.x.val, ty := y.y.val, port := .local_ }] ∧
      t.cores = s.cores
    (l.state = .training → sends fun q _ => q.kind = 3 ∧ q.flits = [] ∧ q.chip = s.chip ∧ q.link = n.val) ∧
    (l.state = .ready → sends fun q _ => q.kind = 2 ∧ q.flits = []) ∧
    (s.rimLost = true → l.state = .up → exec (.frameSend n) s = .fault .galleryRailLost ∧
      exec (.dataFrame n wire) s = .fault .galleryRailLost ∧
      (l.nextIn p = true → exec (.seamIngress n p) s = .fault .galleryRailLost)) ∧
    (s.rimLost = false → l.state = .up →
      (l.resend = r :: rest → sends fun q t => q.kind = 1 ∧ q.seq = r.seq ∧ q.flits = r.flits ∧ (t.seam n.val).resend = rest) ∧
      (l.resend = [] → l.egress = [] → sends fun q t => q.kind = 2 ∧ q.flits = [] ∧ (t.seam n.val).unacked = l.unacked) ∧
      (l.resend = [] → l.unacked.length < 64 → l.egress = [(at_, p, 0)] → p.payload = [] → p.vc < 4 → 0 < l.credit p.vc →
        sends fun q t => q.kind = 1 ∧ q.seq = l.txSeq ∧ q.flits = [Packet.seamFlit p 0] ∧ (t.seam n.val).egress = [] ∧
          (t.seam n.val).unacked = l.unacked ++ [q] ∧ (t.seam n.val).txSeq = (l.txSeq + 1) % 256 ∧ countedOne (page + 0x050) t) ∧
      (l.unacked ≠ [] → l.resends < 7 → l.replayAt = some t0 → s.time < t0 + 1000000 →
        Completes (exec (.replayTimeout n) s) fun t =>
          is { l with resend := l.unacked, resends := l.resends + 1 } t ∧ countedOne (page + 0x058) t ∧
          SregsBut [page + 0x058] s t ∧ { t with seams := s.seams, regs := s.regs } = s) ∧
      (good = true → fr.kind = 1 → fr.nak = false →
        (fr.seq % 256 = (l.rxSeq + 1) % 256 → fr.flits = [f] → f.head = some h → f.tail = true →
          Completes (exec (.dataFrame n wire) s) fun t =>
            (t.seam n.val).rxSeq = fr.seq % 256 ∧ (t.seam n.val).nakOut = false ∧ countedOne (page + 0x054) t ∧
            (t.seam n.val).arrived = l.arrived ++ [{ Packet.ofHead h f.vc with poisoned := f.poisoned }] ∧
            (∀ j, j ≠ n.val → t.seam j = s.seam j) ∧ t.cores = s.cores) ∧
        (fr.seq % 256 ≠ (l.rxSeq + 1) % 256 → Completes (exec (.dataFrame n wire) s) fun t =>
          is { l with nakOut := l.nakOut || decide (64 ≤ (l.rxSeq + 256 - fr.seq % 256) % 256) } t ∧ t.cores = s.cores)) ∧
      (good = false →
        let naks := fun o => Completes o fun t =>
          is { l with nakOut := true } t ∧ countedOne (page + 0x05C) t ∧ t.cores = s.cores
        naks (exec (.dataFrame n wire) s) ∧ naks (exec (.idleFrame n wire) s) ∧ naks (exec (.identityFrame n wire) s) ∧
        naks (exec (.goingDownFrame n wire) s))) ∧
    (s.rimLost = false → s.net = [Flight.landed x.key p] → x ∈ seamEntries n.val → eidChip p.dst ≠ s.chip → p.vc ≠ 2 →
      s.seamCandidate n.val (eidChip p.dst) = true → Completes (exec (.seamEgress n p) s) fun t =>
        t.net = [] ∧ is { l with egress := l.egress ++ [(x.key, p, 0)] } t ∧ t.cores = s.cores) ∧
    (s.rimLost = false → eidChip p.dst = s.chip → eidIsCore p.dst = true → l.old.get (fun _ => 0) p.vc = 0 →
      (l.nextIn p = true → l.cached (eidLocal p.dst) = some y → Completes (exec (.seamIngress n p) s) fun t =>
        delivers t ∧ (t.seam n.val).arrived = l.arrived.erase p ∧
        (t.seam n.val).freed.get (fun _ => 0) p.vc = (l.freed.get (fun _ => 0) p.vc + 1 + Packet.flits p) % 256 ∧
        (∀ j, j ≠ n.val → t.seam j = s.seam j)) ∧
      (l.nextIn p = true → l.cached (eidLocal p.dst) = none → Completes (exec (.seamIngress n p) s) fun t =>
        is { l with arrived := l.arrived.erase p, waiting := l.waiting ++ [p] } t ∧ { t with seams := s.seams } = s) ∧
      (p ∈ l.waiting → (s.field (seamField n.val)).foremanUp = true → s.siteOf (eidLocal p.dst) = some y →
        l.cache.length < 1024 → Completes (exec (.translationFill n p) s) fun t =>
          delivers t ∧ (t.seam n.val).waiting = l.waiting.erase p ∧ (t.seam n.val).cached (eidLocal p.dst) = some y ∧
          (∀ j, j ≠ n.val → t.seam j = s.seam j))) ∧
    (s.rimLost = false → eidChip p.dst ≠ s.chip → p.vc ≠ 2 → l.nextIn p = true → s.upGroups (eidChip p.dst) ≠ [] →
      s.chipLink (eidChip p.dst) p.src = some m.val → Completes (exec (.seamIngress n p) s) fun t =>
        let e := s.seamEntry m.val ((door.x.val + door.y.val) % 4)
        t.net = s.net ++ [Flight.fresh door.key { p with ring := none, tx := e.x.val, ty := e.y.val, port := .side (seamSide m.val) }] ∧
        (t.seam n.val).arrived = l.arrived.erase p ∧ (∀ j, j ≠ n.val → t.seam j = s.seam j) ∧ t.cores = s.cores) ∧
    (Completes (exec (.occupancyPublish n) s) fun t =>
      (∃ k < 16, is { l with occupancy := k } t ∧ (l.unacked = [] → l.egress = [] → k = 0)) ∧
      { t with seams := s.seams, freeCtr := s.freeCtr } = s)

/-- R384: a frame has 536 bytes and passes its CRC-32; what it says is read back from its bytes. -/
def Obligations.SeamFrameBytes : Prop :=
  ∀ fr : SeamFrame, fr.bytes.length = 536 ∧ framePasses fr.bytes = true ∧
    (fr.kind < 256 → fr.seq < 256 → fr.ack < 256 → fr.credits.length = 4 → (∀ c ∈ fr.credits, c < 256) → fr.flits.length ≤ 16 →
      (∀ f ∈ fr.flits, f.vc < 4 ∧ (f.head = none → f.data.length = 32) ∧ ∀ w ∈ f.head, w < 2 ^ 256 ∧ f.data = []) →
      (if fr.kind = 3 then fr.flits = [] ∧ fr.chip < 2 ^ 12 ∧ fr.link < 256 else fr.chip = 0 ∧ fr.link = 0) →
      SeamFrame.ofBytes fr.bytes = fr)

/-! ## Host ports -/

/-- R401, R404 to R406, R409 to R412, R419, R423, R552: BAR2 reads and writes engine space, while the rails of the rim are in tolerance; the keeper's timer, takeover and
handover; a slate is armed as its bytes say or refused; cancels end it ABORTED; a port's reset and its link. That a takeover by the keeper itself and a handover by another are refused is
the model's choice (log 97, DEDUCED).
Which accesses a rail of the rim stops is the model's reading (log 154, DEDUCED). -/
def Obligations.HostPorts : Prop :=
  ∀ (p : Port2) (x : Site) (off so : Nat) (data : List Byte) (v : Word) (sl : Slate) (j : Job) (s : State),
    let c := s.core x
    let n := data.length
    let hp := s.port p.val
    let page := pageHostport p.val
    let job := pageJob p.val
    let kp := s.pithead.keeperB.toNat
    let ms := s.sregBits (pageHostport kp + 0x060) 15 0
    let hf := fun k : Nat => ((hostEntries k).getD 0 ⟨0, 0⟩).field
    let w := hostOf p.val
    let kept := s.dropLatch w page
    let keptJob := s.dropLatch w job
    let cut := s.apertureCut p.val (coreBase x + so)
    let aimed := s.apertureOpen p.val off n = true ∧ s.sregBits (page + 0x048) 17 0 * 2 ^ 30 + off = coreBase x + so ∧
      so + n ≤ 0x20000 ∧ x.foremanBlock = false
    let swapped := fun o => Completes o fun t =>
      t.pithead = { s.pithead with keeperB := !s.pithead.keeperB, lapsed := false, heartbeat := s.time } ∧
      (∀ k < 2, (t.port k).msix = ((s.port k).raised 32).msix) ∧
      Logged (hf (1 - kp)) 0x0F02 (fieldWord (hf (1 - kp)) (1 - kp)) t ∧ t.cores = s.cores
    let refused := fun o => Completes o fun t =>
      t.sregBit (page + 0x044) 0 = true ∧ SregsBut [page + 0x044] s t ∧ { t with regs := s.regs } = kept
    let word := fun i : Nat => (s.sreg (job + 0x040 + 4 * i)).toNat
    let image := word 0 + 2 ^ 32 * word 1
    let cmpl := word 2 + 2 ^ 32 * word 3
    let id := if s.pithead.jobCtr = 0xFFFF then 1 else s.pithead.jobCtr + 1
    let armable := bit v.toNat 31 = true ∧ image < 2 ^ 48 ∧ word 6 % 256 ≤ 15 ∧ word 6 / 256 % 256 < 2 ∧ word 7 = 0
    let placed := image < 0xC000000000 ∧ image % 64 = 0 ∧ cmpl % 32 = 0
    let recorded := fun (t : State) => t.sreg (job + 0x080) = BitVec.ofNat 32 (1 + Status.aborted.code * 2 ^ 8 + sl.id % 2 ^ 16 * 2 ^ 16) ∧
      ∀ e, e ∈ t.pithead.runOrder ↔ e ∈ s.pithead.runOrder ∧ e ≠ (p.val, sl.seq)
    (s.rimLost = true → s.apertureOpen p.val off n = true →
      exec (.bar2Read p off n) s = .fault .galleryRailLost ∧ exec (.bar2Write p off data) s = .fault .galleryRailLost) ∧
    (s.rimLost = false → aimed →
      (c.plainAt so n = true → s.siteStatus x = .ok → cut = false →
        (Completes (exec (.bar2Read p off n) s) fun t =>
          t.reply = ⟨.ok, (List.range n).map fun i => c.byte (so + i), .served⟩ ∧ { t with reply := s.reply } = s) ∧
        (Completes (exec (.bar2Write p off data) s) fun t =>
          (∀ i < n, (t.core x).byte (so + i) = data.getD i 0) ∧ SramBut x so n s t ∧ (t.core x).threads = c.threads ∧
          CoreOnly x s t)) ∧
      (s.siteStatus x = .targetSealed ∨ cut = true → Completes (exec (.bar2Read p off n) s) fun t =>
        t.reply = ⟨.ok, List.replicate n 0xFF, .served⟩ ∧ t.sregBit (page + 0x054) 31 = true ∧ t.cores = s.cores ∧
        Logged (hf p.val) 0x0F03 (fieldWord (hf p.val) p.val) t)) ∧
    (s.served = true → s.pithead.lapsed = false → ms ≠ 0 → s.time ≤ s.pithead.heartbeat + ms * 1000000 →
      Completes (exec .keeperLapsed s) fun t =>
        t.pithead = { s.pithead with lapsed := true } ∧ t.time = s.pithead.heartbeat + ms * 1000000 ∧
        (t.port (1 - kp)).msix = ((s.port (1 - kp)).raised 32).msix ∧ Logged (hf kp) 0x0F01 (fieldWord (hf kp) kp) t ∧
        t.cores = s.cores) ∧
    (s.pageWriter w = true → s.pithead.boot ≠ .failed →
      (Completes (exec (.keeperHeartbeat p) s) fun t =>
        t = if kp = p.val then { kept with pithead := { s.pithead with heartbeat := s.time, lapsed := false } } else kept) ∧
      (s.pithead.lapsed = true → kp ≠ p.val → swapped (exec (.takeover p) s)) ∧
      ((s.pithead.lapsed = false ∨ kp = p.val) → refused (exec (.takeover p) s)) ∧
      (kp = p.val → s.sregBit (pageHostport (1 - p.val) + 0x040) 8 = true → swapped (exec (.handover p) s)) ∧
      ((kp ≠ p.val ∨ s.sregBit (pageHostport (1 - p.val) + 0x040) 8 = false) → refused (exec (.handover p) s)) ∧
      (armable → s.pithead.jobCtr ≤ 0xFFFF →
        (placed → (hp.cur = none ∨ hp.next = none) → Completes (exec (.jobArm p v) s) fun t =>
          let armed : Slate := ⟨.waiting, image, cmpl, word 4 + 2 ^ 32 * word 5, word 6 % 256, word 6 / 256 % 2 == 1,
            word 6 / 2 ^ 16, id, hp.armSeq⟩
          (t.port p.val).cur = some (hp.cur.getD armed) ∧
          (t.port p.val).next = (if hp.cur = none then hp.next else some armed) ∧ (t.port (1 - p.val)) = s.port (1 - p.val) ∧
          t.pithead = { s.pithead with jobCtr := id, runOrder := s.pithead.runOrder ++ [(p.val, hp.armSeq)] } ∧
          t.sregBits (job + 0x060) 23 16 = 0 ∧ t.sregBits (job + 0x060) 15 0 = id ∧ SregsBut [job + 0x060] s t) ∧
        (¬placed → Completes (exec (.jobArm p v) s) fun t =>
          t.sregBits (job + 0x060) 23 16 = Status.addrRange.code ∧ SregsBut [job + 0x060] s t ∧ { t with regs := s.regs } = keptJob) ∧
        (placed → hp.cur ≠ none → hp.next ≠ none → Completes (exec (.jobArm p v) s) fun t =>
          t.sregBits (job + 0x060) 23 16 = Status.busy.code ∧ SregsBut [job + 0x060] s t ∧ { t with regs := s.regs } = keptJob)) ∧
      (hp.cur = some sl →
        (sl.state = .waiting → Completes (exec (.cancelCurrent p) s) fun t =>
          recorded t ∧ (t.port p.val).cur = hp.next ∧ (t.port p.val).next = none ∧ t.pithead.job = s.pithead.job ∧
          t.cores = s.cores) ∧
        (sl.state = .loading → Completes (exec (.cancelCurrent p) s) fun t =>
          (t.port p.val).cur = hp.next ∧ t.pithead.job = none) ∧
        (sl.state = .running → s.pithead.job = some j → j.port = p.val → j.ended = none →
          Completes (exec (.cancelCurrent p) s) fun t =>
            t.pithead.job = some { j with ended := some (.aborted 0) } ∧
            (t.port p.val).cur = some { sl with state := .draining })) ∧
      (hp.next = some sl → Completes (exec (.cancelNext p) s) fun t =>
        recorded t ∧ (t.port p.val).cur = hp.cur ∧ (t.port p.val).next = none ∧ t.pithead.job = s.pithead.job ∧
        t.cores = s.cores)) ∧
    (s.pithead.inReset = false →
      ((∀ h < 16, (s.hoist (128 + 16 * p.val + h)).run = none) → Completes (exec (.portReset p) s) fun t =>
        t.port p.val = { hp with
          cur := hp.cur.filter fun z => z.state != .waiting, next := hp.next.filter fun z => z.state != .waiting
          msix := [], cfg := PciConfig.reset } ∧
        t.port (1 - p.val) = s.port (1 - p.val) ∧ t.sreg (page + 0x060) = s.sreg (page + 0x060) ∧
        (∀ o < 0x1000, o ≠ 0x060 → t.sreg (page + o) = sregReset (page + o)) ∧ t.pithead.job = s.pithead.job ∧ t.cores = s.cores) ∧
      (s.sregBit (page + 0x040) 8 = false → Completes (exec (.hostLinkUp p) s) fun t =>
        t.sregBit (page + 0x040) 8 = true ∧ t.sregBits (page + 0x040) 7 3 ∈ [1, 2, 4, 8, 16] ∧
        t.sregBits (page + 0x040) 2 0 ∈ [1, 2, 3, 4, 5] ∧ SregsBut [page + 0x040] s t ∧
        { t with regs := s.regs, freeCtr := s.freeCtr } = s))

/-- R413, R414, R417, R418, R420, R421, R482: the first slate of the run order enters LOADING; a loaded image starts its job, and
a refused one ends REJECTED; the job ends with the exit code it signals, and once its fields are drained its record is
in JOB.LAST and the port's next slate is its current one. -/
def Obligations.Jobs : Prop :=
  ∀ (p : Port2) (sl : Slate) (j : Job) (e : JobEnd) (st : Status) (rest : List (Nat × Nat)) (k : Packet) (u s : State),
    let record := fun (e : JobEnd) (q : Nat) (t : State) =>
      t.sreg (pageJob q + 0x080) = BitVec.ofNat 32 (e.code + e.status.code * 2 ^ 8 + sl.id % 2 ^ 16 * 2 ^ 16) ∧
      t.sreg (pageJob q + 0x084) = BitVec.ofNat 32 e.exit
    (s.pithead.boot = .ready → s.flash.stopped = false → s.pithead.job = none → s.pithead.runOrder = (p.val, sl.seq) :: rest →
      (s.port p.val).cur = some sl → sl.state = .waiting → Completes (exec .jobLoading s) fun t =>
        (∃ j', t.pithead.job = some j' ∧ j'.port = p.val ∧ j'.id = sl.id ∧ j'.running = false ∧ j'.ended = none) ∧
        (t.port p.val).cur = some { sl with state := .loading } ∧
        (∀ h < 16, (t.hoist (128 + 16 * p.val + h)).job =
          if bit sl.hoistBind h then sl.id else (s.hoist (128 + 16 * p.val + h)).job)) ∧
    (s.loadingSlate = some (j, sl) → u.loadingSlate.isSome = true →
      (s.loadEnd j sl = some (.ok, u) → Completes (exec .jobRunning s) fun t =>
        (∃ j', t.pithead.job = some j' ∧ j'.running = true ∧ j'.startTime = u.time ∧ j'.ended = none) ∧
        (t.port j.port).cur = (u.port j.port).cur.map (fun z => { z with state := .running }) ∧ t.cores = u.cores) ∧
      (s.loadEnd j sl = some (st, u) → st ≠ .ok → Completes (exec .slateRejected s) fun t =>
        t.pithead.job = none ∧ record (.rejected st) j.port t ∧ (t.port j.port).cur = (u.port j.port).next ∧
        ∀ f < 48, bit j.fields f = true → (t.field f).sched = .idle)) ∧
    (s.pithead.job = some j → j.ended = some e → j.hoistsEnded = true → j.thenPark = none →
      (∀ f < 48, bit j.fields f = true → (s.field f).drain = none) → (∀ f < 48, (s.field f).resetDue = false) →
      s.faultAddr j = none → (s.port j.port).cur = some sl → Completes (exec .jobCompletion s) fun t =>
        t.pithead.job = none ∧ record e j.port t ∧ (t.port j.port).cur = (s.port j.port).next ∧ (t.port j.port).next = none ∧
        (s.hostUp j.port = true → sl.noIrq = false → (t.port j.port).msix = ((s.port j.port).raised sl.vector).msix) ∧
        (∀ h < 16, (t.hoist (128 + 16 * j.port + h)).job = 0) ∧ t.cores = s.cores) ∧
    (s.pithead.job = some j → j.ended = none → j.running = true → s.pithead.inReset = false → k.ptype = .tallySignal →
      k.dst = s.chip * 2 ^ 20 + 0xFFFFE → s.lands k = true →
      (k.arg % 64 = 0 → eidChip k.src = s.chip → (∃ x, s.siteOf (eidLocal k.src) = some x ∧ bit j.fields x.field = true) →
        Completes (exec (.jobDone k) s) fun t =>
          t.pithead.job = some { j with ended := some (.done (k.data % 2 ^ 32)) } ∧
          (t.port j.port).cur = (s.port j.port).cur.map fun z => { z with state := .draining }) ∧
      (k.arg % 64 ≠ 0 → Completes (exec (.jobDone k) s) fun t =>
        t.pithead = s.pithead ∧ t.ports = s.ports ∧ t.net = takeFlight k s.net ∧ t.cores = s.cores))

/-! ## Foremen and resets -/

/-- R474, R475, R480, R483, R484, R486, R487, R492: heartbeats and their answers; a missed beat, and the echo that tells a dead
core from a dead router; the pithead's watch of the foremen; one core's reset; the clearing of an error ring.
That an answer later than 10 µs is ignored (log 108, DEDUCED), that FOREMAN_LOST says whether the foreman has stopped (log 152,
DESIGN CHOICE), and what a wide reset or bring-up discards (log 107 and 151, DEDUCED), are the model's choices. -/
def Obligations.ForemenAndResets : Prop :=
  ∀ (w : Requester) (f : FieldNo) (x : Site) (p : Packet) (v : Word) (u : Nat × Nat × Nat) (beat : Flight) (at_ : Nat) (stopped : Bool) (s : State),
    let fl := s.field f.val
    let c := s.core x
    let sites := (fieldSites f.val).filter fun y => decide (s.siteCode y ≤ 3) && !s.fenced.contains y.key
    let n := fl.beatNo % 2 ^ 32
    let due := max s.time (fl.beatSent + 1000 * max 10 (s.sregBits (pageFieldctl f.val + 0x0A4) 15 0))
    let misses := fl.misses.get (fun _ => 0) x.key + 1
    let limit := max 1 (s.sregBits (pageFieldctl f.val + 0x0A4) 19 16)
    let r := pageFieldctl f.val + 0x0A8
    let lands := s.lands p = true
    let fromCore := lands ∧ p.dst = s.chip * 2 ^ 20 + 0xFFF00 + f.val ∧ fl.foremanUp = true ∧ p.ptype = .heartbeat ∧ p.poisoned = false ∧
      s.siteOf (eidLocal p.src) = some x ∧ x.field = f.val
    (fl.beats = true → (∀ kc ∈ s.cores, kc.2.eidLocal = none) → Completes (exec (.heartbeatSend f) s) fun t =>
      t.time = due ∧ (t.field f.val).beatSent = due ∧ (t.field f.val).beatNo = n + 1 ∧
      (t.field f.val).unanswered = fl.unanswered ++ sites.map (fun y => (y.key, n, due)) ∧
      t.cores = s.cores ∧ ∃ l : List Flight, t.net = s.net ++ l ∧
        (∀ q ∈ l, q.pkt.ptype = .heartbeat ∧ q.pkt.data = n ∧ q.pkt.src = s.chip * 2 ^ 20 + 0xFFF00 + f.val) ∧
        ∀ y ∈ sites, ∃ q ∈ l, q.pkt.tx = y.x.val ∧ q.pkt.ty = y.y.val) ∧
    (p.tx = x.x.val → p.ty = x.y.val → p.ptype = .heartbeat → p.port = .local_ → p.poisoned = false → bit p.data 62 = false →
      lands → s.forwards x = true → (bit p.data 63 = true ∨ s.coreClocked x = true) → Completes (exec (.heartbeat p) s) fun t =>
        (∃ q, t.net = takeFlight p s.net ++ [Flight.fresh x.key q] ∧ q.ptype = .heartbeat ∧ q.dst = p.src ∧
          q.src = s.coreEid x ∧ q.data = p.data % 2 ^ 32 + 2 ^ 62 + (bit p.data 63).toNat * 2 ^ 63) ∧ t.cores = s.cores) ∧
    (fromCore →
      (bit p.data 62 = true → bit p.data 63 = false → (x.key, p.data % 2 ^ 32, at_) ∈ fl.unanswered → s.time ≤ at_ + 10000 →
        Completes (exec (.heartbeatAnswer p) s) fun t =>
          (t.field f.val).misses.get (fun _ => 0) x.key = 0 ∧
          (t.field f.val).unanswered = fl.unanswered.filter (fun e => !(e.1 == x.key && e.2.1 == p.data % 2 ^ 32)) ∧
          t.net = takeFlight p s.net ∧ t.cores = s.cores) ∧
      (bit p.data 62 = true → (∀ e ∈ fl.unanswered, e.1 = x.key → e.2.2 + 10000 < s.time) →
        (∀ e ∈ fl.echoes, e.1 = x.key → e.2 + 10000 < s.time) →
        (bit p.data 63 = false → Completes (exec (.heartbeatAnswer p) s) fun t => t.field f.val = fl ∧ t.cores = s.cores) ∧
        (bit p.data 63 = true → Completes (exec (.echoReturn p) s) fun t => t.field f.val = fl ∧ t.cores = s.cores)) ∧
      (bit p.data 62 = true → bit p.data 63 = true → (x.key, at_) ∈ fl.echoes → s.time ≤ at_ + 10000 → s.siteCode x < 4 → s.pithead.job = none →
        Completes (exec (.echoReturn p) s) fun t =>
          t.siteCode x = 4 ∧ t.core x = { Core.reset with eidLocal := c.eidLocal } ∧
          Logged x.field 0x1101 (siteWord x 0) t ∧ ∀ y : Site, y.key ≠ x.key → t.core y = s.core y)) ∧
    (x.field = f.val → fl.beats = true →
      (fl.unanswered.find? (fun e => e.1 == x.key) = some u → s.time ≤ u.2.2 + 10000 →
        (misses < limit → Completes (exec (.heartbeatMiss x) s) fun t =>
          t.time = u.2.2 + 10000 ∧ (t.field f.val).misses.get (fun _ => 0) x.key = misses ∧
          (t.field f.val).unanswered = fl.unanswered.erase u ∧ (t.field f.val).echoes = fl.echoes ∧ t.net = s.net ∧
          t.cores = s.cores) ∧
        (limit ≤ misses → (∀ e ∈ fl.echoes, e.1 ≠ x.key) → Completes (exec (.heartbeatMiss x) s) fun t =>
          (t.field f.val).echoes = fl.echoes ++ [(x.key, u.2.2 + 10000)] ∧
          (t.field f.val).unanswered = fl.unanswered.erase u ∧ t.cores = s.cores)) ∧
      ((fl.echoes.find? fun e => e.1 == x.key) = some (x.key, at_) → s.siteCode x ≠ 5 → x.foremanBlock = false → s.net = [] →
        s.pithead.job = none → Completes (exec (.echoTimeout x) s) fun t =>
          t.siteCode x = 5 ∧ t.time = max s.time (at_ + 10000) ∧ (∀ e ∈ (t.field f.val).echoes, e.1 ≠ x.key) ∧
          (∃ l h, t.routePending = some l ∧ h ∈ l ∧ h.has x.x.val x.y.val = true))) ∧
    (fl.beats = true → s.pitBeatOf f.val = none → s.time ≤ fl.pitSent + 100000 →
      Completes (exec (.foremanHeartbeat f) s) fun t =>
        t.time = fl.pitSent + 100000 ∧ (t.field f.val).pitSent = t.time ∧ (t.field f.val).pitBeat = fl.pitBeat % 2 ^ 32 + 1 ∧
        t.cores = s.cores ∧ ∃ z q, t.net = s.net ++ [Flight.fresh z q] ∧ q.ptype = .heartbeat ∧ q.arg = f.val ∧
          q.src = s.chip * 2 ^ 20 + 0xFFF00 + f.val ∧ q.dst = s.chip * 2 ^ 20 + 0xFFFFE ∧ q.data = fl.pitBeat % 2 ^ 32 + 2 ^ 61) ∧
    (s.pitBeatOf f.val = some beat → s.lands beat.pkt = true → s.pithead.inReset = false →
      Completes (exec (.foremanHeartbeat f) s) fun t =>
        (t.field f.val).foremanSeen = s.time ∧ t.net = takeFlight beat.pkt s.net ∧ t.time = s.time ∧ t.cores = s.cores) ∧
    (s.pithead.inReset = false → fl.bringup = .up → fl.clocked = true → fl.resetDue = false →
      let looked := fun (t : State) => t.time = max s.time (fl.foremanSeen + 300000) ∧
        t.pithead.aditSeq = (s.pithead.aditSeq + 1) % 16
      (stopped = true ∨ s.adits f.val = false → s.pithead.job = none → Completes (exec (.foremanLost f stopped) s) fun t =>
        looked t ∧ (t.field f.val).foremanUp = false ∧ (t.field f.val).bringup = .testing ∧ (t.field f.val).foremanMem = [] ∧
        ∀ k < 2, (t.port k).msix = (s.port k).msix) ∧
      (stopped = false → s.adits f.val = true → Completes (exec (.foremanLost f stopped) s) fun t =>
        looked t ∧ (t.field f.val).foremanUp = fl.foremanUp ∧ (t.field f.val).bringup = .up ∧ t.cores = s.cores ∧ t.regs = s.regs)) ∧
    (s.pageWriter w = true → s.pithead.boot ≠ .failed → fl.vcoreOn = true → s.bringing = false → x.field = f.val → x.foremanBlock = false → bit v.toNat 31 = true →
      bits v.toNat 28 19 = x.x.val → bits v.toNat 18 10 = x.y.val → fl.bringup ≠ .testing → s.siteCode x ≠ 4 → s.siteCode x ≠ 5 →
      (s.pithead.job = none → c.spmv = none → (∀ e < 32, (c.chute e).role = .unbound) →
        Completes (exec (.coreReset w f v) s) fun t =>
          (∀ k, t.thread x k = Thread.reset) ∧ (∀ o, (t.core x).reg o = regReset corePageRegs o) ∧
          (∀ q, (t.core x).vreg q = 0) ∧ (t.core x).eidLocal = c.eidLocal ∧
          (∀ b < 16, c.bank b = .active → (t.core x).bank b = .active ∧
            ∀ k < 8192, (t.core x).sram.get (fun _ => 0) (b * 8192 + k) = c.sram.get (fun _ => 0) (b * 8192 + k)) ∧
          (∀ b < 16, c.bank b = .parked → (t.core x).bank b = .waking) ∧ t.sregBits r 7 0 = 0 ∧ SregsBut [r] s t ∧
          CoreOnly x (s.dropLatch w r) { t with regs := s.regs }) ∧
      (s.jobUses f.val = true → s.liveJob.isSome = true → Completes (exec (.coreReset w f v) s) fun t =>
        t.sregBits r 7 0 = Status.busy.code ∧ SregsBut [r] s t ∧ { t with regs := s.regs } = s.dropLatch w r)) ∧
    (s.pageWriter w = true → s.pithead.boot ≠ .failed → bit v.toNat 0 = true → Completes (exec (.errlogClear w f v) s) fun t =>
      t.field f.val = { fl with errlog := [], errNext := 0 } ∧ (∀ g, g ≠ f.val → t.field g = s.field g) ∧
      { t with fields := s.fields } = s.dropLatch w (pageErrlog f.val))

/-! ## Power and clocks -/

/-- R432, R433, R436 to R438, R442 to R446: voltage writes, steps up and down, the clock stretch, the envelope, the staged environment, the
capping loop and the throttle ledger. -/
def Obligations.PowerAndClocks : Prop :=
  ∀ (w : Requester) (f : FieldNo) (mv new since k : Nat) (v : Word) (m : Readings) (s : State),
    let fl := s.field f.val
    let page := pageFieldpwr f.val
    let bump := fun (off : Nat) (t : State) => t.sreg off = BitVec.ofNat 32 (min ((s.sreg off).toNat + 1) 0xFFFFFFFF)
    let setMv := min (s.setPoint f.val fl.step) fl.setMv
    let threshold := max 20 (s.sregBits (page + 0x054) 7 0)
    let others := fun t : State => ∀ g, g ≠ f.val → t.field g = s.field g
    let reason := s.throttleReason f.val
    (s.pithead.avsQueue = [(f.val, mv)] → s.instanceFree f.val ≤ s.time → Completes (exec .avsbusWrite s) fun t =>
      t.field f.val = { fl with setMv := mv, stepUp := fl.stepUp.map fun u => (u.1, some (u.2.getD s.time)) } ∧
      t.pithead.avsQueue = [] ∧ t.instanceFree f.val = s.time + 640 ∧ t.time = s.time ∧ others t ∧ t.cores = s.cores) ∧
    (fl.power = .stepping → fl.stepUp = some (new, some since) →
      (s.time ≤ since + 1800 → fl.stretched = true → Completes (exec (.stepUpConfirm f) s) fun t =>
        t.field f.val = { fl with stepUp := none, stepDue := some new, stepReady := true } ∧ t.regs = s.regs ∧ FieldOnly f.val s t) ∧
      (s.time ≤ since + 1800 → fl.stretched = false → Completes (exec (.stepUpConfirm f) s) fun t =>
        t.field f.val = { fl with step := new, stepUp := none, stepDue := none, stepReady := false, power := .run } ∧ bump (page + 0x060) t ∧
        SregsBut [page + 0x060] s t ∧ FieldOnly f.val s t) ∧
      (since + 1800 < s.time → exec (.stepUpConfirm f) s = .next s) ∧
      (s.time ≤ since + 1800 → Completes (exec (.stepFault f) s) fun t =>
        (t.field f.val).stepUp = none ∧ (t.field f.val).power = .run ∧ (t.field f.val).step = fl.step ∧
        (f.val, s.setPoint f.val fl.step) ∈ t.pithead.avsQueue ∧ bump (page + 0x064) t ∧ t.time = since + 1800 ∧
        Logged f.val 0x1001 (fieldWord f.val 0) t ∧ t.cores = s.cores)) ∧
    (fl.clocked = true → fl.stretched = false → mv + threshold < setMv → Completes (exec (.droopStretch f mv) s) fun t =>
      t.field f.val = { fl with stretched := true, stretchAt := fl.clk, stretchFrom := fl.clk, droopIn := true } ∧ bump (page + 0x058) t ∧
      SregsBut [page + 0x058] s t ∧ FieldOnly f.val s t) ∧
    (setMv ≤ mv + threshold → exec (.droopStretch f mv) s = .next s) ∧
    (fl.stretched = true → mv + threshold < setMv + 10 → exec (.stretchEnd f mv) s = .next s) ∧
    (fl.stretched = true → fl.stepDue = none → setMv + 10 ≤ mv + threshold → Completes (exec (.stretchEnd f mv) s) fun t =>
      (t.field f.val).stretched = false ∧ (t.field f.val).droopIn = true ∧
      (fl.clocked = true → fl.stretchAt + 20 * 64 ≤ (t.field f.val).clk) ∧
      t.sreg (page + 0x05C) = BitVec.ofNat 32
        (min ((s.sreg (page + 0x05C)).toNat + ((t.field f.val).clk - fl.stretchFrom) / 20) 0xFFFFFFFF) ∧ (t.field f.val).step = fl.step ∧ (t.field f.val).power = fl.power ∧
      s.time ≤ t.time ∧ SregsBut [page + 0x05C] s t ∧ t.cores = s.cores) ∧
    (fl.vcoreOn = true → fl.power ≠ .parked → fl.power ≠ .stopped → s.stopHolds = false → s.sregBit (page + 0x070) 31 = false →
      (∀ y ∈ s.coreSites f.val, (s.core y).array.busy = false) → fl.envelope = ⟨0, 1⟩ →
      Completes (exec (.envelopeUpdate f false) s) fun t =>
        (t.field f.val).envelope = ⟨0, 1⟩ ∧ (t.field f.val).gate = ⟨1, 1⟩ ∧ (t.field f.val).duty = ⟨0, 1⟩ ∧
        t.regs = s.regs ∧ FieldOnly f.val s t) ∧
    (s.awake w = true → s.pithead.boot ≠ .failed → s.isKeeper w = true → w.port? = some k → Completes (exec (.envStamp w v) s) fun t =>
      t = { s.dropLatch w pageEnv with pithead := { s.pithead with applied := s.pithead.staged, stampTime := s.time, stamped := true, stale := false } }) ∧
    (s.pithead.stale = false → s.time ≤ s.pithead.stampTime + 10000000000 → Completes (exec .envStale s) fun t =>
      t.pithead = { s.pithead with stale := true } ∧ t.time = s.pithead.stampTime + 10000000001 ∧
      Logged 0 0x1002 (fieldWord 0 0) t ∧ t.cores = s.cores) ∧
    (s.pithead.inReset = false → s.flash.stopped = false → (∀ g < 48, (s.field g).runs = true ↔ g = f.val) →
      (∀ g < 48, (Readings.of m g).failed = 0) → Readings.total m = 2000 → m.other = 1000 → (Readings.of m f.val).watts = 1000 →
      (Readings.of m f.val).temp = 1030 → s.pithead.stale = false → s.pithead.applied = ⟨300, 800, 25000, 350⟩ →
      s.sreg (page + 0x044) = 15#32 → s.sreg (pageModpwr + 0x044) = 15#32 → s.sreg (pageModpwr + 0x040) = 25000#32 →
      s.sregBits (pageModpwr + 0x048) 7 0 = 0 → fl.step = 15 → fl.stretched = false → fl.power = .run →
      Completes (exec (.cappingLoop m) s) fun t =>
        (t.field f.val).step = 14 ∧ (t.field f.val).ceiling = 14 ∧ (t.field f.val).loopReason = 3 ∧
        t.pithead.capUnmet = false ∧ (f.val, s.setPoint f.val 14) ∈ t.pithead.avsQueue ∧ t.cores = s.cores) ∧
    (s.pithead.inReset = false → s.flash.stopped = true → (∀ g < 48, (Readings.of m g).failed = 0) →
      Completes (exec (.cappingLoop m) s) fun t =>
        t.sregBits (page + 0x050) 15 0 = min (Readings.of m f.val).watts 0xFFFF ∧ t.pithead = s.pithead ∧ t.cores = s.cores ∧
        ∀ g, t.field g = s.field g) ∧
    (Completes (exec (.ledgerTick f) s) fun t =>
      (t.field f.val).ledger.get (fun _ => 0) reason = min (fl.ledger.get (fun _ => 0) reason + 1) (2 ^ 48 - 1) ∧
      (∀ k, k ≠ reason → (t.field f.val).ledger.get (fun _ => 0) k = fl.ledger.get (fun _ => 0) k) ∧
      (t.field f.val).lastReason = some reason ∧ (t.field f.val).droopIn = false ∧ (t.field f.val).slewIn = false ∧
      (t.field f.val).holdIn = false ∧ (t.field f.val).blockedIn = false ∧
      (t.field f.val).waitPace = (if s.waitsPace f.val then min (fl.waitPace + 1) (2 ^ 48 - 1) else fl.waitPace) ∧ others t ∧ SregsBut [pageFieldctl f.val + 0x048, pageFieldctl f.val + 0x04C] s t ∧
      { t with fields := s.fields, regs := s.regs } = s) ∧
    (s.pageWriter w = true → s.pithead.boot ≠ .failed → bit v.toNat 0 = true → Completes (exec (.throttleClear w f v) s) fun t =>
      t.field f.val = { fl with ledger := [], ledgerLast := [], waitPace := 0, waitLast := 0 } ∧ others t ∧
      { t with fields := s.fields } = s.dropLatch w (pageThrottle f.val))

/-! ## Parking and the stop -/

/-- R347, R430, R447 to R454, R548, R549: a field parks and unparks, by request and by auto_park; the stop latches, glides every
field to step 0 and gates their clocks 50 µs later, and is released only by a keeper's clear with the coolant in order; a
field whose PLL unlocks or whose rail fails loses its clock.
What auto_park may park, and that a stretch holds step 1 up until it ends, are the model's reading (log 101, DEDUCED). -/
def Obligations.ParkingAndStops : Prop :=
  ∀ (w : Requester) (f : FieldNo) (v : Word) (j : Job) (k since : Nat) (coolantOk : Bool) (hottest : Int) (s : State),
    let fl := s.field f.val
    let keeps := s.awake w = true ∧ s.pithead.boot ≠ .failed ∧ s.isKeeper w = true
    let req := pageModpwr + 0x050
    let stopReg := pageModpwr + 0x054
    let others := fun t : State => ∀ g, g ≠ f.val → t.field g = s.field g
    let hole := interiorHole f.val
    let dark := fun t : State => (t.field f.val).vcoreOn = false ∧ (t.field f.val).power = .parked ∧
      (t.field f.val).foremanUp = false ∧ hole ∈ t.holes ∧ (f.val, 0) ∈ t.pithead.avsQueue ∧
      t.sregBit (rotCtrl f.val) 0 = false ∧
      ∀ x : Site, x.field = f.val → t.core x = { Core.reset with eidLocal := (s.core x).eidLocal, book := (s.core x).resetBook }
    let latched := fun (cause field code : Nat) (t : State) =>
      t.flash = { s.flash with stopped := true, stopCleared := false, stopCause := cause, stopField := field } ∧
      t.pithead.stopSince = some s.time ∧ (∀ g < 48, Logged g code (fieldWord g 0) t) ∧
      (∀ g < 48, (s.field g).runs = true →
        if (s.field g).stretched then (t.field g).stepDue = some 0 ∧ (t.field g).step = (s.field g).step else (t.field g).step = 0) ∧ (∀ h < 208, (t.hoist h).pending = 0) ∧
      (∀ p < 2, t.port p = (List.replicate 48 33).foldl HostPort.raised (s.port p)) ∧ t.cores = s.cores
    (keeps →
      (bits v.toNat 5 0 = f.val → fl.bringup ≠ .lost →
        (bit v.toNat 30 = false → fl.power = .run → s.galleryHoles f.val = 0 →
          (s.pithead.job = none → Completes (exec (.park w v) s) fun t =>
            (if fl.stretched then
              t.field f.val = { fl with stepUp := none, stepDue := some 0, stepReady := false, envelope := ⟨0, 1⟩, power := .parking } ∧
                t.holes = s.holes
            else t.field f.val = { fl with
                step := 0, stepUp := none, stepDue := none, stepReady := false, envelope := ⟨0, 1⟩, power := .parking
                parkAt := fl.clk } ∧ (f.val, s.setPoint f.val 0) ∈ t.pithead.avsQueue ∧ hole ∈ t.holes) ∧
            t.sregBits req 23 16 = 0 ∧ others t ∧ t.cores = s.cores) ∧
          (s.pithead.job = some j → j.ended = none → bit j.fields f.val = true → bit v.toNat 31 = true →
            Completes (exec (.park w v) s) fun t =>
              t.pithead.job = some { j with thenPark := some f.val, ended := some (.aborted 0x1005) } ∧
              t.sregBits req 23 16 = 0)) ∧
        (bit v.toNat 30 = true → s.flash.stopped = false → bit s.pithead.railFault f.val = false → fl.power = .parked →
          s.pithead.job = none → Completes (exec (.unpark w v) s) fun t =>
            t.field f.val = { fl with power := .unparking, stepUp := some (0, none) } ∧
            (f.val, s.setPoint f.val 0) ∈ t.pithead.avsQueue ∧ t.sregBits req 23 16 = 0 ∧ others t ∧ t.cores = s.cores)) ∧
      (bits v.toNat 5 0 = f.val → fl.bringup = .lost →
        let denied := fun o => Completes o fun t =>
          t.sregBits req 23 16 = Status.denied.code ∧ SregsBut [req] s t ∧ { t with regs := s.regs } = s.dropLatch w pageModpwr
        denied (exec (.park w v) s) ∧ denied (exec (.unpark w v) s)) ∧
      (bit v.toNat 30 = true → bit v.toNat 28 = false →
        (coolantOk = true → hottest < 1000 → Completes (exec (.stopClear w v coolantOk hottest) s) fun t =>
          t.flash = { s.flash with stopCleared := true } ∧ t.regs = s.regs ∧ t.cores = s.cores) ∧
        ((coolantOk = false ∨ 1000 ≤ hottest) → Completes (exec (.stopClear w v coolantOk hottest) s) fun t =>
          t.flash = s.flash ∧ t.sregBit stopReg 28 = true ∧ SregsBut [stopReg] s t ∧ t.cores = s.cores))) ∧
    (fl.power = .parking → fl.stepDue = none → s.net = [] → hole ∈ s.holes → Completes (exec (.parkInteriorDrained f) s) fun t =>
      dark t ∧ others t ∧ ∀ x : Site, x.field ≠ f.val → t.core x = s.core x) ∧
    (fl.power = .unparking → fl.stepUp = some (k, some since) →
      (s.time ≤ since + 20000 → Completes (exec (.unparkVoltageConfirm f) s) fun t =>
        (t.field f.val).vcoreOn = true ∧ (t.field f.val).isolated = false ∧ (t.field f.val).power = .run ∧
        (t.field f.val).step = 0 ∧ (t.field f.val).clocked = true ∧ (t.field f.val).foremanUp = true ∧ hole ∉ t.holes ∧ others t ∧
        (∀ x : Site, x.field = f.val → x.foremanBlock = false → ∀ b < 16, (t.core x).bank b = .waking) ∧
        ∀ x : Site, x.field ≠ f.val → t.core x = s.core x) ∧
      (s.time ≤ since + 20000 → Completes (exec (.unparkVoltageTimeout f) s) fun t =>
        (t.field f.val).power = .parked ∧ (f.val, 0) ∈ t.pithead.avsQueue ∧ (t.field f.val).stepUp = none ∧
        t.time = since + 20000 ∧ Logged f.val 0x1001 (fieldWord f.val 0) t ∧ t.cores = s.cores)) ∧
    (s.pithead.boot = .ready → s.pithead.job = none → s.sregBit (pageModpwr + 0x048) 8 = true →
      (fl.runs = true ∨ fl.power = .stopped) → fl.drain = none → fl.bringup ≠ .lost → s.galleryHoles f.val = 0 → Completes (exec .autoPark s) fun t =>
        (t.field f.val).power = .parking ∧ (fl.stretched = false → hole ∈ t.holes) ∧ t.cores = s.cores) ∧
    (s.sregBit (pageModpwr + 0x048) 8 = false → exec .autoPark s = .next s) ∧
    (s.pithead.inReset = false → s.flash.stopped = false → s.pithead.job = none → (∀ h < 208, (s.hoist h).run = none) →
      (Completes (exec .coolantStop s) fun t => latched 1 0 0x1007 t ∧ t.pithead.coolantOk = false) ∧
      Completes (exec (.thermalStop f) s) fun t => latched 2 f.val 0x1008 t) ∧
    (s.pithead.stopSince = some since → s.time ≤ since + 50000 → s.net = [] → Completes (exec .stopClockGate s) fun t =>
      t.pithead.stopSince = none ∧ t.time = since + 50000 ∧
      (∀ g < 48, (s.field g).vcoreOn = true → (t.field g).clockGated = true ∧ (t.field g).clocked = false) ∧
      (s.pithead.job = some j → j.ended = none → t.pithead.job =
        some { j with ended := some (.faulted (if s.flash.stopCause = 1 then 0x1007 else 0x1008)) }) ∧ MemoryKept s t) ∧
    (fl.clocked = true → s.pithead.job = none → Completes (exec (.fieldPllUnlock f) s) fun t =>
      (t.field f.val).pllLocked = false ∧ (t.field f.val).drain = none ∧ (t.field f.val).sched = .idle ∧
      (t.field f.val).vcoreOn = true ∧ Logged f.val 0x1004 (fieldWord f.val 0) t ∧ others t ∧ t.cores = s.cores) ∧
    (s.pithead.inReset = false →
      (fl.runs = false → Completes (exec (.vcoreRailFault f) s) fun t =>
        t = { s with pithead := { s.pithead with railFault := s.pithead.railFault ||| 2 ^ f.val } }) ∧
      (fl.runs = true → s.pithead.job = none → s.net = [] → Completes (exec (.vcoreRailFault f) s) fun t =>
        dark t ∧ t.pithead.railFault = s.pithead.railFault ||| 2 ^ f.val ∧ others t ∧
        ∀ x : Site, x.field ≠ f.val → t.core x = s.core x))

/-! ## Bring-up, resets and security -/

/-- R464 to R471, R485, R487, R488, R509, R541, R543, R553: a module cold reset keeps flash and host memory alone; stages and fields come up; a
field reset, a warm reset and a full harvest start them again; harvest changes are journalled.
The outcome of a failed map or journal write (log 149), what a loss of power leaves of writes under way (log 150) and that a
field reset keeps SRAM and is discarded in a bring-up (log 151) are the model's readings, all DEDUCED. -/
def Obligations.BringUpAndResets : Prop :=
  ∀ (w : Requester) (f : FieldNo) (x : Site) (v : Word) (r : StageResult) (ft : FieldTest) (flt : SiteFault)
    (change : Nat × Nat × Nat) (rest : List (Nat × Nat × Nat)) (p : Port2) (arg : Nat) (coolantOk mapOk : Bool)
    (s : State),
    let fl := s.field f.val
    let hole := interiorHole f.val
    let reg := pagePithead + 0x050
    let ready := s.awake w = true ∧ s.isKeeper w = true ∧ s.pithead.boot = .ready ∧ s.bringing = false ∧ s.pithead.job = none
    let others := fun t : State => ∀ g, g ≠ f.val → t.field g = s.field g
    let up := fun t : State => (t.field f.val).bringup = .up ∧ (t.field f.val).power = .run ∧ (t.field f.val).clocked = true ∧
      (t.field f.val).isolated = false ∧ (t.field f.val).foremanUp = true ∧ (t.field f.val).step = 0 ∧ hole ∉ t.holes ∧ others t ∧
      (fl.vcoreOn = false → ∀ y : Site, y.field = f.val → y.foremanBlock = false → ∀ b < 16, (t.core y).bank b = .waking) ∧
      ∀ y : Site, (fl.vcoreOn = true ∨ y.field ≠ f.val) → t.core y = s.core y
    (Completes (exec .moduleColdReset s) fun t =>
      t.pending = s.pending ∧ t.pithead = { Pithead.reset with nextLeaf := t.flash.reserveEnd } ∧ t.hostA = s.hostA ∧ t.hostB = s.hostB ∧
      (∀ y : Site, t.core y = Core.reset) ∧ (∀ g, t.field g = Field.reset) ∧ (∀ off, t.sreg off = sregReset off) ∧
      t.net = [] ∧ t.hbm = [] ∧
      (s.pithead.mailbox = [] → ∃ lost : Bool, t.flash = { s.flash with
        boots := (s.flash.boots + 1) % 2 ^ 64, journalDirty := []
        journal := s.flash.journal ++ (if lost then s.flash.journalDirty.drop 1 else s.flash.journalDirty)
        stopped := s.flash.stopped && !s.flash.stopCleared, stopCleared := false }) ∧
      (s.pithead.mailbox.head? = some (p.val, 4, arg) → s.reqLen p.val = 8 → s.pithead.boot ≠ .failed → s.pithead.slot < 2 →
        t.flash.slot s.pithead.slot = s.flash.slot s.pithead.slot ∧ t.flash.slot (1 - s.pithead.slot) =
          if (s.installable (s.mboxBytes p.val 8)).1.isSome then none else s.flash.slot (1 - s.pithead.slot)) ∧
      ∀ n, ((s.seam n).state ≠ .up → t.seam n = Seam.reset) ∧
        ((s.seam n).state = .up → (t.seam n).state = .off ∧ ∃ q : SeamFrame, (t.seam n).out = some q.bytes ∧ q.kind = 4)) ∧
    (s.pithead.inReset = true → Completes (exec (.resetRelease coolantOk) s) fun t =>
      t.pithead = { s.pithead with inReset := false, resetLow := false, coolantOk := coolantOk, stage := 1, mode := 0 } ∧
      (∀ g < 48, interiorHole g ∈ t.holes ∧ t.field g = { s.field g with onGalClk := true }) ∧ t.regs = s.regs ∧ t.cores = s.cores) ∧
    (s.pithead.inReset = false → s.pithead.boot ≠ .failed →
      (s.pithead.stage = 1 → s.flash.slot0 = none → s.flash.slot1 = none → Completes (exec (.bringupStage r) s) fun t =>
        t = { s with pithead := { s.pithead with boot := .failed } }) ∧
      (s.pithead.stage = 2 → s.pithead.mode ≠ 2 → s.pithead.job = none → s.flash.stopped = false →
        Completes (exec (.bringupStage r) s) fun t =>
          (∀ n < 32, t.stackState n = if s.stackState n = 2 ∨ r.stackPorts.getLsbD n = true then 2 else 3) ∧
          t.pithead.stage = 3 ∧ (FieldNo.ring f = 0 → fl.bringup = .down →
            (t.field f.val).bringup = .testing)) ∧
      (s.pithead.stage = 5 → (∀ g < 48, (s.field g).bringup ≠ .testing) → Completes (exec (.bringupStage r) s) fun t =>
        t = { s with pithead := { s.pithead with stage := 6 } }) ∧
      (s.pithead.stage = 5 → (∃ g < 48, (s.field g).bringup = .testing) → exec (.bringupStage r) s = .next s) ∧
      (s.pithead.stage = 6 → s.pithead.mode = 1 → s.flash.journalDirty ≠ [] → exec (.bringupStage r) s = .next s) ∧
      (s.pithead.stage = 6 → s.pithead.mode = 1 → s.flash.journalDirty = [] → s.pithead.boot ≠ .halted → Completes (exec (.bringupStage r) s) fun t =>
        t.pithead = { s.pithead with boot := .ready, stage := 7, mode := 0 } ∧ t.holes = s.holes ∧ t.cores = s.cores)) ∧
    (s.pithead.inReset = false → s.flash.stopped = false → fl.bringup = .testing → s.instanceFree f.val ≤ s.time →
      (s.adits f.val = true → ft.powerOk = true → ft.foremanOk = true → fl.testMode = 0 → Completes (exec (.fieldBringup f ft) s) fun t =>
        up t ∧ t.harvest = s.harvest) ∧
      (s.adits f.val = true → ft.powerOk = true → ft.foremanOk = true → fl.testMode = 1 → ft.sites = [(x, flt)] → ft.stitch = [] → ft.entries = [] →
        x.field = f.val → x.foremanBlock = false → s.siteCode x < bits (SiteFault.entry flt).toNat 15 13 →
        Completes (exec (.fieldBringup f ft) s) fun t =>
          up t ∧ t.siteEntry x = SiteFault.entry flt ∧ (∀ y : Site, y.key ≠ x.key → t.siteEntry y = s.siteEntry y) ∧
          t.pithead.harvestGen ≠ s.pithead.harvestGen % 2 ^ 32) ∧
      ((ft.powerOk = false ∨ ft.foremanOk = false ∨ s.adits f.val = false) → s.net = [] → Completes (exec (.fieldBringup f ft) s) fun t =>
        (t.field f.val).bringup = .lost ∧ (t.field f.val).power = .parked ∧ (t.field f.val).vcoreOn = false ∧
        hole ∈ t.holes ∧ Logged f.val 0x1104 (fieldWord f.val 0) t ∧ others t)) ∧
    (ready →
      (bit v.toNat 31 = false → bit v.toNat 30 = true → bits v.toNat 5 0 = f.val → s.net = [] →
        Completes (exec (.fieldResetRequest w v) s) fun t =>
          (t.field f.val).bringup = .testing ∧ (t.field f.val).foremanUp = false ∧ (t.field f.val).sched = .idle ∧
          t.sregBits reg 23 16 = 0 ∧ others t ∧ t.hbm = s.hbm) ∧
      ((∀ h < 208, (s.hoist h).run = none) → (∀ k < 2, (s.port k).cur = none ∧ (s.port k).next = none) →
        s.flash.stopped = false → bit v.toNat 31 = true →
        let restarts := fun (mode : Nat) (boot : BootState) (t : State) =>
          t.net = [] ∧ t.pithead.stage = 2 ∧ t.pithead.mode = mode ∧ t.pithead.boot = boot ∧ t.hbm = s.hbm ∧
          (fl.power ≠ .parked → (t.field f.val).bringup = .down ∧ (t.field f.val).foremanUp = false)
        (Completes (exec (.engineWarmReset w v) s) fun t => restarts 1 .bringup t) ∧
        (Completes (exec (.fullHarvest w v) s) fun t =>
          restarts 2 .harvesting t ∧ t.sregBits (pagePithead + 0x044) 23 16 = 0))) ∧
    (s.flash.journalDirty = change :: rest →
      (s.flash.journal.length < 1023 → Completes (exec (.journalWrite true mapOk) s) fun t =>
        t = { s with flash := { s.flash with journalDirty := rest, journal := s.flash.journal ++ [change] } }) ∧
      (s.flash.journal.length = 1023 → mapOk = true → Completes (exec (.journalWrite true mapOk) s) fun t =>
        t.flash.journal = [] ∧ t.flash.journalDirty = [] ∧ (t.flash.bestMap).map (·.sites) = some s.harvest ∧
        { t with flash := s.flash } = s) ∧
      (s.pithead.job = none → Completes (exec (.journalWrite false mapOk) s) fun t =>
        t.flash = { s.flash with journalDirty := rest } ∧ Logged 0 0x1108 (fieldWord 0 0) t ∧ t.cores = s.cores))

/-- R506 to R523: the command at the front of the mailbox queue ends with its status and response; a quote and an enrolment
spend a leaf; measurements are extended; SECURITY.LOCK locks.
That low is kept in flash and IDENTITY_LOW raised once a key, and that two invalid copies count as spent, is the model's choice
(log 111). -/
def Obligations.SecurityCommands : Prop :=
  ∀ (w : Requester) (p : Port2) (v : Word) (arg : Nat) (rest : List (Nat × Nat × Nat)) (c : List Byte) (m : List Nat) (s : State),
    let page := pageSecurity p.val
    let n := s.sregBits (page + 0x058) 11 0
    let req := (List.range n).map fun i => (s.sreg (page + 0x200 + i / 4 * 4)).toNat / 2 ^ (8 * (i % 4)) % 256
    let q := s.pithead
    let inBuffer := fun (t : State) (i : Nat) => (t.sreg (page + 0x200 + i / 4 * 4)).toNat / 2 ^ (8 * (i % 4)) % 256
    let ends := fun (st : Status) (len : Nat) (t : State) =>
      t.pithead.mailbox = rest ∧ (t.port p.val).mboxBusy = false ∧ t.sregBits (page + 0x054) 23 16 = st.code ∧
      t.sregBits (page + 0x054) 11 0 = len ∧ t.cores = s.cores
    let extended := fun (i : Nat) (d : List Nat) (t : State) =>
      t.pithead.measures.get (fun _ => 0) i = leNat (shake256 (leBytes 32 (q.measures.get (fun _ => 0) i) ++ d)) ∧
      ∀ k, k ≠ i → t.pithead.measures.get (fun _ => 0) k = q.measures.get (fun _ => 0) k
    let front := fun op => q.mailbox = (p.val, op, arg) :: rest
    let spends := q.nextLeaf < lowLeaf ∧ q.nextLeaf ≠ s.flash.reserveEnd
    (front 0x01 → n = 32 →
      (spends → Completes (exec (.quote p true) s) fun t =>
        ends .ok 3140 t ∧ inBuffer t 0 = 1 ∧ inBuffer t 1 = 1 ∧ (∀ i < 32, inBuffer t (32 + i) = req.getD i 0) ∧
        (∀ i < 4, inBuffer t (320 + i) = q.nextLeaf / 256 ^ (3 - i) % 256) ∧ t.pithead.nextLeaf = q.nextLeaf + 1 ∧
        t.flash = s.flash) ∧
      (reserveLeaf ≤ q.nextLeaf → Completes (exec (.quote p true) s) fun t =>
        ends .denied 0 t ∧ t.flash.exhausted = true ∧ t.pithead.nextLeaf = q.nextLeaf)) ∧
    (front 0x02 → n = 0 →
      (s.flash.certs[arg]? = some c → c.length ≤ 3584 → Completes (exec (.readCert p) s) fun t =>
        ends .ok c.length t ∧ ∀ i < c.length, inBuffer t i = (c.getD i 0).toNat) ∧
      (s.flash.certs[arg]? = none → Completes (exec (.readCert p) s) fun t => ends .addrRange 0 t)) ∧
    (front 0x03 → n = 32 →
      (5 ≤ arg → arg ≤ 7 → Completes (exec (.extend p) s) fun t => ends .ok 0 t ∧ extended arg req t) ∧
      ((arg < 5 ∨ 7 < arg) → Completes (exec (.extend p) s) fun t =>
        ends .addrRange 0 t ∧ t.pithead.measures = q.measures)) ∧
    (front 0x04 → n = 8 → q.boot ≠ .failed → q.slot < 2 → (s.releaseAt (leNat req)).1 = some m →
      let good := decide (manifestSvn m ≤ 64) && releaseGood (s.flash.vendorDigest.map BitVec.toNat) s.flash.fuseSteps m
      Completes (exec (.install p) s) fun t =>
        if good then ends .ok 0 t ∧ t.flash.slot (1 - q.slot) = some ⟨m.map (BitVec.ofNat 8)⟩ ∧ t.flash.slot q.slot = s.flash.slot q.slot
        else ends .denied 0 t ∧ t.flash = s.flash) ∧
    (front 0x05 → n = 0 → Completes (exec (.commitSvn p) s) fun t =>
      ends .ok 0 t ∧ t.flash = { s.flash with fuseSteps := max s.flash.fuseSteps q.svn } ∧
      (s.flash.fuseSteps < q.svn → extended 3 (shake256 (t.securityBlock 3)) t)) ∧
    (front 0x06 → n = 32 →
      (q.lock = false → Completes (exec (.setOwner p) s) fun t =>
        ends .ok 0 t ∧ t.flash = { s.flash with owner := req.map (BitVec.ofNat 8) } ∧
        extended 3 (shake256 (t.securityBlock 1)) t) ∧
      (q.lock = true → Completes (exec (.setOwner p) s) fun t => ends .denied 0 t ∧ t.flash = s.flash)) ∧
    (front 0x07 → n = 0 → spends → s.flash.keySerial < 15 → s.flash.keySerial < s.flash.certs.length → Completes (exec (.enrolSuccessor p true) s) fun t =>
      ends .ok 2956 t ∧ t.flash.keySerial = s.flash.keySerial + 1 ∧ t.flash.reserveEnd = 0 ∧ t.flash.low = false ∧ t.flash.exhausted = false ∧ t.pithead.nextLeaf = 0 ∧
      t.flash.certs.take (s.flash.keySerial + 1) = s.flash.certs.take (s.flash.keySerial + 1) ∧ inBuffer t 0 = 2) ∧
    (front 0x08 → n = 0 → Completes (exec (.debugChallenge p) s) fun t =>
      ends .ok 64 t ∧ inBuffer t 0 = 4 ∧ inBuffer t 1 = 1 ∧ ∃ bs : List Byte, t.pithead.challenge = some (bs, s.time) ∧
        bs.length = 64 ∧ ∀ i < 64, inBuffer t i = (bs.getD i 0).toNat) ∧
    (front 0x09 → n ≤ 3584 →
      (bit arg 7 = false → bits arg 6 0 = 0 → Completes (exec (.debugUnlock p) s) fun t =>
        ends .ok 0 t ∧ t.pithead.parts = req.map (BitVec.ofNat 8) ∧ t.pithead.nextPart = 1 ∧
        t.pithead.challenge = q.challenge ∧ t.pithead.debugUnlocked = q.debugUnlocked) ∧
      (bit arg 7 = true → bits arg 6 0 = 0 → Completes (exec (.debugUnlock p) s) fun t =>
        t.pithead.challenge = none ∧ t.pithead.mailbox = rest ∧
        if s.unlocks req then ends .ok 0 t ∧ t.pithead.debugUnlocked = true ∧ extended 3 (shake256 (t.securityBlock 4)) t
        else t.pithead.debugUnlocked = q.debugUnlocked ∧ t.sregBits (page + 0x054) 23 16 ≠ 0 ∧
          Logged 0 0x1305 (fieldWord 0 0) t)) ∧
    (front 0x0A → n = 0 → Completes (exec (.debugLock p) s) fun t =>
      ends .ok 0 t ∧ t.pithead.debugUnlocked = false ∧ extended 3 (shake256 (t.securityBlock 5)) t) ∧
    (s.awake w = true → s.isKeeper w = true → bit v.toNat 0 = true → q.lock = false → Completes (exec (.lock w v) s) fun t =>
      t.pithead.lock = true ∧ extended 3 (shake256 (t.securityBlock 2)) t ∧ t.flash = s.flash ∧ t.regs = s.regs)

/-! ## The adit and the module's electrical interface -/

/-- R29 to R31, R429, R460 to R463, R466: an adit frame is 72 bits with a CRC-8 and comes back from its bits; an access is in flight
with the response that its node makes as it acts, none where the frame fails; it ends with the response, is repeated, changes
its path, or loses the field; time is staged and aligned. That a repeated command takes a new sequence number, so that its node acts
again, is the model's reading (log 105, DEDUCED).
That a field reset in a bring-up is answered OK and does nothing is the model's reading (log 151, DEDUCED). -/
def Obligations.AditAccesses : Prop :=
  ∀ (f : FieldNo) (addr n : Nat) (data : Word) (errs : BitVec 72) (bad : BitVec 48) (a : AditAcc) (r : AditFrame)
    (rest : List AditAcc) (st : Status) (s : State),
    let fl := s.field f.val
    let base := pageFieldctl f.val
    let seq := s.pithead.aditSeq
    let crcs := pageAdit + 0x050
    let others := fun t : State => ∀ g, g ≠ f.val → t.field g = s.field g
    let ahead : Int := (s.now f.val : Int) - (((fl.nodeHi * 2 ^ 32 + data.toNat + fl.delay) % 2 ^ 64 : Nat) : Int)
    let counted := fun t : State => t.sreg crcs = BitVec.ofNat 32 (min ((s.sreg crcs).toNat + 1) 0xFFFFFFFF)
    let flies := fun (op ad d : Nat) (ans : Option AditFrame) (t : State) => t.pithead = { s.pithead with
      adit := s.pithead.adit ++ [⟨⟨op, f.val, seq, ad % 0x10000, d⟩, 1, false, s.time, ans⟩], aditSeq := (seq + 1) % 16 }
    let powered := fun (t : State) => flies 0x8 0 data.toNat (some ⟨0xF, f.val, seq, Status.ok.code * 256, data.toNat⟩) { t with
      pithead := { t.pithead with avsQueue := s.pithead.avsQueue, avsFree := s.pithead.avsFree } }
    let response := fun (st : Status) (d : Nat) => (some ⟨0xF, f.val, seq, st.code * 256, d⟩ : Option AditFrame)
    (r.op < 16 → r.node < 64 → r.seq < 16 → r.addr < 2 ^ 16 → r.data < 2 ^ 32 →
      r.word < 2 ^ 72 ∧ bits r.word 71 68 = r.op ∧ bits r.word 67 62 = r.node ∧ bits r.word 61 58 = r.seq ∧ bits r.word 57 42 = r.addr ∧
      bits r.word 39 8 = r.data ∧ AditFrame.read r.word = some r) ∧
    (s.pithead.inReset = false → AditFrame.hear ⟨0x5, f.val, seq, 0, 0⟩ errs = none → Completes (exec (.aditLoop f errs) s) fun t =>
      flies 0x5 0 0 none t ∧ counted t ∧ SregsBut [crcs] s t ∧ { t with pithead := s.pithead, regs := s.regs } = s) ∧
    (s.pithead.inReset = false → s.adits f.val = true → seq < 16 → errs = 0 →
      (Completes (exec (.aditLoop f errs) s) fun t =>
        flies 0x5 0 0 (response .ok 0) t ∧ { t with pithead := s.pithead } = s) ∧
      (fl.vcoreOn = true → s.pithead.boot ≠ .failed → s.latch = [] →
        (addr % 0x10000 = 0 → Completes (exec (.aditRead f addr errs) s) fun t =>
          flies 0x1 addr 0 (response .ok (0x10 * 2 ^ 20 + f.val * 2 ^ 8 + 1)) t ∧ t.regs = s.regs ∧ t.cores = s.cores) ∧
        (addr % 0x10000 = 0x014 → Completes (exec (.aditWrite f addr data errs) s) fun t =>
          flies 0x2 addr data.toNat (response .ok data.toNat) t ∧ (t.sreg (base + 0x014)).toNat % 16 = data.toNat % 16 ∧
          SregsBut [base + 0x014] s t ∧ t.cores = s.cores)) ∧
      (fl.vcoreOn = false → Completes (exec (.aditRead f addr errs) s) fun t =>
        flies 0x1 addr 0 (response .timeout 0) t ∧ { t with pithead := s.pithead } = s) ∧
      (Completes (exec (.aditTest f data errs) s) fun t =>
        flies 0x6 0 data.toNat (response .ok data.toNat) t ∧ (∃ k < 18, (t.field f.val).testStatus = k) ∧
        (data.toNat % 16 ≠ 3 → (t.field f.val).stitchFailed = fl.stitchFailed) ∧ others t ∧ t.cores = s.cores) ∧
      (Completes (exec (.aditScan f data errs) s) fun t =>
        (s.pithead.debugUnlocked = false → flies 0x7 0 data.toNat (response .denied 0) t) ∧
        (s.pithead.debugUnlocked = true → ∃ k < 2 ^ 32, flies 0x7 0 data.toNat (response .ok k) t) ∧
        { t with pithead := s.pithead, freeCtr := s.freeCtr } = s) ∧
      (fl.vcoreOn = false → bit data.toNat 0 = true → s.instanceFree f.val ≤ s.time →
        Completes (exec (.aditPower f data errs) s) fun t =>
        powered t ∧ t.instanceFree f.val = s.time + 640 ∧ (t.field f.val).vcoreOn = true ∧
        (t.field f.val).isolated = bit data.toNat 1 ∧ (t.field f.val).pllLocked = bit data.toNat 2 ∧
        (t.field f.val).setMv = s.setPoint f.val 0 ∧ others t ∧
        ∀ x : Site, x.field = f.val → x.foremanBlock = false → ∀ b < 16, (t.core x).bank b = .waking) ∧
      (fl.vcoreOn = true → bit data.toNat 0 = false → Completes (exec (.aditPower f data errs) s) fun t =>
        powered t ∧ (f.val, 0) ∈ t.pithead.avsQueue ∧ (t.field f.val).vcoreOn = false ∧ (t.field f.val).pllLocked = false ∧
        others t) ∧
      (Completes (exec (.foremanReset f errs) s) fun t =>
        flies 0x9 0 0 (response .ok 0) t ∧ (t.field f.val).foremanUp = false ∧ (t.field f.val).foremanMem = [] ∧
        (fl.bringup = .up → (t.field f.val).bringup = .foremanStopped) ∧ others t ∧ t.cores = s.cores) ∧
      (s.bringing = true → Completes (exec (.fieldReset f errs) s) fun t =>
        flies 0xA 0 0 (response .ok 0) t ∧ { t with pithead := s.pithead } = s) ∧
      (s.bringing = false → s.net = [] → Completes (exec (.fieldReset f errs) s) fun t =>
        flies 0xA 0 0 (response .ok 0) t ∧ (t.field f.val).bringup = .testing ∧ (t.field f.val).foremanUp = false ∧ others t ∧
        t.hbm = s.hbm) ∧
      (Completes (exec (.aditTimeHi f data errs) s) fun t =>
        t.field f.val = { fl with nodeHi := data.toNat } ∧ others t ∧ { t with fields := s.fields } = s) ∧
      (fl.nodeSet = false → 0 ≤ (s.time : Int) + fl.skew → Completes (exec (.aditTimeLo f data errs) s) fun t =>
        t.now f.val = (fl.nodeHi * 2 ^ 32 + data.toNat + fl.delay) % 2 ^ 64 ∧ (t.field f.val).nodeSet = true ∧ others t ∧
        { t with fields := s.fields } = s) ∧
      (fl.nodeSet = true → ahead.natAbs < 64 → Completes (exec (.aditTimeLo f data errs) s) fun t =>
        t.field f.val = { fl with slewLeft := ahead, slewFast := false, slewFrac := 0 } ∧ others t ∧
        t.sregBits (pageAdit + 0x058) 15 0 = max (s.sregBits (pageAdit + 0x058) 15 0) ahead.natAbs) ∧
      (Completes (exec (.timeBroadcast bad) s) fun t =>
        (if bad.getLsbD f.val then t.field f.val = fl else
          (t.field f.val).nodeSet = true ∧ (t.field f.val).nodeHi = s.time / 2 ^ 32 % 2 ^ 32 ∧
          (fl.nodeSet = false → -8 ≤ (t.field f.val).skew ∧ (t.field f.val).skew ≤ 8)) ∧ t.cores = s.cores)) ∧
    (s.pithead.adit = a :: rest → a.request.node = f.val →
      (a.answer = some r → a ∉ rest →
        (r = AditFrame.response a.request st n → n < 2 ^ 32 → a.request.seq < 16 → Completes (exec (.aditResponse f 0) s) fun t =>
          t.pithead.adit = rest ∧ t.reply = ⟨st, (List.range 4).map fun k => BitVec.ofNat 8 (n / 256 ^ k), .served⟩ ∧
          { t with pithead := s.pithead, reply := s.reply } = s) ∧
        (AditFrame.hear r errs = none → Completes (exec (.aditResponse f errs) s) fun t =>
          t.pithead.adit = { a with answer := none } :: rest ∧ counted t ∧ SregsBut [crcs] s t ∧
          { t with pithead := s.pithead, regs := s.regs } = s)) ∧
      (rest = [] → a.request.op = 0x5 → a.request.data < 2 ^ 32 → seq < 16 → s.time ≤ a.sent + 3000 →
        (s.adits f.val = true → a.tries < 3 → Completes (exec (.aditTimeout f 0) s) fun t =>
          t.time = a.sent + 3000 ∧ t.cores = s.cores ∧ t.pithead.adit = [⟨{ a.request with seq := seq }, a.tries + 1, a.switched,
            a.sent + 3000, response .ok a.request.data⟩]) ∧
        (fl.unreachable = false → 3 ≤ a.tries → a.switched = false → Completes (exec (.aditTimeout f errs) s) fun t =>
          (t.field f.val).altParent = !fl.altParent ∧ (∃ b, t.pithead.adit = [b] ∧ b.tries = 1 ∧ b.switched = true) ∧
          Logged f.val 0x1106 (fieldWord f.val 0) t ∧ t.cores = s.cores) ∧
        (fl.unreachable = false → 3 ≤ a.tries → a.switched = true → s.net = [] → Completes (exec (.aditTimeout f errs) s) fun t =>
          (t.field f.val).unreachable = true ∧ (t.field f.val).bringup = .lost ∧ t.pithead.adit = [] ∧
          t.reply = ⟨.timeout, [], .served⟩ ∧ Logged f.val 0x1104 (fieldWord f.val 0) t)))

/-- R550 to R552: what the SMBus target answers; the acknowledgement of an alert; a rim rail that fails takes its stacks or its
links and ports with it.
That a wrong PEC byte makes the target ignore an acknowledgement is the model's choice (log 116). -/
def Obligations.ModuleInterface : Prop :=
  ∀ (f : FieldNo) (good : BitVec 55) (pec : Option Byte) (rail : Fin 7) (s : State), s.pithead.inReset = false → s.smbusOn = true →
    let p := s.pithead
    let reads := fun (bs : List Nat) o => Completes o fun t =>
      t.reply = ⟨.ok, bs.map (BitVec.ofNat 8), .served⟩ ∧ { t with reply := s.reply } = s
    let little := fun (n v : Nat) => (List.range n).map fun k => v / 256 ^ k % 256
    let temp := fun g : Nat => (s.sreg (pageFieldpwr g + 0x04C)).toNat
    (∃ b : Byte, reads [b.toNat] (exec .smbusStatus s) ∧ b.getLsbD 0 = s.flash.stopped ∧
      (b.getLsbD 1 = true ↔ p.boot = .halted ∨ p.boot = .failed) ∧ b.getLsbD 2 = p.capUnmet ∧
      (b.getLsbD 3 = true ↔ p.railFault ≠ 0) ∧ b.getLsbD 4 = p.stale ∧ b.getLsbD 5 = p.lapsed ∧ b.toNat < 64) ∧
    reads [match p.boot with | .rom => 0 | .bringup => 1 | .ready => 2 | .halted => 3 | .failed => 4 | .harvesting => 5]
      (exec .bootState s) ∧
    reads (little 2 (s.sregBits (pageModpwr + 0x05C) 15 0)) (exec .smbusPower s) ∧
    reads (little 8 p.railFault) (exec .railFault s) ∧
    reads (little 8 s.flash.serial) (exec .serial s) ∧
    reads [if s.flash.stopped then s.flash.stopCause % 4 else 0] (exec .stopCause s) ∧
    (temp f.val % 32 < 16 → (∀ g < 48, g ≠ f.val → 16 ≤ temp g % 32) → reads (little 2 (temp f.val / 2 ^ 16)) (exec .temp s)) ∧
    ((∀ g < 48, 16 ≤ temp g % 32) → Completes (exec .temp s) fun t =>
      t.reply.status = .ok ∧ t.reply.bytes.length = 2 ∧ { t with reply := s.reply, freeCtr := s.freeCtr } = s) ∧
    (pec ≠ none → pec ≠ some (BitVec.ofNat 8 alertAckPec) → exec (.alertAck good pec) s = .next s) ∧
    ((pec = none ∨ pec = some (BitVec.ofNat 8 alertAckPec)) → Completes (exec (.alertAck good pec) s) fun t =>
      (∀ i < 55, bit t.pithead.railFault i = (bit p.railFault i && !good.getLsbD i)) ∧ t.pithead.railFault < 2 ^ 55 ∧
      { t with pithead := p } = s ∧ { t.pithead with railFault := p.railFault } = p) ∧
    (rail.val < 2 → Completes (exec (.rimRailFault rail) s) fun t =>
      t = { s with pithead := { p with railFault := p.railFault ||| 2 ^ (48 + rail.val) } }) ∧
    (2 ≤ rail.val → rail.val < 4 → p.job = none → (∀ h < 208, (s.hoist h).run = none) →
      Completes (exec (.rimRailFault rail) s) fun t =>
        (∀ n < 96, (t.seam n).state = .down ∧ (t.seam n).cause = 2) ∧
        (∀ k < 2, (t.port k).msix = []) ∧ t.pithead.railFault = p.railFault ||| 2 ^ (48 + rail.val)) ∧
    (4 ≤ rail.val → p.job = none → Completes (exec (.rimRailFault rail) s) fun t =>
      (∀ n < 32, t.stackState n = 3) ∧ t.cores = s.cores ∧
      t.pithead.railFault = p.railFault ||| 2 ^ (48 + rail.val))

/-! ## The whole machine -/

/-- R40, R41, R44, R46, R63, R170, R171, R318, R455, R485, R489, R490, R553: the engine after a module cold reset waits for MOD_RESET_N; every field is
parked and down, every register of a page holds its Reset value, no thread runs, nothing is on the wafer, and no command
waits. -/
def Obligations.ResetState : Prop :=
  let s := State.reset
  s.pending = [] ∧ s.net = [] ∧ s.time = 0 ∧ s.pithead.inReset = true ∧ s.pithead.boot = .rom ∧ s.pithead.job = none ∧
  (∀ f, (s.field f).power = .parked ∧ (s.field f).bringup = .down ∧ (s.field f).vcoreOn = false ∧ (s.field f).errlog = []) ∧
  (∀ (x : Site) (k : Nat), (s.thread x k).state = .stopped ∧ (s.thread x k).handler = false ∧ (s.thread x k).get 0 = 0) ∧
  (∀ x : Site, s.coreOn x = false ∧ (∀ b, (s.core x).bank b = .active) ∧
    (∀ o, (s.core x).reg o = regReset corePageRegs o) ∧ (s.core x).book = [] ∧ (s.core x).active = none) ∧
  (∀ off code inst, pageAt off = some (code, inst) → s.sreg off = regReset (blockRegs code) (off % 0x1000)) ∧
  (∀ n, (s.seam n).state = .off ∧ s.stackState n = 0 ∧ (s.hoist n).run = none) ∧
  (∀ p, (s.port p).cur = none ∧ (s.port p).next = none)

/-- R552: the commands that move traffic through galleries or rim blocks stop while the rail of the galleries or the auxiliary
rail is out of tolerance, where the rule calls what happens undefined; every other command answers a next state, and with
both rails good so does every command.
Which commands count as such traffic is the model's reading (log 154, DEDUCED). -/
def Obligations.EveryOtherCommandCompletes : Prop :=
  ∀ (c : Instr) (s : State), (∃ t, exec c s = .next t) ∨ (exec c s = .fault .galleryRailLost ∧ s.rimLost = true ∧
    ((∃ x p, c = .headRoute x p) ∨ (∃ n p, c = .seamEgress n p) ∨ (∃ n p, c = .seamIngress n p) ∨
      (∃ n, c = .frameSend n) ∨ (∃ n q, c = .dataFrame n q) ∨ (∃ h bad, c = .copy h bad) ∨ (∃ h, c = .fill h) ∨
      (∃ h bad, c = .turn h bad) ∨ (∃ h bad, c = .pack h bad) ∨ (∃ p o n, c = .bar2Read p o n) ∨ ∃ p o d, c = .bar2Write p o d))

/-- No command changes the queue of the commands that wait, and a step takes exactly the one at its front; with none, time
passes (the model's own tick, log entries 1 and 2). -/
def Obligations.CommandsKeepTheQueue : Prop :=
  (∀ (c : Instr) (s t : State), exec c s = .next t → t.pending = s.pending) ∧
  (∀ s t : State, step s = .next t → t.pending = s.pending.tail) ∧
  ∀ s : State, s.pending = [] → Completes (step s) fun t => t.time = s.time + 1 ∧ t.cores = s.cores ∧ t.net = s.net ∧ t.regs = s.regs

/-- Every step keeps every memory of the engine in canonical form: HBM, the memories of both hosts, the SRAM of every core and
the memory of every foreman list no address twice, none out of order, and no byte that an unlisted address reads as. -/
def Obligations.StepsKeepMemoriesCanonical : Prop :=
  ∀ s t : State, step s = .next t →
    s.memoriesWf = true → (∀ x : Site, (s.core x).memoryWf = true) → (∀ f, (s.field f).memoryWf = true) →
    t.memoriesWf = true ∧ (∀ x : Site, (t.core x).memoryWf = true) ∧ ∀ f, (t.field f).memoryWf = true

/-- The memories of the engine after reset are in that form. -/
def Obligations.ResetMemoriesCanonical : Prop :=
  State.reset.memoriesWf = true ∧ (∀ x : Site, (State.reset.core x).memoryWf = true) ∧
    ∀ f, (State.reset.field f).memoryWf = true

/-- R173, R174, R176, R181 to R197: the word of every well-formed core instruction, written from the encoding tables, is decoded as that
instruction, with every operand at every value its field admits. -/
def Obligations.DecodeOfEncode : Prop :=
  (∀ (c : Instr) (i : Iss), guardOf c = some i → wellFormed c = true →
    ∃ w, Isa.encode c = some w ∧ w < 2 ^ 32 ∧ decodeWord i.site i.thread (BitVec.ofNat 32 w) = some c) ∧
  ∀ (x : Site) (t : Fin 4) (d : GReg) (imm : BitVec 21) (h : Fin 4) (imm16 : BitVec 16),
    (∃ w, Isa.encode (.movi x t d imm) = some w ∧ w < 2 ^ 32 ∧ decodeWord x t (BitVec.ofNat 32 w) = some (.movi x t d imm)) ∧
    ∃ w, Isa.encode (.movsh x t d h imm16) = some w ∧ w < 2 ^ 32 ∧
      decodeWord x t (BitVec.ofNat 32 w) = some (.movsh x t d h imm16)
end

