-- ==== Sys2Proof/Laws/Store.lean ====
section
/-! SUPPORT. Laws of the sparse map (read after write, canonical form) and of the memories built from it. -/

namespace Sys2Proof.SMap

variable {α : Type} {d : Nat → α} {m : SMap α} {k j : Nat} {v : α}

/-- Every listed key is at least `k`. -/
def From (k : Nat) (m : SMap α) : Prop := ∀ p ∈ m, k ≤ p.1

/-- The canonical form without its bound on values: keys strictly rising. -/
def Rising : SMap α → Prop
  | [] => True
  | (a, _) :: t => From (a + 1) t ∧ Rising t

/-- No listed value is what an unlisted key reads as. -/
def Sparse (d : Nat → α) (m : SMap α) : Prop := ∀ p ∈ m, p.2 ≠ d p.1

theorem From.mono {k' : Nat} (h : From k m) (hk : k' ≤ k) : From k' m := fun p hp => Nat.le_trans hk (h p hp)

theorem get_put (m : SMap α) : get d (put m k v) j = if j = k then v else get d m j := by
  induction m with
  | nil => grind [put, get]
  | cons p t ih => grind [put, get]

theorem get_del (m : SMap α) : get d (del m k) j = if j = k then d k else get d m j := by
  induction m with
  | nil => grind [del, get]
  | cons p t ih => grind [del, get]

/-- Read after write: the written key gives the value, every other key what it gave. -/
theorem get_set [DecidableEq α] (m : SMap α) : get d (set d m k v) j = if j = k then v else get d m j := by
  unfold set
  split
  · rename_i hv; rw [get_del, hv]
  · exact get_put m

@[simp] theorem get_set_same [DecidableEq α] (m : SMap α) : get d (set d m k v) k = v := by simp [get_set]
theorem get_set_other [DecidableEq α] (m : SMap α) (h : j ≠ k) : get d (set d m k v) j = get d m j := by
  simp [get_set, h]

theorem from_put (h : From j m) (hk : j ≤ k) : From j (put m k v) := by
  induction m with
  | nil => intro p hp; simp [put] at hp; subst hp; exact hk
  | cons q t ih =>
    obtain ⟨a, w⟩ := q
    have ha : j ≤ a := h (a, w) (by simp)
    have ht : From j t := fun p hp => h p (by simp [hp])
    intro p hp
    simp only [put] at hp
    split at hp
    · simp at hp; rcases hp with rfl | rfl | hp
      · exact hk
      · exact ha
      · exact ht p hp
    · split at hp
      · simp at hp; rcases hp with rfl | hp
        · exact hk
        · exact ht p hp
      · simp at hp; rcases hp with rfl | hp
        · exact ha
        · exact ih ht p hp

theorem from_del (h : From j m) : From j (del m k) := fun p hp => h p (List.mem_filter.1 hp).1

theorem rising_put (h : Rising m) : Rising (put m k v) := by
  induction m with
  | nil => exact ⟨fun p hp => by simp at hp, trivial⟩
  | cons q t ih =>
    obtain ⟨a, w⟩ := q
    obtain ⟨hf, ht⟩ := h
    simp only [put]
    split
    · refine ⟨?_, hf, ht⟩
      intro p hp; simp at hp; rcases hp with rfl | hp
      · simp; omega
      · have := hf p hp; omega
    · split
      · subst_vars; exact ⟨hf, ht⟩
      · exact ⟨from_put hf (by omega), ih ht⟩

theorem rising_del (h : Rising m) : Rising (del m k) := by
  induction m with
  | nil => exact h
  | cons q t ih =>
    have ht := ih h.2
    have hf := from_del (k := k) h.1
    simp only [del, List.filter_cons]
    split
    · exact ⟨hf, ht⟩
    · exact ht

theorem sparse_put (h : Sparse d m) (hv : v ≠ d k) : Sparse d (put m k v) := by
  induction m with
  | nil => intro p hp; simp [put] at hp; subst hp; exact hv
  | cons q t ih =>
    obtain ⟨a, w⟩ := q
    have ht : Sparse d t := fun p hp => h p (by simp [hp])
    have ha := h (a, w) (by simp)
    intro p hp
    simp only [put] at hp
    split at hp
    · simp at hp; rcases hp with rfl | rfl | hp
      · exact hv
      · exact ha
      · exact ht p hp
    · split at hp
      · simp at hp; rcases hp with rfl | hp
        · exact hv
        · exact ht p hp
      · simp at hp; rcases hp with rfl | hp
        · exact ha
        · exact ih ht p hp

theorem sparse_del (h : Sparse d m) : Sparse d (del m k) := fun p hp => h p (List.mem_filter.1 hp).1

/-- The canonical form is: keys strictly rising, and no value an unlisted key reads as. -/
theorem wf_iff [DecidableEq α] : wf d m = true ↔ Rising m ∧ Sparse d m := by
  induction m with
  | nil => simp [wf, Rising, Sparse]
  | cons q t ih =>
    obtain ⟨a, w⟩ := q
    cases t with
    | nil => simp [wf, Rising, Sparse, From]
    | cons r u =>
      obtain ⟨b, x⟩ := r
      simp only [wf, Bool.and_eq_true, decide_eq_true_eq, ih]
      constructor
      · rintro ⟨⟨hw, hab⟩, ⟨hf, hu⟩, hl⟩
        refine ⟨⟨?_, hf, hu⟩, ?_⟩
        · intro p hp; simp at hp; rcases hp with rfl | hp
          · exact hab
          · have := hf p hp; omega
        · intro p hp; simp at hp; rcases hp with rfl | hp
          · exact hw
          · exact hl p (by simpa using hp)
      · rintro ⟨⟨hf, hr⟩, hl⟩
        refine ⟨⟨hl (a, w) (by simp), hf (b, x) (by simp)⟩, hr, fun p hp => hl p (by simp at hp ⊢; exact .inr hp)⟩

theorem rising_set [DecidableEq α] (h : Rising m) : Rising (set d m k v) := by
  unfold set; split
  · exact rising_del h
  · exact rising_put h

/-- A write keeps the canonical form. -/
theorem wf_set [DecidableEq α] (h : wf d m = true) : wf d (set d m k v) = true := by
  rw [wf_iff] at h ⊢
  refine ⟨rising_set h.1, ?_⟩
  unfold set; split
  · exact sparse_del h.2
  · exact sparse_put h.2 ‹_›

/-- What a key reads as once a function has been applied to every listed value. -/
theorem get_mapVals [DecidableEq α] (f : Nat → α → α) (m : SMap α) :
    get d (mapVals d f m) k = if k ∈ m.map Prod.fst then f k (get d m k) else d k := by
  induction m with
  | nil => simp [mapVals, get]
  | cons p t ih =>
    simp only [mapVals, List.foldr_cons] at ih ⊢
    rw [get_set, ih]
    grind [get]

theorem wf_mapVals [DecidableEq α] (f : Nat → α → α) (m : SMap α) : wf d (mapVals d f m) = true := by
  induction m with
  | nil => rfl
  | cons p t ih => exact wf_set ih

end Sys2Proof.SMap

namespace Sys2Proof.Machine

open Sys2Proof

/-- Writing bytes keeps a memory's canonical form. -/
theorem putBytes_wf (bs : List Nat) : ∀ (m : SMap Byte) (k : Nat), SMap.wf (fun _ => 0) m = true →
    SMap.wf (fun _ => 0) (putBytes m k bs) = true := by
  induction bs with
  | nil => intro m k h; exact h
  | cons b bs ih => intro m k h; exact ih _ _ (SMap.wf_set h)

/-- What an address reads as after bytes are written from `k` on. -/
theorem putBytes_get (bs : List Nat) : ∀ (m : SMap Byte) (k j : Nat),
    (putBytes m k bs).get (fun _ => 0) j =
      if k ≤ j ∧ j < k + bs.length then BitVec.ofNat 8 (bs.getD (j - k) 0) else m.get (fun _ => 0) j := by
  induction bs with
  | nil => intro m k j; rw [putBytes, if_neg (by rintro ⟨h1, h2⟩; simp only [List.length_nil] at h2; omega)]
  | cons b bs ih =>
    intro m k j
    rw [putBytes, ih, SMap.get_set]
    by_cases hj : j = k
    · subst hj
      have h1 : ¬(j + 1 ≤ j ∧ j < j + 1 + bs.length) := by omega
      have h2 : j ≤ j ∧ j < j + (b :: bs).length := by simp
      rw [if_neg h1, if_pos h2]; simp
    · by_cases hr : k + 1 ≤ j ∧ j < k + 1 + bs.length
      · have h2 : k ≤ j ∧ j < k + (b :: bs).length := by simp; omega
        rw [if_pos hr, if_pos h2]
        obtain ⟨n, rfl⟩ : ∃ n, j = k + 1 + n := ⟨j - k - 1, by omega⟩
        have e1 : k + 1 + n - (k + 1) = n := by omega
        have e2 : k + 1 + n - k = n + 1 := by omega
        rw [e1, e2]; simp
      · have h2 : ¬(k ≤ j ∧ j < k + (b :: bs).length) := by simp; omega
        rw [if_neg hr, if_neg h2, if_neg hj]

theorem putHbm_wf (s : State) (a : Nat) (bs : List Nat) (h : SMap.wf (fun _ => 0) s.hbm = true) :
    SMap.wf (fun _ => 0) (s.putHbm a bs).hbm = true := putBytes_wf bs s.hbm _ h

theorem putHost_wf (s : State) (p a : Nat) (bs : List Nat)
    (ha : SMap.wf (fun _ => 0) s.hostA = true) (hb : SMap.wf (fun _ => 0) s.hostB = true) :
    SMap.wf (fun _ => 0) (s.putHost p a bs).hostA = true ∧ SMap.wf (fun _ => 0) (s.putHost p a bs).hostB = true := by
  unfold State.putHost
  split
  · exact ⟨putBytes_wf bs s.hostA _ ha, hb⟩
  · exact ⟨ha, putBytes_wf bs s.hostB _ hb⟩

end Sys2Proof.Machine
end

