-- ==== Sys2Proof/Laws/Core.lean ====
section
/-! SUPPORT. What each update of a core's state leaves: one lemma per field and update, read after write for the named
parts, and the same for a thread's registers. -/

namespace Sys2Proof.Machine

variable (c : Core)

/-! ## setReg -/

@[simp] theorem Core.setReg_threads (off : Nat) (v : Word) : (c.setReg off v).threads = c.threads := rfl
@[simp] theorem Core.setReg_v (off : Nat) (v : Word) : (c.setReg off v).v = c.v := rfl
@[simp] theorem Core.setReg_ibuf (off : Nat) (v : Word) : (c.setReg off v).ibuf = c.ibuf := rfl
@[simp] theorem Core.setReg_sram (off : Nat) (v : Word) : (c.setReg off v).sram = c.sram := rfl
@[simp] theorem Core.setReg_ecc (off : Nat) (v : Word) : (c.setReg off v).ecc = c.ecc := rfl
@[simp] theorem Core.setReg_banks (off : Nat) (v : Word) : (c.setReg off v).banks = c.banks := rfl
@[simp] theorem Core.setReg_wins (off : Nat) (v : Word) : (c.setReg off v).wins = c.wins := rfl
@[simp] theorem Core.setReg_tallies (off : Nat) (v : Word) : (c.setReg off v).tallies = c.tallies := rfl
@[simp] theorem Core.setReg_chutes (off : Nat) (v : Word) : (c.setReg off v).chutes = c.chutes := rfl
@[simp] theorem Core.setReg_chuteWait (off : Nat) (v : Word) : (c.setReg off v).chuteWait = c.chuteWait := rfl
@[simp] theorem Core.setReg_book (off : Nat) (v : Word) : (c.setReg off v).book = c.book := rfl
@[simp] theorem Core.setReg_bookUse (off : Nat) (v : Word) : (c.setReg off v).bookUse = c.bookUse := rfl
@[simp] theorem Core.setReg_tags (off : Nat) (v : Word) : (c.setReg off v).tags = c.tags := rfl
@[simp] theorem Core.setReg_tagEpoch (off : Nat) (v : Word) : (c.setReg off v).tagEpoch = c.tagEpoch := rfl
@[simp] theorem Core.setReg_missWait (off : Nat) (v : Word) : (c.setReg off v).missWait = c.missWait := rfl
@[simp] theorem Core.setReg_shifts (off : Nat) (v : Word) : (c.setReg off v).shifts = c.shifts := rfl
@[simp] theorem Core.setReg_active (off : Nat) (v : Word) : (c.setReg off v).active = c.active := rfl
@[simp] theorem Core.setReg_entering (off : Nat) (v : Word) : (c.setReg off v).entering = c.entering := rfl
@[simp] theorem Core.setReg_cursorPos (off : Nat) (v : Word) : (c.setReg off v).cursorPos = c.cursorPos := rfl
@[simp] theorem Core.setReg_delay (off : Nat) (v : Word) : (c.setReg off v).delay = c.delay := rfl
@[simp] theorem Core.setReg_inputs (off : Nat) (v : Word) : (c.setReg off v).inputs = c.inputs := rfl
@[simp] theorem Core.setReg_reads (off : Nat) (v : Word) : (c.setReg off v).reads = c.reads := rfl
@[simp] theorem Core.setReg_steer (off : Nat) (v : Word) : (c.setReg off v).steer = c.steer := rfl
@[simp] theorem Core.setReg_shiftLoad (off : Nat) (v : Word) : (c.setReg off v).shiftLoad = c.shiftLoad := rfl
@[simp] theorem Core.setReg_array (off : Nat) (v : Word) : (c.setReg off v).array = c.array := rfl
@[simp] theorem Core.setReg_spmv (off : Nat) (v : Word) : (c.setReg off v).spmv = c.spmv := rfl
@[simp] theorem Core.setReg_spmvLast (off : Nat) (v : Word) : (c.setReg off v).spmvLast = c.spmvLast := rfl
@[simp] theorem Core.setReg_rng (off : Nat) (v : Word) : (c.setReg off v).rng = c.rng := rfl
@[simp] theorem Core.setReg_seedLo (off : Nat) (v : Word) : (c.setReg off v).seedLo = c.seedLo := rfl
@[simp] theorem Core.setReg_cycles (off : Nat) (v : Word) : (c.setReg off v).cycles = c.cycles := rfl
@[simp] theorem Core.setReg_eidLocal (off : Nat) (v : Word) : (c.setReg off v).eidLocal = c.eidLocal := rfl
@[simp] theorem Core.setReg_shiftRaised (off : Nat) (v : Word) : (c.setReg off v).shiftRaised = c.shiftRaised := rfl
@[simp] theorem Core.setReg_latch (off : Nat) (v : Word) : (c.setReg off v).latch = c.latch := rfl
@[simp] theorem Core.setReg_holdReq (off : Nat) (v : Word) : (c.setReg off v).holdReq = c.holdReq := rfl
@[simp] theorem Core.setReg_schedRun (off : Nat) (v : Word) : (c.setReg off v).schedRun = c.schedRun := rfl
@[simp] theorem Core.setReg_wakeAt (off : Nat) (v : Word) : (c.setReg off v).wakeAt = c.wakeAt := rfl
@[simp] theorem Core.setReg_holdFrom (off : Nat) (v : Word) : (c.setReg off v).holdFrom = c.holdFrom := rfl
@[simp] theorem Core.setReg_conflictFrom (off : Nat) (v : Word) : (c.setReg off v).conflictFrom = c.conflictFrom := rfl
@[simp] theorem Core.setReg_scrubAt (off : Nat) (v : Word) : (c.setReg off v).scrubAt = c.scrubAt := rfl

/-! ## setThread -/

@[simp] theorem Core.setThread_regs (t : Nat) (v : Thread) : (c.setThread t v).regs = c.regs := rfl
@[simp] theorem Core.setThread_v (t : Nat) (v : Thread) : (c.setThread t v).v = c.v := rfl
@[simp] theorem Core.setThread_ibuf (t : Nat) (v : Thread) : (c.setThread t v).ibuf = c.ibuf := rfl
@[simp] theorem Core.setThread_sram (t : Nat) (v : Thread) : (c.setThread t v).sram = c.sram := rfl
@[simp] theorem Core.setThread_ecc (t : Nat) (v : Thread) : (c.setThread t v).ecc = c.ecc := rfl
@[simp] theorem Core.setThread_banks (t : Nat) (v : Thread) : (c.setThread t v).banks = c.banks := rfl
@[simp] theorem Core.setThread_wins (t : Nat) (v : Thread) : (c.setThread t v).wins = c.wins := rfl
@[simp] theorem Core.setThread_tallies (t : Nat) (v : Thread) : (c.setThread t v).tallies = c.tallies := rfl
@[simp] theorem Core.setThread_chutes (t : Nat) (v : Thread) : (c.setThread t v).chutes = c.chutes := rfl
@[simp] theorem Core.setThread_chuteWait (t : Nat) (v : Thread) : (c.setThread t v).chuteWait = c.chuteWait := rfl
@[simp] theorem Core.setThread_book (t : Nat) (v : Thread) : (c.setThread t v).book = c.book := rfl
@[simp] theorem Core.setThread_bookUse (t : Nat) (v : Thread) : (c.setThread t v).bookUse = c.bookUse := rfl
@[simp] theorem Core.setThread_tags (t : Nat) (v : Thread) : (c.setThread t v).tags = c.tags := rfl
@[simp] theorem Core.setThread_tagEpoch (t : Nat) (v : Thread) : (c.setThread t v).tagEpoch = c.tagEpoch := rfl
@[simp] theorem Core.setThread_missWait (t : Nat) (v : Thread) : (c.setThread t v).missWait = c.missWait := rfl
@[simp] theorem Core.setThread_shifts (t : Nat) (v : Thread) : (c.setThread t v).shifts = c.shifts := rfl
@[simp] theorem Core.setThread_active (t : Nat) (v : Thread) : (c.setThread t v).active = c.active := rfl
@[simp] theorem Core.setThread_entering (t : Nat) (v : Thread) : (c.setThread t v).entering = c.entering := rfl
@[simp] theorem Core.setThread_cursorPos (t : Nat) (v : Thread) : (c.setThread t v).cursorPos = c.cursorPos := rfl
@[simp] theorem Core.setThread_delay (t : Nat) (v : Thread) : (c.setThread t v).delay = c.delay := rfl
@[simp] theorem Core.setThread_inputs (t : Nat) (v : Thread) : (c.setThread t v).inputs = c.inputs := rfl
@[simp] theorem Core.setThread_reads (t : Nat) (v : Thread) : (c.setThread t v).reads = c.reads := rfl
@[simp] theorem Core.setThread_steer (t : Nat) (v : Thread) : (c.setThread t v).steer = c.steer := rfl
@[simp] theorem Core.setThread_shiftLoad (t : Nat) (v : Thread) : (c.setThread t v).shiftLoad = c.shiftLoad := rfl
@[simp] theorem Core.setThread_array (t : Nat) (v : Thread) : (c.setThread t v).array = c.array := rfl
@[simp] theorem Core.setThread_spmv (t : Nat) (v : Thread) : (c.setThread t v).spmv = c.spmv := rfl
@[simp] theorem Core.setThread_spmvLast (t : Nat) (v : Thread) : (c.setThread t v).spmvLast = c.spmvLast := rfl
@[simp] theorem Core.setThread_rng (t : Nat) (v : Thread) : (c.setThread t v).rng = c.rng := rfl
@[simp] theorem Core.setThread_seedLo (t : Nat) (v : Thread) : (c.setThread t v).seedLo = c.seedLo := rfl
@[simp] theorem Core.setThread_cycles (t : Nat) (v : Thread) : (c.setThread t v).cycles = c.cycles := rfl
@[simp] theorem Core.setThread_eidLocal (t : Nat) (v : Thread) : (c.setThread t v).eidLocal = c.eidLocal := rfl
@[simp] theorem Core.setThread_shiftRaised (t : Nat) (v : Thread) : (c.setThread t v).shiftRaised = c.shiftRaised := rfl
@[simp] theorem Core.setThread_latch (t : Nat) (v : Thread) : (c.setThread t v).latch = c.latch := rfl
@[simp] theorem Core.setThread_holdReq (t : Nat) (v : Thread) : (c.setThread t v).holdReq = c.holdReq := rfl
@[simp] theorem Core.setThread_schedRun (t : Nat) (v : Thread) : (c.setThread t v).schedRun = c.schedRun := rfl
@[simp] theorem Core.setThread_wakeAt (t : Nat) (v : Thread) : (c.setThread t v).wakeAt = c.wakeAt := rfl
@[simp] theorem Core.setThread_holdFrom (t : Nat) (v : Thread) : (c.setThread t v).holdFrom = c.holdFrom := rfl
@[simp] theorem Core.setThread_conflictFrom (t : Nat) (v : Thread) : (c.setThread t v).conflictFrom = c.conflictFrom := rfl
@[simp] theorem Core.setThread_scrubAt (t : Nat) (v : Thread) : (c.setThread t v).scrubAt = c.scrubAt := rfl

/-! ## setVreg -/

@[simp] theorem Core.setVreg_regs (r : Nat) (v : VWord) : (c.setVreg r v).regs = c.regs := rfl
@[simp] theorem Core.setVreg_threads (r : Nat) (v : VWord) : (c.setVreg r v).threads = c.threads := rfl
@[simp] theorem Core.setVreg_ibuf (r : Nat) (v : VWord) : (c.setVreg r v).ibuf = c.ibuf := rfl
@[simp] theorem Core.setVreg_sram (r : Nat) (v : VWord) : (c.setVreg r v).sram = c.sram := rfl
@[simp] theorem Core.setVreg_ecc (r : Nat) (v : VWord) : (c.setVreg r v).ecc = c.ecc := rfl
@[simp] theorem Core.setVreg_banks (r : Nat) (v : VWord) : (c.setVreg r v).banks = c.banks := rfl
@[simp] theorem Core.setVreg_wins (r : Nat) (v : VWord) : (c.setVreg r v).wins = c.wins := rfl
@[simp] theorem Core.setVreg_tallies (r : Nat) (v : VWord) : (c.setVreg r v).tallies = c.tallies := rfl
@[simp] theorem Core.setVreg_chutes (r : Nat) (v : VWord) : (c.setVreg r v).chutes = c.chutes := rfl
@[simp] theorem Core.setVreg_chuteWait (r : Nat) (v : VWord) : (c.setVreg r v).chuteWait = c.chuteWait := rfl
@[simp] theorem Core.setVreg_book (r : Nat) (v : VWord) : (c.setVreg r v).book = c.book := rfl
@[simp] theorem Core.setVreg_bookUse (r : Nat) (v : VWord) : (c.setVreg r v).bookUse = c.bookUse := rfl
@[simp] theorem Core.setVreg_tags (r : Nat) (v : VWord) : (c.setVreg r v).tags = c.tags := rfl
@[simp] theorem Core.setVreg_tagEpoch (r : Nat) (v : VWord) : (c.setVreg r v).tagEpoch = c.tagEpoch := rfl
@[simp] theorem Core.setVreg_missWait (r : Nat) (v : VWord) : (c.setVreg r v).missWait = c.missWait := rfl
@[simp] theorem Core.setVreg_shifts (r : Nat) (v : VWord) : (c.setVreg r v).shifts = c.shifts := rfl
@[simp] theorem Core.setVreg_active (r : Nat) (v : VWord) : (c.setVreg r v).active = c.active := rfl
@[simp] theorem Core.setVreg_entering (r : Nat) (v : VWord) : (c.setVreg r v).entering = c.entering := rfl
@[simp] theorem Core.setVreg_cursorPos (r : Nat) (v : VWord) : (c.setVreg r v).cursorPos = c.cursorPos := rfl
@[simp] theorem Core.setVreg_delay (r : Nat) (v : VWord) : (c.setVreg r v).delay = c.delay := rfl
@[simp] theorem Core.setVreg_inputs (r : Nat) (v : VWord) : (c.setVreg r v).inputs = c.inputs := rfl
@[simp] theorem Core.setVreg_reads (r : Nat) (v : VWord) : (c.setVreg r v).reads = c.reads := rfl
@[simp] theorem Core.setVreg_steer (r : Nat) (v : VWord) : (c.setVreg r v).steer = c.steer := rfl
@[simp] theorem Core.setVreg_shiftLoad (r : Nat) (v : VWord) : (c.setVreg r v).shiftLoad = c.shiftLoad := rfl
@[simp] theorem Core.setVreg_array (r : Nat) (v : VWord) : (c.setVreg r v).array = c.array := rfl
@[simp] theorem Core.setVreg_spmv (r : Nat) (v : VWord) : (c.setVreg r v).spmv = c.spmv := rfl
@[simp] theorem Core.setVreg_spmvLast (r : Nat) (v : VWord) : (c.setVreg r v).spmvLast = c.spmvLast := rfl
@[simp] theorem Core.setVreg_rng (r : Nat) (v : VWord) : (c.setVreg r v).rng = c.rng := rfl
@[simp] theorem Core.setVreg_seedLo (r : Nat) (v : VWord) : (c.setVreg r v).seedLo = c.seedLo := rfl
@[simp] theorem Core.setVreg_cycles (r : Nat) (v : VWord) : (c.setVreg r v).cycles = c.cycles := rfl
@[simp] theorem Core.setVreg_eidLocal (r : Nat) (v : VWord) : (c.setVreg r v).eidLocal = c.eidLocal := rfl
@[simp] theorem Core.setVreg_shiftRaised (r : Nat) (v : VWord) : (c.setVreg r v).shiftRaised = c.shiftRaised := rfl
@[simp] theorem Core.setVreg_latch (r : Nat) (v : VWord) : (c.setVreg r v).latch = c.latch := rfl
@[simp] theorem Core.setVreg_holdReq (r : Nat) (v : VWord) : (c.setVreg r v).holdReq = c.holdReq := rfl
@[simp] theorem Core.setVreg_schedRun (r : Nat) (v : VWord) : (c.setVreg r v).schedRun = c.schedRun := rfl
@[simp] theorem Core.setVreg_wakeAt (r : Nat) (v : VWord) : (c.setVreg r v).wakeAt = c.wakeAt := rfl
@[simp] theorem Core.setVreg_holdFrom (r : Nat) (v : VWord) : (c.setVreg r v).holdFrom = c.holdFrom := rfl
@[simp] theorem Core.setVreg_conflictFrom (r : Nat) (v : VWord) : (c.setVreg r v).conflictFrom = c.conflictFrom := rfl
@[simp] theorem Core.setVreg_scrubAt (r : Nat) (v : VWord) : (c.setVreg r v).scrubAt = c.scrubAt := rfl

/-! ## setTally -/

@[simp] theorem Core.setTally_regs (i : Nat) (v : Tally) : (c.setTally i v).regs = c.regs := rfl
@[simp] theorem Core.setTally_threads (i : Nat) (v : Tally) : (c.setTally i v).threads = c.threads := rfl
@[simp] theorem Core.setTally_v (i : Nat) (v : Tally) : (c.setTally i v).v = c.v := rfl
@[simp] theorem Core.setTally_ibuf (i : Nat) (v : Tally) : (c.setTally i v).ibuf = c.ibuf := rfl
@[simp] theorem Core.setTally_sram (i : Nat) (v : Tally) : (c.setTally i v).sram = c.sram := rfl
@[simp] theorem Core.setTally_ecc (i : Nat) (v : Tally) : (c.setTally i v).ecc = c.ecc := rfl
@[simp] theorem Core.setTally_banks (i : Nat) (v : Tally) : (c.setTally i v).banks = c.banks := rfl
@[simp] theorem Core.setTally_wins (i : Nat) (v : Tally) : (c.setTally i v).wins = c.wins := rfl
@[simp] theorem Core.setTally_chutes (i : Nat) (v : Tally) : (c.setTally i v).chutes = c.chutes := rfl
@[simp] theorem Core.setTally_chuteWait (i : Nat) (v : Tally) : (c.setTally i v).chuteWait = c.chuteWait := rfl
@[simp] theorem Core.setTally_book (i : Nat) (v : Tally) : (c.setTally i v).book = c.book := rfl
@[simp] theorem Core.setTally_bookUse (i : Nat) (v : Tally) : (c.setTally i v).bookUse = c.bookUse := rfl
@[simp] theorem Core.setTally_tags (i : Nat) (v : Tally) : (c.setTally i v).tags = c.tags := rfl
@[simp] theorem Core.setTally_tagEpoch (i : Nat) (v : Tally) : (c.setTally i v).tagEpoch = c.tagEpoch := rfl
@[simp] theorem Core.setTally_missWait (i : Nat) (v : Tally) : (c.setTally i v).missWait = c.missWait := rfl
@[simp] theorem Core.setTally_shifts (i : Nat) (v : Tally) : (c.setTally i v).shifts = c.shifts := rfl
@[simp] theorem Core.setTally_active (i : Nat) (v : Tally) : (c.setTally i v).active = c.active := rfl
@[simp] theorem Core.setTally_entering (i : Nat) (v : Tally) : (c.setTally i v).entering = c.entering := rfl
@[simp] theorem Core.setTally_cursorPos (i : Nat) (v : Tally) : (c.setTally i v).cursorPos = c.cursorPos := rfl
@[simp] theorem Core.setTally_delay (i : Nat) (v : Tally) : (c.setTally i v).delay = c.delay := rfl
@[simp] theorem Core.setTally_inputs (i : Nat) (v : Tally) : (c.setTally i v).inputs = c.inputs := rfl
@[simp] theorem Core.setTally_reads (i : Nat) (v : Tally) : (c.setTally i v).reads = c.reads := rfl
@[simp] theorem Core.setTally_steer (i : Nat) (v : Tally) : (c.setTally i v).steer = c.steer := rfl
@[simp] theorem Core.setTally_shiftLoad (i : Nat) (v : Tally) : (c.setTally i v).shiftLoad = c.shiftLoad := rfl
@[simp] theorem Core.setTally_array (i : Nat) (v : Tally) : (c.setTally i v).array = c.array := rfl
@[simp] theorem Core.setTally_spmv (i : Nat) (v : Tally) : (c.setTally i v).spmv = c.spmv := rfl
@[simp] theorem Core.setTally_spmvLast (i : Nat) (v : Tally) : (c.setTally i v).spmvLast = c.spmvLast := rfl
@[simp] theorem Core.setTally_rng (i : Nat) (v : Tally) : (c.setTally i v).rng = c.rng := rfl
@[simp] theorem Core.setTally_seedLo (i : Nat) (v : Tally) : (c.setTally i v).seedLo = c.seedLo := rfl
@[simp] theorem Core.setTally_cycles (i : Nat) (v : Tally) : (c.setTally i v).cycles = c.cycles := rfl
@[simp] theorem Core.setTally_eidLocal (i : Nat) (v : Tally) : (c.setTally i v).eidLocal = c.eidLocal := rfl
@[simp] theorem Core.setTally_shiftRaised (i : Nat) (v : Tally) : (c.setTally i v).shiftRaised = c.shiftRaised := rfl
@[simp] theorem Core.setTally_latch (i : Nat) (v : Tally) : (c.setTally i v).latch = c.latch := rfl
@[simp] theorem Core.setTally_holdReq (i : Nat) (v : Tally) : (c.setTally i v).holdReq = c.holdReq := rfl
@[simp] theorem Core.setTally_schedRun (i : Nat) (v : Tally) : (c.setTally i v).schedRun = c.schedRun := rfl
@[simp] theorem Core.setTally_wakeAt (i : Nat) (v : Tally) : (c.setTally i v).wakeAt = c.wakeAt := rfl
@[simp] theorem Core.setTally_holdFrom (i : Nat) (v : Tally) : (c.setTally i v).holdFrom = c.holdFrom := rfl
@[simp] theorem Core.setTally_conflictFrom (i : Nat) (v : Tally) : (c.setTally i v).conflictFrom = c.conflictFrom := rfl
@[simp] theorem Core.setTally_scrubAt (i : Nat) (v : Tally) : (c.setTally i v).scrubAt = c.scrubAt := rfl

/-! ## setWin -/

@[simp] theorem Core.setWin_regs (i : Nat) (v : Win) : (c.setWin i v).regs = c.regs := rfl
@[simp] theorem Core.setWin_threads (i : Nat) (v : Win) : (c.setWin i v).threads = c.threads := rfl
@[simp] theorem Core.setWin_v (i : Nat) (v : Win) : (c.setWin i v).v = c.v := rfl
@[simp] theorem Core.setWin_ibuf (i : Nat) (v : Win) : (c.setWin i v).ibuf = c.ibuf := rfl
@[simp] theorem Core.setWin_sram (i : Nat) (v : Win) : (c.setWin i v).sram = c.sram := rfl
@[simp] theorem Core.setWin_ecc (i : Nat) (v : Win) : (c.setWin i v).ecc = c.ecc := rfl
@[simp] theorem Core.setWin_banks (i : Nat) (v : Win) : (c.setWin i v).banks = c.banks := rfl
@[simp] theorem Core.setWin_tallies (i : Nat) (v : Win) : (c.setWin i v).tallies = c.tallies := rfl
@[simp] theorem Core.setWin_chutes (i : Nat) (v : Win) : (c.setWin i v).chutes = c.chutes := rfl
@[simp] theorem Core.setWin_chuteWait (i : Nat) (v : Win) : (c.setWin i v).chuteWait = c.chuteWait := rfl
@[simp] theorem Core.setWin_book (i : Nat) (v : Win) : (c.setWin i v).book = c.book := rfl
@[simp] theorem Core.setWin_bookUse (i : Nat) (v : Win) : (c.setWin i v).bookUse = c.bookUse := rfl
@[simp] theorem Core.setWin_tags (i : Nat) (v : Win) : (c.setWin i v).tags = c.tags := rfl
@[simp] theorem Core.setWin_tagEpoch (i : Nat) (v : Win) : (c.setWin i v).tagEpoch = c.tagEpoch := rfl
@[simp] theorem Core.setWin_missWait (i : Nat) (v : Win) : (c.setWin i v).missWait = c.missWait := rfl
@[simp] theorem Core.setWin_shifts (i : Nat) (v : Win) : (c.setWin i v).shifts = c.shifts := rfl
@[simp] theorem Core.setWin_active (i : Nat) (v : Win) : (c.setWin i v).active = c.active := rfl
@[simp] theorem Core.setWin_entering (i : Nat) (v : Win) : (c.setWin i v).entering = c.entering := rfl
@[simp] theorem Core.setWin_cursorPos (i : Nat) (v : Win) : (c.setWin i v).cursorPos = c.cursorPos := rfl
@[simp] theorem Core.setWin_delay (i : Nat) (v : Win) : (c.setWin i v).delay = c.delay := rfl
@[simp] theorem Core.setWin_inputs (i : Nat) (v : Win) : (c.setWin i v).inputs = c.inputs := rfl
@[simp] theorem Core.setWin_reads (i : Nat) (v : Win) : (c.setWin i v).reads = c.reads := rfl
@[simp] theorem Core.setWin_steer (i : Nat) (v : Win) : (c.setWin i v).steer = c.steer := rfl
@[simp] theorem Core.setWin_shiftLoad (i : Nat) (v : Win) : (c.setWin i v).shiftLoad = c.shiftLoad := rfl
@[simp] theorem Core.setWin_array (i : Nat) (v : Win) : (c.setWin i v).array = c.array := rfl
@[simp] theorem Core.setWin_spmv (i : Nat) (v : Win) : (c.setWin i v).spmv = c.spmv := rfl
@[simp] theorem Core.setWin_spmvLast (i : Nat) (v : Win) : (c.setWin i v).spmvLast = c.spmvLast := rfl
@[simp] theorem Core.setWin_rng (i : Nat) (v : Win) : (c.setWin i v).rng = c.rng := rfl
@[simp] theorem Core.setWin_seedLo (i : Nat) (v : Win) : (c.setWin i v).seedLo = c.seedLo := rfl
@[simp] theorem Core.setWin_cycles (i : Nat) (v : Win) : (c.setWin i v).cycles = c.cycles := rfl
@[simp] theorem Core.setWin_eidLocal (i : Nat) (v : Win) : (c.setWin i v).eidLocal = c.eidLocal := rfl
@[simp] theorem Core.setWin_shiftRaised (i : Nat) (v : Win) : (c.setWin i v).shiftRaised = c.shiftRaised := rfl
@[simp] theorem Core.setWin_latch (i : Nat) (v : Win) : (c.setWin i v).latch = c.latch := rfl
@[simp] theorem Core.setWin_holdReq (i : Nat) (v : Win) : (c.setWin i v).holdReq = c.holdReq := rfl
@[simp] theorem Core.setWin_schedRun (i : Nat) (v : Win) : (c.setWin i v).schedRun = c.schedRun := rfl
@[simp] theorem Core.setWin_wakeAt (i : Nat) (v : Win) : (c.setWin i v).wakeAt = c.wakeAt := rfl
@[simp] theorem Core.setWin_holdFrom (i : Nat) (v : Win) : (c.setWin i v).holdFrom = c.holdFrom := rfl
@[simp] theorem Core.setWin_conflictFrom (i : Nat) (v : Win) : (c.setWin i v).conflictFrom = c.conflictFrom := rfl
@[simp] theorem Core.setWin_scrubAt (i : Nat) (v : Win) : (c.setWin i v).scrubAt = c.scrubAt := rfl

/-! ## setChute -/

@[simp] theorem Core.setChute_regs (e : Nat) (v : Chute) : (c.setChute e v).regs = c.regs := rfl
@[simp] theorem Core.setChute_threads (e : Nat) (v : Chute) : (c.setChute e v).threads = c.threads := rfl
@[simp] theorem Core.setChute_v (e : Nat) (v : Chute) : (c.setChute e v).v = c.v := rfl
@[simp] theorem Core.setChute_ibuf (e : Nat) (v : Chute) : (c.setChute e v).ibuf = c.ibuf := rfl
@[simp] theorem Core.setChute_sram (e : Nat) (v : Chute) : (c.setChute e v).sram = c.sram := rfl
@[simp] theorem Core.setChute_ecc (e : Nat) (v : Chute) : (c.setChute e v).ecc = c.ecc := rfl
@[simp] theorem Core.setChute_banks (e : Nat) (v : Chute) : (c.setChute e v).banks = c.banks := rfl
@[simp] theorem Core.setChute_wins (e : Nat) (v : Chute) : (c.setChute e v).wins = c.wins := rfl
@[simp] theorem Core.setChute_tallies (e : Nat) (v : Chute) : (c.setChute e v).tallies = c.tallies := rfl
@[simp] theorem Core.setChute_chuteWait (e : Nat) (v : Chute) : (c.setChute e v).chuteWait = c.chuteWait := rfl
@[simp] theorem Core.setChute_book (e : Nat) (v : Chute) : (c.setChute e v).book = c.book := rfl
@[simp] theorem Core.setChute_bookUse (e : Nat) (v : Chute) : (c.setChute e v).bookUse = c.bookUse := rfl
@[simp] theorem Core.setChute_tags (e : Nat) (v : Chute) : (c.setChute e v).tags = c.tags := rfl
@[simp] theorem Core.setChute_tagEpoch (e : Nat) (v : Chute) : (c.setChute e v).tagEpoch = c.tagEpoch := rfl
@[simp] theorem Core.setChute_missWait (e : Nat) (v : Chute) : (c.setChute e v).missWait = c.missWait := rfl
@[simp] theorem Core.setChute_shifts (e : Nat) (v : Chute) : (c.setChute e v).shifts = c.shifts := rfl
@[simp] theorem Core.setChute_active (e : Nat) (v : Chute) : (c.setChute e v).active = c.active := rfl
@[simp] theorem Core.setChute_entering (e : Nat) (v : Chute) : (c.setChute e v).entering = c.entering := rfl
@[simp] theorem Core.setChute_cursorPos (e : Nat) (v : Chute) : (c.setChute e v).cursorPos = c.cursorPos := rfl
@[simp] theorem Core.setChute_delay (e : Nat) (v : Chute) : (c.setChute e v).delay = c.delay := rfl
@[simp] theorem Core.setChute_inputs (e : Nat) (v : Chute) : (c.setChute e v).inputs = c.inputs := rfl
@[simp] theorem Core.setChute_reads (e : Nat) (v : Chute) : (c.setChute e v).reads = c.reads := rfl
@[simp] theorem Core.setChute_steer (e : Nat) (v : Chute) : (c.setChute e v).steer = c.steer := rfl
@[simp] theorem Core.setChute_shiftLoad (e : Nat) (v : Chute) : (c.setChute e v).shiftLoad = c.shiftLoad := rfl
@[simp] theorem Core.setChute_array (e : Nat) (v : Chute) : (c.setChute e v).array = c.array := rfl
@[simp] theorem Core.setChute_spmv (e : Nat) (v : Chute) : (c.setChute e v).spmv = c.spmv := rfl
@[simp] theorem Core.setChute_spmvLast (e : Nat) (v : Chute) : (c.setChute e v).spmvLast = c.spmvLast := rfl
@[simp] theorem Core.setChute_rng (e : Nat) (v : Chute) : (c.setChute e v).rng = c.rng := rfl
@[simp] theorem Core.setChute_seedLo (e : Nat) (v : Chute) : (c.setChute e v).seedLo = c.seedLo := rfl
@[simp] theorem Core.setChute_cycles (e : Nat) (v : Chute) : (c.setChute e v).cycles = c.cycles := rfl
@[simp] theorem Core.setChute_eidLocal (e : Nat) (v : Chute) : (c.setChute e v).eidLocal = c.eidLocal := rfl
@[simp] theorem Core.setChute_shiftRaised (e : Nat) (v : Chute) : (c.setChute e v).shiftRaised = c.shiftRaised := rfl
@[simp] theorem Core.setChute_latch (e : Nat) (v : Chute) : (c.setChute e v).latch = c.latch := rfl
@[simp] theorem Core.setChute_holdReq (e : Nat) (v : Chute) : (c.setChute e v).holdReq = c.holdReq := rfl
@[simp] theorem Core.setChute_schedRun (e : Nat) (v : Chute) : (c.setChute e v).schedRun = c.schedRun := rfl
@[simp] theorem Core.setChute_wakeAt (e : Nat) (v : Chute) : (c.setChute e v).wakeAt = c.wakeAt := rfl
@[simp] theorem Core.setChute_holdFrom (e : Nat) (v : Chute) : (c.setChute e v).holdFrom = c.holdFrom := rfl
@[simp] theorem Core.setChute_conflictFrom (e : Nat) (v : Chute) : (c.setChute e v).conflictFrom = c.conflictFrom := rfl
@[simp] theorem Core.setChute_scrubAt (e : Nat) (v : Chute) : (c.setChute e v).scrubAt = c.scrubAt := rfl

/-! ## setTag -/

@[simp] theorem Core.setTag_regs (i : Nat) (v : Option Tag) : (c.setTag i v).regs = c.regs := rfl
@[simp] theorem Core.setTag_threads (i : Nat) (v : Option Tag) : (c.setTag i v).threads = c.threads := rfl
@[simp] theorem Core.setTag_v (i : Nat) (v : Option Tag) : (c.setTag i v).v = c.v := rfl
@[simp] theorem Core.setTag_ibuf (i : Nat) (v : Option Tag) : (c.setTag i v).ibuf = c.ibuf := rfl
@[simp] theorem Core.setTag_sram (i : Nat) (v : Option Tag) : (c.setTag i v).sram = c.sram := rfl
@[simp] theorem Core.setTag_ecc (i : Nat) (v : Option Tag) : (c.setTag i v).ecc = c.ecc := rfl
@[simp] theorem Core.setTag_banks (i : Nat) (v : Option Tag) : (c.setTag i v).banks = c.banks := rfl
@[simp] theorem Core.setTag_wins (i : Nat) (v : Option Tag) : (c.setTag i v).wins = c.wins := rfl
@[simp] theorem Core.setTag_tallies (i : Nat) (v : Option Tag) : (c.setTag i v).tallies = c.tallies := rfl
@[simp] theorem Core.setTag_chutes (i : Nat) (v : Option Tag) : (c.setTag i v).chutes = c.chutes := rfl
@[simp] theorem Core.setTag_chuteWait (i : Nat) (v : Option Tag) : (c.setTag i v).chuteWait = c.chuteWait := rfl
@[simp] theorem Core.setTag_book (i : Nat) (v : Option Tag) : (c.setTag i v).book = c.book := rfl
@[simp] theorem Core.setTag_bookUse (i : Nat) (v : Option Tag) : (c.setTag i v).bookUse = c.bookUse := rfl
@[simp] theorem Core.setTag_tagEpoch (i : Nat) (v : Option Tag) : (c.setTag i v).tagEpoch = c.tagEpoch := rfl
@[simp] theorem Core.setTag_missWait (i : Nat) (v : Option Tag) : (c.setTag i v).missWait = c.missWait := rfl
@[simp] theorem Core.setTag_shifts (i : Nat) (v : Option Tag) : (c.setTag i v).shifts = c.shifts := rfl
@[simp] theorem Core.setTag_active (i : Nat) (v : Option Tag) : (c.setTag i v).active = c.active := rfl
@[simp] theorem Core.setTag_entering (i : Nat) (v : Option Tag) : (c.setTag i v).entering = c.entering := rfl
@[simp] theorem Core.setTag_cursorPos (i : Nat) (v : Option Tag) : (c.setTag i v).cursorPos = c.cursorPos := rfl
@[simp] theorem Core.setTag_delay (i : Nat) (v : Option Tag) : (c.setTag i v).delay = c.delay := rfl
@[simp] theorem Core.setTag_inputs (i : Nat) (v : Option Tag) : (c.setTag i v).inputs = c.inputs := rfl
@[simp] theorem Core.setTag_reads (i : Nat) (v : Option Tag) : (c.setTag i v).reads = c.reads := rfl
@[simp] theorem Core.setTag_steer (i : Nat) (v : Option Tag) : (c.setTag i v).steer = c.steer := rfl
@[simp] theorem Core.setTag_shiftLoad (i : Nat) (v : Option Tag) : (c.setTag i v).shiftLoad = c.shiftLoad := rfl
@[simp] theorem Core.setTag_array (i : Nat) (v : Option Tag) : (c.setTag i v).array = c.array := rfl
@[simp] theorem Core.setTag_spmv (i : Nat) (v : Option Tag) : (c.setTag i v).spmv = c.spmv := rfl
@[simp] theorem Core.setTag_spmvLast (i : Nat) (v : Option Tag) : (c.setTag i v).spmvLast = c.spmvLast := rfl
@[simp] theorem Core.setTag_rng (i : Nat) (v : Option Tag) : (c.setTag i v).rng = c.rng := rfl
@[simp] theorem Core.setTag_seedLo (i : Nat) (v : Option Tag) : (c.setTag i v).seedLo = c.seedLo := rfl
@[simp] theorem Core.setTag_cycles (i : Nat) (v : Option Tag) : (c.setTag i v).cycles = c.cycles := rfl
@[simp] theorem Core.setTag_eidLocal (i : Nat) (v : Option Tag) : (c.setTag i v).eidLocal = c.eidLocal := rfl
@[simp] theorem Core.setTag_shiftRaised (i : Nat) (v : Option Tag) : (c.setTag i v).shiftRaised = c.shiftRaised := rfl
@[simp] theorem Core.setTag_latch (i : Nat) (v : Option Tag) : (c.setTag i v).latch = c.latch := rfl
@[simp] theorem Core.setTag_holdReq (i : Nat) (v : Option Tag) : (c.setTag i v).holdReq = c.holdReq := rfl
@[simp] theorem Core.setTag_schedRun (i : Nat) (v : Option Tag) : (c.setTag i v).schedRun = c.schedRun := rfl
@[simp] theorem Core.setTag_wakeAt (i : Nat) (v : Option Tag) : (c.setTag i v).wakeAt = c.wakeAt := rfl
@[simp] theorem Core.setTag_holdFrom (i : Nat) (v : Option Tag) : (c.setTag i v).holdFrom = c.holdFrom := rfl
@[simp] theorem Core.setTag_conflictFrom (i : Nat) (v : Option Tag) : (c.setTag i v).conflictFrom = c.conflictFrom := rfl
@[simp] theorem Core.setTag_scrubAt (i : Nat) (v : Option Tag) : (c.setTag i v).scrubAt = c.scrubAt := rfl

/-! ## setShift -/

@[simp] theorem Core.setShift_regs (i : Nat) (v : ShiftSlot) : (c.setShift i v).regs = c.regs := rfl
@[simp] theorem Core.setShift_threads (i : Nat) (v : ShiftSlot) : (c.setShift i v).threads = c.threads := rfl
@[simp] theorem Core.setShift_v (i : Nat) (v : ShiftSlot) : (c.setShift i v).v = c.v := rfl
@[simp] theorem Core.setShift_ibuf (i : Nat) (v : ShiftSlot) : (c.setShift i v).ibuf = c.ibuf := rfl
@[simp] theorem Core.setShift_sram (i : Nat) (v : ShiftSlot) : (c.setShift i v).sram = c.sram := rfl
@[simp] theorem Core.setShift_ecc (i : Nat) (v : ShiftSlot) : (c.setShift i v).ecc = c.ecc := rfl
@[simp] theorem Core.setShift_banks (i : Nat) (v : ShiftSlot) : (c.setShift i v).banks = c.banks := rfl
@[simp] theorem Core.setShift_wins (i : Nat) (v : ShiftSlot) : (c.setShift i v).wins = c.wins := rfl
@[simp] theorem Core.setShift_tallies (i : Nat) (v : ShiftSlot) : (c.setShift i v).tallies = c.tallies := rfl
@[simp] theorem Core.setShift_chutes (i : Nat) (v : ShiftSlot) : (c.setShift i v).chutes = c.chutes := rfl
@[simp] theorem Core.setShift_chuteWait (i : Nat) (v : ShiftSlot) : (c.setShift i v).chuteWait = c.chuteWait := rfl
@[simp] theorem Core.setShift_book (i : Nat) (v : ShiftSlot) : (c.setShift i v).book = c.book := rfl
@[simp] theorem Core.setShift_bookUse (i : Nat) (v : ShiftSlot) : (c.setShift i v).bookUse = c.bookUse := rfl
@[simp] theorem Core.setShift_tags (i : Nat) (v : ShiftSlot) : (c.setShift i v).tags = c.tags := rfl
@[simp] theorem Core.setShift_tagEpoch (i : Nat) (v : ShiftSlot) : (c.setShift i v).tagEpoch = c.tagEpoch := rfl
@[simp] theorem Core.setShift_missWait (i : Nat) (v : ShiftSlot) : (c.setShift i v).missWait = c.missWait := rfl
@[simp] theorem Core.setShift_active (i : Nat) (v : ShiftSlot) : (c.setShift i v).active = c.active := rfl
@[simp] theorem Core.setShift_entering (i : Nat) (v : ShiftSlot) : (c.setShift i v).entering = c.entering := rfl
@[simp] theorem Core.setShift_cursorPos (i : Nat) (v : ShiftSlot) : (c.setShift i v).cursorPos = c.cursorPos := rfl
@[simp] theorem Core.setShift_delay (i : Nat) (v : ShiftSlot) : (c.setShift i v).delay = c.delay := rfl
@[simp] theorem Core.setShift_inputs (i : Nat) (v : ShiftSlot) : (c.setShift i v).inputs = c.inputs := rfl
@[simp] theorem Core.setShift_reads (i : Nat) (v : ShiftSlot) : (c.setShift i v).reads = c.reads := rfl
@[simp] theorem Core.setShift_steer (i : Nat) (v : ShiftSlot) : (c.setShift i v).steer = c.steer := rfl
@[simp] theorem Core.setShift_shiftLoad (i : Nat) (v : ShiftSlot) : (c.setShift i v).shiftLoad = c.shiftLoad := rfl
@[simp] theorem Core.setShift_array (i : Nat) (v : ShiftSlot) : (c.setShift i v).array = c.array := rfl
@[simp] theorem Core.setShift_spmv (i : Nat) (v : ShiftSlot) : (c.setShift i v).spmv = c.spmv := rfl
@[simp] theorem Core.setShift_spmvLast (i : Nat) (v : ShiftSlot) : (c.setShift i v).spmvLast = c.spmvLast := rfl
@[simp] theorem Core.setShift_rng (i : Nat) (v : ShiftSlot) : (c.setShift i v).rng = c.rng := rfl
@[simp] theorem Core.setShift_seedLo (i : Nat) (v : ShiftSlot) : (c.setShift i v).seedLo = c.seedLo := rfl
@[simp] theorem Core.setShift_cycles (i : Nat) (v : ShiftSlot) : (c.setShift i v).cycles = c.cycles := rfl
@[simp] theorem Core.setShift_eidLocal (i : Nat) (v : ShiftSlot) : (c.setShift i v).eidLocal = c.eidLocal := rfl
@[simp] theorem Core.setShift_shiftRaised (i : Nat) (v : ShiftSlot) : (c.setShift i v).shiftRaised = c.shiftRaised := rfl
@[simp] theorem Core.setShift_latch (i : Nat) (v : ShiftSlot) : (c.setShift i v).latch = c.latch := rfl
@[simp] theorem Core.setShift_holdReq (i : Nat) (v : ShiftSlot) : (c.setShift i v).holdReq = c.holdReq := rfl
@[simp] theorem Core.setShift_schedRun (i : Nat) (v : ShiftSlot) : (c.setShift i v).schedRun = c.schedRun := rfl
@[simp] theorem Core.setShift_wakeAt (i : Nat) (v : ShiftSlot) : (c.setShift i v).wakeAt = c.wakeAt := rfl
@[simp] theorem Core.setShift_holdFrom (i : Nat) (v : ShiftSlot) : (c.setShift i v).holdFrom = c.holdFrom := rfl
@[simp] theorem Core.setShift_conflictFrom (i : Nat) (v : ShiftSlot) : (c.setShift i v).conflictFrom = c.conflictFrom := rfl
@[simp] theorem Core.setShift_scrubAt (i : Nat) (v : ShiftSlot) : (c.setShift i v).scrubAt = c.scrubAt := rfl

/-! ## setSteer -/

@[simp] theorem Core.setSteer_regs (u : Nat) (v : Steer) : (c.setSteer u v).regs = c.regs := rfl
@[simp] theorem Core.setSteer_threads (u : Nat) (v : Steer) : (c.setSteer u v).threads = c.threads := rfl
@[simp] theorem Core.setSteer_v (u : Nat) (v : Steer) : (c.setSteer u v).v = c.v := rfl
@[simp] theorem Core.setSteer_ibuf (u : Nat) (v : Steer) : (c.setSteer u v).ibuf = c.ibuf := rfl
@[simp] theorem Core.setSteer_sram (u : Nat) (v : Steer) : (c.setSteer u v).sram = c.sram := rfl
@[simp] theorem Core.setSteer_ecc (u : Nat) (v : Steer) : (c.setSteer u v).ecc = c.ecc := rfl
@[simp] theorem Core.setSteer_banks (u : Nat) (v : Steer) : (c.setSteer u v).banks = c.banks := rfl
@[simp] theorem Core.setSteer_wins (u : Nat) (v : Steer) : (c.setSteer u v).wins = c.wins := rfl
@[simp] theorem Core.setSteer_tallies (u : Nat) (v : Steer) : (c.setSteer u v).tallies = c.tallies := rfl
@[simp] theorem Core.setSteer_chutes (u : Nat) (v : Steer) : (c.setSteer u v).chutes = c.chutes := rfl
@[simp] theorem Core.setSteer_chuteWait (u : Nat) (v : Steer) : (c.setSteer u v).chuteWait = c.chuteWait := rfl
@[simp] theorem Core.setSteer_book (u : Nat) (v : Steer) : (c.setSteer u v).book = c.book := rfl
@[simp] theorem Core.setSteer_bookUse (u : Nat) (v : Steer) : (c.setSteer u v).bookUse = c.bookUse := rfl
@[simp] theorem Core.setSteer_tags (u : Nat) (v : Steer) : (c.setSteer u v).tags = c.tags := rfl
@[simp] theorem Core.setSteer_tagEpoch (u : Nat) (v : Steer) : (c.setSteer u v).tagEpoch = c.tagEpoch := rfl
@[simp] theorem Core.setSteer_missWait (u : Nat) (v : Steer) : (c.setSteer u v).missWait = c.missWait := rfl
@[simp] theorem Core.setSteer_shifts (u : Nat) (v : Steer) : (c.setSteer u v).shifts = c.shifts := rfl
@[simp] theorem Core.setSteer_active (u : Nat) (v : Steer) : (c.setSteer u v).active = c.active := rfl
@[simp] theorem Core.setSteer_entering (u : Nat) (v : Steer) : (c.setSteer u v).entering = c.entering := rfl
@[simp] theorem Core.setSteer_cursorPos (u : Nat) (v : Steer) : (c.setSteer u v).cursorPos = c.cursorPos := rfl
@[simp] theorem Core.setSteer_delay (u : Nat) (v : Steer) : (c.setSteer u v).delay = c.delay := rfl
@[simp] theorem Core.setSteer_inputs (u : Nat) (v : Steer) : (c.setSteer u v).inputs = c.inputs := rfl
@[simp] theorem Core.setSteer_reads (u : Nat) (v : Steer) : (c.setSteer u v).reads = c.reads := rfl
@[simp] theorem Core.setSteer_shiftLoad (u : Nat) (v : Steer) : (c.setSteer u v).shiftLoad = c.shiftLoad := rfl
@[simp] theorem Core.setSteer_array (u : Nat) (v : Steer) : (c.setSteer u v).array = c.array := rfl
@[simp] theorem Core.setSteer_spmv (u : Nat) (v : Steer) : (c.setSteer u v).spmv = c.spmv := rfl
@[simp] theorem Core.setSteer_spmvLast (u : Nat) (v : Steer) : (c.setSteer u v).spmvLast = c.spmvLast := rfl
@[simp] theorem Core.setSteer_rng (u : Nat) (v : Steer) : (c.setSteer u v).rng = c.rng := rfl
@[simp] theorem Core.setSteer_seedLo (u : Nat) (v : Steer) : (c.setSteer u v).seedLo = c.seedLo := rfl
@[simp] theorem Core.setSteer_cycles (u : Nat) (v : Steer) : (c.setSteer u v).cycles = c.cycles := rfl
@[simp] theorem Core.setSteer_eidLocal (u : Nat) (v : Steer) : (c.setSteer u v).eidLocal = c.eidLocal := rfl
@[simp] theorem Core.setSteer_shiftRaised (u : Nat) (v : Steer) : (c.setSteer u v).shiftRaised = c.shiftRaised := rfl
@[simp] theorem Core.setSteer_latch (u : Nat) (v : Steer) : (c.setSteer u v).latch = c.latch := rfl
@[simp] theorem Core.setSteer_holdReq (u : Nat) (v : Steer) : (c.setSteer u v).holdReq = c.holdReq := rfl
@[simp] theorem Core.setSteer_schedRun (u : Nat) (v : Steer) : (c.setSteer u v).schedRun = c.schedRun := rfl
@[simp] theorem Core.setSteer_wakeAt (u : Nat) (v : Steer) : (c.setSteer u v).wakeAt = c.wakeAt := rfl
@[simp] theorem Core.setSteer_holdFrom (u : Nat) (v : Steer) : (c.setSteer u v).holdFrom = c.holdFrom := rfl
@[simp] theorem Core.setSteer_conflictFrom (u : Nat) (v : Steer) : (c.setSteer u v).conflictFrom = c.conflictFrom := rfl
@[simp] theorem Core.setSteer_scrubAt (u : Nat) (v : Steer) : (c.setSteer u v).scrubAt = c.scrubAt := rfl

/-! ## setStream -/

@[simp] theorem Core.setStream_regs (i : Nat) (v : DWord) : (c.setStream i v).regs = c.regs := rfl
@[simp] theorem Core.setStream_threads (i : Nat) (v : DWord) : (c.setStream i v).threads = c.threads := rfl
@[simp] theorem Core.setStream_v (i : Nat) (v : DWord) : (c.setStream i v).v = c.v := rfl
@[simp] theorem Core.setStream_ibuf (i : Nat) (v : DWord) : (c.setStream i v).ibuf = c.ibuf := rfl
@[simp] theorem Core.setStream_sram (i : Nat) (v : DWord) : (c.setStream i v).sram = c.sram := rfl
@[simp] theorem Core.setStream_ecc (i : Nat) (v : DWord) : (c.setStream i v).ecc = c.ecc := rfl
@[simp] theorem Core.setStream_banks (i : Nat) (v : DWord) : (c.setStream i v).banks = c.banks := rfl
@[simp] theorem Core.setStream_wins (i : Nat) (v : DWord) : (c.setStream i v).wins = c.wins := rfl
@[simp] theorem Core.setStream_tallies (i : Nat) (v : DWord) : (c.setStream i v).tallies = c.tallies := rfl
@[simp] theorem Core.setStream_chutes (i : Nat) (v : DWord) : (c.setStream i v).chutes = c.chutes := rfl
@[simp] theorem Core.setStream_chuteWait (i : Nat) (v : DWord) : (c.setStream i v).chuteWait = c.chuteWait := rfl
@[simp] theorem Core.setStream_book (i : Nat) (v : DWord) : (c.setStream i v).book = c.book := rfl
@[simp] theorem Core.setStream_bookUse (i : Nat) (v : DWord) : (c.setStream i v).bookUse = c.bookUse := rfl
@[simp] theorem Core.setStream_tags (i : Nat) (v : DWord) : (c.setStream i v).tags = c.tags := rfl
@[simp] theorem Core.setStream_tagEpoch (i : Nat) (v : DWord) : (c.setStream i v).tagEpoch = c.tagEpoch := rfl
@[simp] theorem Core.setStream_missWait (i : Nat) (v : DWord) : (c.setStream i v).missWait = c.missWait := rfl
@[simp] theorem Core.setStream_shifts (i : Nat) (v : DWord) : (c.setStream i v).shifts = c.shifts := rfl
@[simp] theorem Core.setStream_active (i : Nat) (v : DWord) : (c.setStream i v).active = c.active := rfl
@[simp] theorem Core.setStream_entering (i : Nat) (v : DWord) : (c.setStream i v).entering = c.entering := rfl
@[simp] theorem Core.setStream_cursorPos (i : Nat) (v : DWord) : (c.setStream i v).cursorPos = c.cursorPos := rfl
@[simp] theorem Core.setStream_delay (i : Nat) (v : DWord) : (c.setStream i v).delay = c.delay := rfl
@[simp] theorem Core.setStream_inputs (i : Nat) (v : DWord) : (c.setStream i v).inputs = c.inputs := rfl
@[simp] theorem Core.setStream_reads (i : Nat) (v : DWord) : (c.setStream i v).reads = c.reads := rfl
@[simp] theorem Core.setStream_steer (i : Nat) (v : DWord) : (c.setStream i v).steer = c.steer := rfl
@[simp] theorem Core.setStream_shiftLoad (i : Nat) (v : DWord) : (c.setStream i v).shiftLoad = c.shiftLoad := rfl
@[simp] theorem Core.setStream_array (i : Nat) (v : DWord) : (c.setStream i v).array = c.array := rfl
@[simp] theorem Core.setStream_spmv (i : Nat) (v : DWord) : (c.setStream i v).spmv = c.spmv := rfl
@[simp] theorem Core.setStream_spmvLast (i : Nat) (v : DWord) : (c.setStream i v).spmvLast = c.spmvLast := rfl
@[simp] theorem Core.setStream_seedLo (i : Nat) (v : DWord) : (c.setStream i v).seedLo = c.seedLo := rfl
@[simp] theorem Core.setStream_cycles (i : Nat) (v : DWord) : (c.setStream i v).cycles = c.cycles := rfl
@[simp] theorem Core.setStream_eidLocal (i : Nat) (v : DWord) : (c.setStream i v).eidLocal = c.eidLocal := rfl
@[simp] theorem Core.setStream_shiftRaised (i : Nat) (v : DWord) : (c.setStream i v).shiftRaised = c.shiftRaised := rfl
@[simp] theorem Core.setStream_latch (i : Nat) (v : DWord) : (c.setStream i v).latch = c.latch := rfl
@[simp] theorem Core.setStream_holdReq (i : Nat) (v : DWord) : (c.setStream i v).holdReq = c.holdReq := rfl
@[simp] theorem Core.setStream_schedRun (i : Nat) (v : DWord) : (c.setStream i v).schedRun = c.schedRun := rfl
@[simp] theorem Core.setStream_wakeAt (i : Nat) (v : DWord) : (c.setStream i v).wakeAt = c.wakeAt := rfl
@[simp] theorem Core.setStream_holdFrom (i : Nat) (v : DWord) : (c.setStream i v).holdFrom = c.holdFrom := rfl
@[simp] theorem Core.setStream_conflictFrom (i : Nat) (v : DWord) : (c.setStream i v).conflictFrom = c.conflictFrom := rfl
@[simp] theorem Core.setStream_scrubAt (i : Nat) (v : DWord) : (c.setStream i v).scrubAt = c.scrubAt := rfl

/-! ## setAbank -/

@[simp] theorem Core.setAbank_regs (b : Nat) (v : ABank) : (c.setAbank b v).regs = c.regs := rfl
@[simp] theorem Core.setAbank_threads (b : Nat) (v : ABank) : (c.setAbank b v).threads = c.threads := rfl
@[simp] theorem Core.setAbank_v (b : Nat) (v : ABank) : (c.setAbank b v).v = c.v := rfl
@[simp] theorem Core.setAbank_ibuf (b : Nat) (v : ABank) : (c.setAbank b v).ibuf = c.ibuf := rfl
@[simp] theorem Core.setAbank_sram (b : Nat) (v : ABank) : (c.setAbank b v).sram = c.sram := rfl
@[simp] theorem Core.setAbank_ecc (b : Nat) (v : ABank) : (c.setAbank b v).ecc = c.ecc := rfl
@[simp] theorem Core.setAbank_banks (b : Nat) (v : ABank) : (c.setAbank b v).banks = c.banks := rfl
@[simp] theorem Core.setAbank_wins (b : Nat) (v : ABank) : (c.setAbank b v).wins = c.wins := rfl
@[simp] theorem Core.setAbank_tallies (b : Nat) (v : ABank) : (c.setAbank b v).tallies = c.tallies := rfl
@[simp] theorem Core.setAbank_chutes (b : Nat) (v : ABank) : (c.setAbank b v).chutes = c.chutes := rfl
@[simp] theorem Core.setAbank_chuteWait (b : Nat) (v : ABank) : (c.setAbank b v).chuteWait = c.chuteWait := rfl
@[simp] theorem Core.setAbank_book (b : Nat) (v : ABank) : (c.setAbank b v).book = c.book := rfl
@[simp] theorem Core.setAbank_bookUse (b : Nat) (v : ABank) : (c.setAbank b v).bookUse = c.bookUse := rfl
@[simp] theorem Core.setAbank_tags (b : Nat) (v : ABank) : (c.setAbank b v).tags = c.tags := rfl
@[simp] theorem Core.setAbank_tagEpoch (b : Nat) (v : ABank) : (c.setAbank b v).tagEpoch = c.tagEpoch := rfl
@[simp] theorem Core.setAbank_missWait (b : Nat) (v : ABank) : (c.setAbank b v).missWait = c.missWait := rfl
@[simp] theorem Core.setAbank_shifts (b : Nat) (v : ABank) : (c.setAbank b v).shifts = c.shifts := rfl
@[simp] theorem Core.setAbank_active (b : Nat) (v : ABank) : (c.setAbank b v).active = c.active := rfl
@[simp] theorem Core.setAbank_entering (b : Nat) (v : ABank) : (c.setAbank b v).entering = c.entering := rfl
@[simp] theorem Core.setAbank_cursorPos (b : Nat) (v : ABank) : (c.setAbank b v).cursorPos = c.cursorPos := rfl
@[simp] theorem Core.setAbank_delay (b : Nat) (v : ABank) : (c.setAbank b v).delay = c.delay := rfl
@[simp] theorem Core.setAbank_inputs (b : Nat) (v : ABank) : (c.setAbank b v).inputs = c.inputs := rfl
@[simp] theorem Core.setAbank_reads (b : Nat) (v : ABank) : (c.setAbank b v).reads = c.reads := rfl
@[simp] theorem Core.setAbank_steer (b : Nat) (v : ABank) : (c.setAbank b v).steer = c.steer := rfl
@[simp] theorem Core.setAbank_shiftLoad (b : Nat) (v : ABank) : (c.setAbank b v).shiftLoad = c.shiftLoad := rfl
@[simp] theorem Core.setAbank_spmv (b : Nat) (v : ABank) : (c.setAbank b v).spmv = c.spmv := rfl
@[simp] theorem Core.setAbank_spmvLast (b : Nat) (v : ABank) : (c.setAbank b v).spmvLast = c.spmvLast := rfl
@[simp] theorem Core.setAbank_rng (b : Nat) (v : ABank) : (c.setAbank b v).rng = c.rng := rfl
@[simp] theorem Core.setAbank_seedLo (b : Nat) (v : ABank) : (c.setAbank b v).seedLo = c.seedLo := rfl
@[simp] theorem Core.setAbank_cycles (b : Nat) (v : ABank) : (c.setAbank b v).cycles = c.cycles := rfl
@[simp] theorem Core.setAbank_eidLocal (b : Nat) (v : ABank) : (c.setAbank b v).eidLocal = c.eidLocal := rfl
@[simp] theorem Core.setAbank_shiftRaised (b : Nat) (v : ABank) : (c.setAbank b v).shiftRaised = c.shiftRaised := rfl
@[simp] theorem Core.setAbank_latch (b : Nat) (v : ABank) : (c.setAbank b v).latch = c.latch := rfl
@[simp] theorem Core.setAbank_holdReq (b : Nat) (v : ABank) : (c.setAbank b v).holdReq = c.holdReq := rfl
@[simp] theorem Core.setAbank_schedRun (b : Nat) (v : ABank) : (c.setAbank b v).schedRun = c.schedRun := rfl
@[simp] theorem Core.setAbank_wakeAt (b : Nat) (v : ABank) : (c.setAbank b v).wakeAt = c.wakeAt := rfl
@[simp] theorem Core.setAbank_holdFrom (b : Nat) (v : ABank) : (c.setAbank b v).holdFrom = c.holdFrom := rfl
@[simp] theorem Core.setAbank_conflictFrom (b : Nat) (v : ABank) : (c.setAbank b v).conflictFrom = c.conflictFrom := rfl
@[simp] theorem Core.setAbank_scrubAt (b : Nat) (v : ABank) : (c.setAbank b v).scrubAt = c.scrubAt := rfl

/-! ## setTile -/

@[simp] theorem Core.setTile_regs (i : Nat) (v : Tile) : (c.setTile i v).regs = c.regs := rfl
@[simp] theorem Core.setTile_threads (i : Nat) (v : Tile) : (c.setTile i v).threads = c.threads := rfl
@[simp] theorem Core.setTile_v (i : Nat) (v : Tile) : (c.setTile i v).v = c.v := rfl
@[simp] theorem Core.setTile_ibuf (i : Nat) (v : Tile) : (c.setTile i v).ibuf = c.ibuf := rfl
@[simp] theorem Core.setTile_sram (i : Nat) (v : Tile) : (c.setTile i v).sram = c.sram := rfl
@[simp] theorem Core.setTile_ecc (i : Nat) (v : Tile) : (c.setTile i v).ecc = c.ecc := rfl
@[simp] theorem Core.setTile_banks (i : Nat) (v : Tile) : (c.setTile i v).banks = c.banks := rfl
@[simp] theorem Core.setTile_wins (i : Nat) (v : Tile) : (c.setTile i v).wins = c.wins := rfl
@[simp] theorem Core.setTile_tallies (i : Nat) (v : Tile) : (c.setTile i v).tallies = c.tallies := rfl
@[simp] theorem Core.setTile_chutes (i : Nat) (v : Tile) : (c.setTile i v).chutes = c.chutes := rfl
@[simp] theorem Core.setTile_chuteWait (i : Nat) (v : Tile) : (c.setTile i v).chuteWait = c.chuteWait := rfl
@[simp] theorem Core.setTile_book (i : Nat) (v : Tile) : (c.setTile i v).book = c.book := rfl
@[simp] theorem Core.setTile_bookUse (i : Nat) (v : Tile) : (c.setTile i v).bookUse = c.bookUse := rfl
@[simp] theorem Core.setTile_tags (i : Nat) (v : Tile) : (c.setTile i v).tags = c.tags := rfl
@[simp] theorem Core.setTile_tagEpoch (i : Nat) (v : Tile) : (c.setTile i v).tagEpoch = c.tagEpoch := rfl
@[simp] theorem Core.setTile_missWait (i : Nat) (v : Tile) : (c.setTile i v).missWait = c.missWait := rfl
@[simp] theorem Core.setTile_shifts (i : Nat) (v : Tile) : (c.setTile i v).shifts = c.shifts := rfl
@[simp] theorem Core.setTile_active (i : Nat) (v : Tile) : (c.setTile i v).active = c.active := rfl
@[simp] theorem Core.setTile_entering (i : Nat) (v : Tile) : (c.setTile i v).entering = c.entering := rfl
@[simp] theorem Core.setTile_cursorPos (i : Nat) (v : Tile) : (c.setTile i v).cursorPos = c.cursorPos := rfl
@[simp] theorem Core.setTile_delay (i : Nat) (v : Tile) : (c.setTile i v).delay = c.delay := rfl
@[simp] theorem Core.setTile_inputs (i : Nat) (v : Tile) : (c.setTile i v).inputs = c.inputs := rfl
@[simp] theorem Core.setTile_reads (i : Nat) (v : Tile) : (c.setTile i v).reads = c.reads := rfl
@[simp] theorem Core.setTile_steer (i : Nat) (v : Tile) : (c.setTile i v).steer = c.steer := rfl
@[simp] theorem Core.setTile_shiftLoad (i : Nat) (v : Tile) : (c.setTile i v).shiftLoad = c.shiftLoad := rfl
@[simp] theorem Core.setTile_spmv (i : Nat) (v : Tile) : (c.setTile i v).spmv = c.spmv := rfl
@[simp] theorem Core.setTile_spmvLast (i : Nat) (v : Tile) : (c.setTile i v).spmvLast = c.spmvLast := rfl
@[simp] theorem Core.setTile_rng (i : Nat) (v : Tile) : (c.setTile i v).rng = c.rng := rfl
@[simp] theorem Core.setTile_seedLo (i : Nat) (v : Tile) : (c.setTile i v).seedLo = c.seedLo := rfl
@[simp] theorem Core.setTile_cycles (i : Nat) (v : Tile) : (c.setTile i v).cycles = c.cycles := rfl
@[simp] theorem Core.setTile_eidLocal (i : Nat) (v : Tile) : (c.setTile i v).eidLocal = c.eidLocal := rfl
@[simp] theorem Core.setTile_shiftRaised (i : Nat) (v : Tile) : (c.setTile i v).shiftRaised = c.shiftRaised := rfl
@[simp] theorem Core.setTile_latch (i : Nat) (v : Tile) : (c.setTile i v).latch = c.latch := rfl
@[simp] theorem Core.setTile_holdReq (i : Nat) (v : Tile) : (c.setTile i v).holdReq = c.holdReq := rfl
@[simp] theorem Core.setTile_schedRun (i : Nat) (v : Tile) : (c.setTile i v).schedRun = c.schedRun := rfl
@[simp] theorem Core.setTile_wakeAt (i : Nat) (v : Tile) : (c.setTile i v).wakeAt = c.wakeAt := rfl
@[simp] theorem Core.setTile_holdFrom (i : Nat) (v : Tile) : (c.setTile i v).holdFrom = c.holdFrom := rfl
@[simp] theorem Core.setTile_conflictFrom (i : Nat) (v : Tile) : (c.setTile i v).conflictFrom = c.conflictFrom := rfl
@[simp] theorem Core.setTile_scrubAt (i : Nat) (v : Tile) : (c.setTile i v).scrubAt = c.scrubAt := rfl

/-! ## setAcc -/

@[simp] theorem Core.setAcc_regs (i v : Nat) : (c.setAcc i v).regs = c.regs := rfl
@[simp] theorem Core.setAcc_threads (i v : Nat) : (c.setAcc i v).threads = c.threads := rfl
@[simp] theorem Core.setAcc_v (i v : Nat) : (c.setAcc i v).v = c.v := rfl
@[simp] theorem Core.setAcc_ibuf (i v : Nat) : (c.setAcc i v).ibuf = c.ibuf := rfl
@[simp] theorem Core.setAcc_sram (i v : Nat) : (c.setAcc i v).sram = c.sram := rfl
@[simp] theorem Core.setAcc_ecc (i v : Nat) : (c.setAcc i v).ecc = c.ecc := rfl
@[simp] theorem Core.setAcc_banks (i v : Nat) : (c.setAcc i v).banks = c.banks := rfl
@[simp] theorem Core.setAcc_wins (i v : Nat) : (c.setAcc i v).wins = c.wins := rfl
@[simp] theorem Core.setAcc_tallies (i v : Nat) : (c.setAcc i v).tallies = c.tallies := rfl
@[simp] theorem Core.setAcc_chutes (i v : Nat) : (c.setAcc i v).chutes = c.chutes := rfl
@[simp] theorem Core.setAcc_chuteWait (i v : Nat) : (c.setAcc i v).chuteWait = c.chuteWait := rfl
@[simp] theorem Core.setAcc_book (i v : Nat) : (c.setAcc i v).book = c.book := rfl
@[simp] theorem Core.setAcc_bookUse (i v : Nat) : (c.setAcc i v).bookUse = c.bookUse := rfl
@[simp] theorem Core.setAcc_tags (i v : Nat) : (c.setAcc i v).tags = c.tags := rfl
@[simp] theorem Core.setAcc_tagEpoch (i v : Nat) : (c.setAcc i v).tagEpoch = c.tagEpoch := rfl
@[simp] theorem Core.setAcc_missWait (i v : Nat) : (c.setAcc i v).missWait = c.missWait := rfl
@[simp] theorem Core.setAcc_shifts (i v : Nat) : (c.setAcc i v).shifts = c.shifts := rfl
@[simp] theorem Core.setAcc_active (i v : Nat) : (c.setAcc i v).active = c.active := rfl
@[simp] theorem Core.setAcc_entering (i v : Nat) : (c.setAcc i v).entering = c.entering := rfl
@[simp] theorem Core.setAcc_cursorPos (i v : Nat) : (c.setAcc i v).cursorPos = c.cursorPos := rfl
@[simp] theorem Core.setAcc_delay (i v : Nat) : (c.setAcc i v).delay = c.delay := rfl
@[simp] theorem Core.setAcc_inputs (i v : Nat) : (c.setAcc i v).inputs = c.inputs := rfl
@[simp] theorem Core.setAcc_reads (i v : Nat) : (c.setAcc i v).reads = c.reads := rfl
@[simp] theorem Core.setAcc_steer (i v : Nat) : (c.setAcc i v).steer = c.steer := rfl
@[simp] theorem Core.setAcc_shiftLoad (i v : Nat) : (c.setAcc i v).shiftLoad = c.shiftLoad := rfl
@[simp] theorem Core.setAcc_spmv (i v : Nat) : (c.setAcc i v).spmv = c.spmv := rfl
@[simp] theorem Core.setAcc_spmvLast (i v : Nat) : (c.setAcc i v).spmvLast = c.spmvLast := rfl
@[simp] theorem Core.setAcc_rng (i v : Nat) : (c.setAcc i v).rng = c.rng := rfl
@[simp] theorem Core.setAcc_seedLo (i v : Nat) : (c.setAcc i v).seedLo = c.seedLo := rfl
@[simp] theorem Core.setAcc_cycles (i v : Nat) : (c.setAcc i v).cycles = c.cycles := rfl
@[simp] theorem Core.setAcc_eidLocal (i v : Nat) : (c.setAcc i v).eidLocal = c.eidLocal := rfl
@[simp] theorem Core.setAcc_shiftRaised (i v : Nat) : (c.setAcc i v).shiftRaised = c.shiftRaised := rfl
@[simp] theorem Core.setAcc_latch (i v : Nat) : (c.setAcc i v).latch = c.latch := rfl
@[simp] theorem Core.setAcc_holdReq (i v : Nat) : (c.setAcc i v).holdReq = c.holdReq := rfl
@[simp] theorem Core.setAcc_schedRun (i v : Nat) : (c.setAcc i v).schedRun = c.schedRun := rfl
@[simp] theorem Core.setAcc_wakeAt (i v : Nat) : (c.setAcc i v).wakeAt = c.wakeAt := rfl
@[simp] theorem Core.setAcc_holdFrom (i v : Nat) : (c.setAcc i v).holdFrom = c.holdFrom := rfl
@[simp] theorem Core.setAcc_conflictFrom (i v : Nat) : (c.setAcc i v).conflictFrom = c.conflictFrom := rfl
@[simp] theorem Core.setAcc_scrubAt (i v : Nat) : (c.setAcc i v).scrubAt = c.scrubAt := rfl

/-! ## setBank -/

@[simp] theorem Core.setBank_regs (b : Nat) (v : Bank) : (c.setBank b v).regs = c.regs := rfl
@[simp] theorem Core.setBank_threads (b : Nat) (v : Bank) : (c.setBank b v).threads = c.threads := rfl
@[simp] theorem Core.setBank_v (b : Nat) (v : Bank) : (c.setBank b v).v = c.v := rfl
@[simp] theorem Core.setBank_ibuf (b : Nat) (v : Bank) : (c.setBank b v).ibuf = c.ibuf := rfl
@[simp] theorem Core.setBank_sram (b : Nat) (v : Bank) : (c.setBank b v).sram = c.sram := rfl
@[simp] theorem Core.setBank_ecc (b : Nat) (v : Bank) : (c.setBank b v).ecc = c.ecc := rfl
@[simp] theorem Core.setBank_wins (b : Nat) (v : Bank) : (c.setBank b v).wins = c.wins := rfl
@[simp] theorem Core.setBank_tallies (b : Nat) (v : Bank) : (c.setBank b v).tallies = c.tallies := rfl
@[simp] theorem Core.setBank_chutes (b : Nat) (v : Bank) : (c.setBank b v).chutes = c.chutes := rfl
@[simp] theorem Core.setBank_chuteWait (b : Nat) (v : Bank) : (c.setBank b v).chuteWait = c.chuteWait := rfl
@[simp] theorem Core.setBank_book (b : Nat) (v : Bank) : (c.setBank b v).book = c.book := rfl
@[simp] theorem Core.setBank_bookUse (b : Nat) (v : Bank) : (c.setBank b v).bookUse = c.bookUse := rfl
@[simp] theorem Core.setBank_tags (b : Nat) (v : Bank) : (c.setBank b v).tags = c.tags := rfl
@[simp] theorem Core.setBank_tagEpoch (b : Nat) (v : Bank) : (c.setBank b v).tagEpoch = c.tagEpoch := rfl
@[simp] theorem Core.setBank_missWait (b : Nat) (v : Bank) : (c.setBank b v).missWait = c.missWait := rfl
@[simp] theorem Core.setBank_shifts (b : Nat) (v : Bank) : (c.setBank b v).shifts = c.shifts := rfl
@[simp] theorem Core.setBank_active (b : Nat) (v : Bank) : (c.setBank b v).active = c.active := rfl
@[simp] theorem Core.setBank_entering (b : Nat) (v : Bank) : (c.setBank b v).entering = c.entering := rfl
@[simp] theorem Core.setBank_cursorPos (b : Nat) (v : Bank) : (c.setBank b v).cursorPos = c.cursorPos := rfl
@[simp] theorem Core.setBank_delay (b : Nat) (v : Bank) : (c.setBank b v).delay = c.delay := rfl
@[simp] theorem Core.setBank_inputs (b : Nat) (v : Bank) : (c.setBank b v).inputs = c.inputs := rfl
@[simp] theorem Core.setBank_reads (b : Nat) (v : Bank) : (c.setBank b v).reads = c.reads := rfl
@[simp] theorem Core.setBank_steer (b : Nat) (v : Bank) : (c.setBank b v).steer = c.steer := rfl
@[simp] theorem Core.setBank_shiftLoad (b : Nat) (v : Bank) : (c.setBank b v).shiftLoad = c.shiftLoad := rfl
@[simp] theorem Core.setBank_array (b : Nat) (v : Bank) : (c.setBank b v).array = c.array := rfl
@[simp] theorem Core.setBank_spmv (b : Nat) (v : Bank) : (c.setBank b v).spmv = c.spmv := rfl
@[simp] theorem Core.setBank_spmvLast (b : Nat) (v : Bank) : (c.setBank b v).spmvLast = c.spmvLast := rfl
@[simp] theorem Core.setBank_rng (b : Nat) (v : Bank) : (c.setBank b v).rng = c.rng := rfl
@[simp] theorem Core.setBank_seedLo (b : Nat) (v : Bank) : (c.setBank b v).seedLo = c.seedLo := rfl
@[simp] theorem Core.setBank_cycles (b : Nat) (v : Bank) : (c.setBank b v).cycles = c.cycles := rfl
@[simp] theorem Core.setBank_eidLocal (b : Nat) (v : Bank) : (c.setBank b v).eidLocal = c.eidLocal := rfl
@[simp] theorem Core.setBank_shiftRaised (b : Nat) (v : Bank) : (c.setBank b v).shiftRaised = c.shiftRaised := rfl
@[simp] theorem Core.setBank_latch (b : Nat) (v : Bank) : (c.setBank b v).latch = c.latch := rfl
@[simp] theorem Core.setBank_holdReq (b : Nat) (v : Bank) : (c.setBank b v).holdReq = c.holdReq := rfl
@[simp] theorem Core.setBank_schedRun (b : Nat) (v : Bank) : (c.setBank b v).schedRun = c.schedRun := rfl
@[simp] theorem Core.setBank_wakeAt (b : Nat) (v : Bank) : (c.setBank b v).wakeAt = c.wakeAt := rfl
@[simp] theorem Core.setBank_holdFrom (b : Nat) (v : Bank) : (c.setBank b v).holdFrom = c.holdFrom := rfl
@[simp] theorem Core.setBank_conflictFrom (b : Nat) (v : Bank) : (c.setBank b v).conflictFrom = c.conflictFrom := rfl
@[simp] theorem Core.setBank_scrubAt (b : Nat) (v : Bank) : (c.setBank b v).scrubAt = c.scrubAt := rfl

/-! ## setByte -/

@[simp] theorem Core.setByte_regs (a : Nat) (v : Byte) : (c.setByte a v).regs = c.regs := rfl
@[simp] theorem Core.setByte_threads (a : Nat) (v : Byte) : (c.setByte a v).threads = c.threads := rfl
@[simp] theorem Core.setByte_v (a : Nat) (v : Byte) : (c.setByte a v).v = c.v := rfl
@[simp] theorem Core.setByte_ibuf (a : Nat) (v : Byte) : (c.setByte a v).ibuf = c.ibuf := rfl
@[simp] theorem Core.setByte_ecc (a : Nat) (v : Byte) : (c.setByte a v).ecc = c.ecc := rfl
@[simp] theorem Core.setByte_banks (a : Nat) (v : Byte) : (c.setByte a v).banks = c.banks := rfl
@[simp] theorem Core.setByte_wins (a : Nat) (v : Byte) : (c.setByte a v).wins = c.wins := rfl
@[simp] theorem Core.setByte_tallies (a : Nat) (v : Byte) : (c.setByte a v).tallies = c.tallies := rfl
@[simp] theorem Core.setByte_chutes (a : Nat) (v : Byte) : (c.setByte a v).chutes = c.chutes := rfl
@[simp] theorem Core.setByte_chuteWait (a : Nat) (v : Byte) : (c.setByte a v).chuteWait = c.chuteWait := rfl
@[simp] theorem Core.setByte_book (a : Nat) (v : Byte) : (c.setByte a v).book = c.book := rfl
@[simp] theorem Core.setByte_bookUse (a : Nat) (v : Byte) : (c.setByte a v).bookUse = c.bookUse := rfl
@[simp] theorem Core.setByte_tags (a : Nat) (v : Byte) : (c.setByte a v).tags = c.tags := rfl
@[simp] theorem Core.setByte_tagEpoch (a : Nat) (v : Byte) : (c.setByte a v).tagEpoch = c.tagEpoch := rfl
@[simp] theorem Core.setByte_missWait (a : Nat) (v : Byte) : (c.setByte a v).missWait = c.missWait := rfl
@[simp] theorem Core.setByte_shifts (a : Nat) (v : Byte) : (c.setByte a v).shifts = c.shifts := rfl
@[simp] theorem Core.setByte_active (a : Nat) (v : Byte) : (c.setByte a v).active = c.active := rfl
@[simp] theorem Core.setByte_entering (a : Nat) (v : Byte) : (c.setByte a v).entering = c.entering := rfl
@[simp] theorem Core.setByte_cursorPos (a : Nat) (v : Byte) : (c.setByte a v).cursorPos = c.cursorPos := rfl
@[simp] theorem Core.setByte_delay (a : Nat) (v : Byte) : (c.setByte a v).delay = c.delay := rfl
@[simp] theorem Core.setByte_inputs (a : Nat) (v : Byte) : (c.setByte a v).inputs = c.inputs := rfl
@[simp] theorem Core.setByte_reads (a : Nat) (v : Byte) : (c.setByte a v).reads = c.reads := rfl
@[simp] theorem Core.setByte_steer (a : Nat) (v : Byte) : (c.setByte a v).steer = c.steer := rfl
@[simp] theorem Core.setByte_shiftLoad (a : Nat) (v : Byte) : (c.setByte a v).shiftLoad = c.shiftLoad := rfl
@[simp] theorem Core.setByte_array (a : Nat) (v : Byte) : (c.setByte a v).array = c.array := rfl
@[simp] theorem Core.setByte_spmv (a : Nat) (v : Byte) : (c.setByte a v).spmv = c.spmv := rfl
@[simp] theorem Core.setByte_spmvLast (a : Nat) (v : Byte) : (c.setByte a v).spmvLast = c.spmvLast := rfl
@[simp] theorem Core.setByte_rng (a : Nat) (v : Byte) : (c.setByte a v).rng = c.rng := rfl
@[simp] theorem Core.setByte_seedLo (a : Nat) (v : Byte) : (c.setByte a v).seedLo = c.seedLo := rfl
@[simp] theorem Core.setByte_cycles (a : Nat) (v : Byte) : (c.setByte a v).cycles = c.cycles := rfl
@[simp] theorem Core.setByte_eidLocal (a : Nat) (v : Byte) : (c.setByte a v).eidLocal = c.eidLocal := rfl
@[simp] theorem Core.setByte_shiftRaised (a : Nat) (v : Byte) : (c.setByte a v).shiftRaised = c.shiftRaised := rfl
@[simp] theorem Core.setByte_latch (a : Nat) (v : Byte) : (c.setByte a v).latch = c.latch := rfl
@[simp] theorem Core.setByte_holdReq (a : Nat) (v : Byte) : (c.setByte a v).holdReq = c.holdReq := rfl
@[simp] theorem Core.setByte_schedRun (a : Nat) (v : Byte) : (c.setByte a v).schedRun = c.schedRun := rfl
@[simp] theorem Core.setByte_wakeAt (a : Nat) (v : Byte) : (c.setByte a v).wakeAt = c.wakeAt := rfl
@[simp] theorem Core.setByte_holdFrom (a : Nat) (v : Byte) : (c.setByte a v).holdFrom = c.holdFrom := rfl
@[simp] theorem Core.setByte_conflictFrom (a : Nat) (v : Byte) : (c.setByte a v).conflictFrom = c.conflictFrom := rfl
@[simp] theorem Core.setByte_scrubAt (a : Nat) (v : Byte) : (c.setByte a v).scrubAt = c.scrubAt := rfl

/-! ## setEcc -/

@[simp] theorem Core.setEcc_regs (a : Nat) (v : Ecc) : (c.setEcc a v).regs = c.regs := rfl
@[simp] theorem Core.setEcc_threads (a : Nat) (v : Ecc) : (c.setEcc a v).threads = c.threads := rfl
@[simp] theorem Core.setEcc_v (a : Nat) (v : Ecc) : (c.setEcc a v).v = c.v := rfl
@[simp] theorem Core.setEcc_ibuf (a : Nat) (v : Ecc) : (c.setEcc a v).ibuf = c.ibuf := rfl
@[simp] theorem Core.setEcc_sram (a : Nat) (v : Ecc) : (c.setEcc a v).sram = c.sram := rfl
@[simp] theorem Core.setEcc_banks (a : Nat) (v : Ecc) : (c.setEcc a v).banks = c.banks := rfl
@[simp] theorem Core.setEcc_wins (a : Nat) (v : Ecc) : (c.setEcc a v).wins = c.wins := rfl
@[simp] theorem Core.setEcc_tallies (a : Nat) (v : Ecc) : (c.setEcc a v).tallies = c.tallies := rfl
@[simp] theorem Core.setEcc_chutes (a : Nat) (v : Ecc) : (c.setEcc a v).chutes = c.chutes := rfl
@[simp] theorem Core.setEcc_chuteWait (a : Nat) (v : Ecc) : (c.setEcc a v).chuteWait = c.chuteWait := rfl
@[simp] theorem Core.setEcc_book (a : Nat) (v : Ecc) : (c.setEcc a v).book = c.book := rfl
@[simp] theorem Core.setEcc_bookUse (a : Nat) (v : Ecc) : (c.setEcc a v).bookUse = c.bookUse := rfl
@[simp] theorem Core.setEcc_tags (a : Nat) (v : Ecc) : (c.setEcc a v).tags = c.tags := rfl
@[simp] theorem Core.setEcc_tagEpoch (a : Nat) (v : Ecc) : (c.setEcc a v).tagEpoch = c.tagEpoch := rfl
@[simp] theorem Core.setEcc_missWait (a : Nat) (v : Ecc) : (c.setEcc a v).missWait = c.missWait := rfl
@[simp] theorem Core.setEcc_shifts (a : Nat) (v : Ecc) : (c.setEcc a v).shifts = c.shifts := rfl
@[simp] theorem Core.setEcc_active (a : Nat) (v : Ecc) : (c.setEcc a v).active = c.active := rfl
@[simp] theorem Core.setEcc_entering (a : Nat) (v : Ecc) : (c.setEcc a v).entering = c.entering := rfl
@[simp] theorem Core.setEcc_cursorPos (a : Nat) (v : Ecc) : (c.setEcc a v).cursorPos = c.cursorPos := rfl
@[simp] theorem Core.setEcc_delay (a : Nat) (v : Ecc) : (c.setEcc a v).delay = c.delay := rfl
@[simp] theorem Core.setEcc_inputs (a : Nat) (v : Ecc) : (c.setEcc a v).inputs = c.inputs := rfl
@[simp] theorem Core.setEcc_reads (a : Nat) (v : Ecc) : (c.setEcc a v).reads = c.reads := rfl
@[simp] theorem Core.setEcc_steer (a : Nat) (v : Ecc) : (c.setEcc a v).steer = c.steer := rfl
@[simp] theorem Core.setEcc_shiftLoad (a : Nat) (v : Ecc) : (c.setEcc a v).shiftLoad = c.shiftLoad := rfl
@[simp] theorem Core.setEcc_array (a : Nat) (v : Ecc) : (c.setEcc a v).array = c.array := rfl
@[simp] theorem Core.setEcc_spmv (a : Nat) (v : Ecc) : (c.setEcc a v).spmv = c.spmv := rfl
@[simp] theorem Core.setEcc_spmvLast (a : Nat) (v : Ecc) : (c.setEcc a v).spmvLast = c.spmvLast := rfl
@[simp] theorem Core.setEcc_rng (a : Nat) (v : Ecc) : (c.setEcc a v).rng = c.rng := rfl
@[simp] theorem Core.setEcc_seedLo (a : Nat) (v : Ecc) : (c.setEcc a v).seedLo = c.seedLo := rfl
@[simp] theorem Core.setEcc_cycles (a : Nat) (v : Ecc) : (c.setEcc a v).cycles = c.cycles := rfl
@[simp] theorem Core.setEcc_eidLocal (a : Nat) (v : Ecc) : (c.setEcc a v).eidLocal = c.eidLocal := rfl
@[simp] theorem Core.setEcc_shiftRaised (a : Nat) (v : Ecc) : (c.setEcc a v).shiftRaised = c.shiftRaised := rfl
@[simp] theorem Core.setEcc_latch (a : Nat) (v : Ecc) : (c.setEcc a v).latch = c.latch := rfl
@[simp] theorem Core.setEcc_holdReq (a : Nat) (v : Ecc) : (c.setEcc a v).holdReq = c.holdReq := rfl
@[simp] theorem Core.setEcc_schedRun (a : Nat) (v : Ecc) : (c.setEcc a v).schedRun = c.schedRun := rfl
@[simp] theorem Core.setEcc_wakeAt (a : Nat) (v : Ecc) : (c.setEcc a v).wakeAt = c.wakeAt := rfl
@[simp] theorem Core.setEcc_holdFrom (a : Nat) (v : Ecc) : (c.setEcc a v).holdFrom = c.holdFrom := rfl
@[simp] theorem Core.setEcc_conflictFrom (a : Nat) (v : Ecc) : (c.setEcc a v).conflictFrom = c.conflictFrom := rfl
@[simp] theorem Core.setEcc_scrubAt (a : Nat) (v : Ecc) : (c.setEcc a v).scrubAt = c.scrubAt := rfl

/-! ## Named parts -/

@[simp] theorem Core.setReg_thread (off : Nat) (v : Word) (k : Nat) : (c.setReg off v).thread k = c.thread k := rfl
@[simp] theorem Core.setReg_vreg (off : Nat) (v : Word) (q : Nat) : (c.setReg off v).vreg q = c.vreg q := rfl
@[simp] theorem Core.setReg_tally (off : Nat) (v : Word) (j : Nat) : (c.setReg off v).tally j = c.tally j := rfl
@[simp] theorem Core.setReg_win (off : Nat) (v : Word) (j : Nat) : (c.setReg off v).win j = c.win j := rfl
@[simp] theorem Core.setReg_chute (off : Nat) (v : Word) (j : Nat) : (c.setReg off v).chute j = c.chute j := rfl
@[simp] theorem Core.setReg_tag (off : Nat) (v : Word) (j : Nat) : (c.setReg off v).tag j = c.tag j := rfl
@[simp] theorem Core.setReg_shiftSlot (off : Nat) (v : Word) (j : Nat) : (c.setReg off v).shiftSlot j = c.shiftSlot j := rfl
@[simp] theorem Core.setReg_stream (off : Nat) (v : Word) (j : Nat) : (c.setReg off v).stream j = c.stream j := rfl
@[simp] theorem Core.setReg_abank (off : Nat) (v : Word) (j : Nat) : (c.setReg off v).abank j = c.abank j := rfl
@[simp] theorem Core.setReg_tile (off : Nat) (v : Word) (j : Nat) : (c.setReg off v).tile j = c.tile j := rfl
@[simp] theorem Core.setReg_accEntry (off : Nat) (v : Word) (j : Nat) : (c.setReg off v).accEntry j = c.accEntry j := rfl
@[simp] theorem Core.setReg_bank (off : Nat) (v : Word) (j : Nat) : (c.setReg off v).bank j = c.bank j := rfl
@[simp] theorem Core.setThread_reg (t : Nat) (v : Thread) (o : Nat) : (c.setThread t v).reg o = c.reg o := rfl
@[simp] theorem Core.setThread_vreg (t : Nat) (v : Thread) (q : Nat) : (c.setThread t v).vreg q = c.vreg q := rfl
@[simp] theorem Core.setThread_tally (t : Nat) (v : Thread) (j : Nat) : (c.setThread t v).tally j = c.tally j := rfl
@[simp] theorem Core.setThread_win (t : Nat) (v : Thread) (j : Nat) : (c.setThread t v).win j = c.win j := rfl
@[simp] theorem Core.setThread_chute (t : Nat) (v : Thread) (j : Nat) : (c.setThread t v).chute j = c.chute j := rfl
@[simp] theorem Core.setThread_tag (t : Nat) (v : Thread) (j : Nat) : (c.setThread t v).tag j = c.tag j := rfl
@[simp] theorem Core.setThread_shiftSlot (t : Nat) (v : Thread) (j : Nat) : (c.setThread t v).shiftSlot j = c.shiftSlot j := rfl
@[simp] theorem Core.setThread_stream (t : Nat) (v : Thread) (j : Nat) : (c.setThread t v).stream j = c.stream j := rfl
@[simp] theorem Core.setThread_abank (t : Nat) (v : Thread) (j : Nat) : (c.setThread t v).abank j = c.abank j := rfl
@[simp] theorem Core.setThread_tile (t : Nat) (v : Thread) (j : Nat) : (c.setThread t v).tile j = c.tile j := rfl
@[simp] theorem Core.setThread_accEntry (t : Nat) (v : Thread) (j : Nat) : (c.setThread t v).accEntry j = c.accEntry j := rfl
@[simp] theorem Core.setThread_bank (t : Nat) (v : Thread) (j : Nat) : (c.setThread t v).bank j = c.bank j := rfl
@[simp] theorem Core.setVreg_reg (r : Nat) (v : VWord) (o : Nat) : (c.setVreg r v).reg o = c.reg o := rfl
@[simp] theorem Core.setVreg_thread (r : Nat) (v : VWord) (k : Nat) : (c.setVreg r v).thread k = c.thread k := rfl
@[simp] theorem Core.setVreg_tally (r : Nat) (v : VWord) (j : Nat) : (c.setVreg r v).tally j = c.tally j := rfl
@[simp] theorem Core.setVreg_win (r : Nat) (v : VWord) (j : Nat) : (c.setVreg r v).win j = c.win j := rfl
@[simp] theorem Core.setVreg_chute (r : Nat) (v : VWord) (j : Nat) : (c.setVreg r v).chute j = c.chute j := rfl
@[simp] theorem Core.setVreg_tag (r : Nat) (v : VWord) (j : Nat) : (c.setVreg r v).tag j = c.tag j := rfl
@[simp] theorem Core.setVreg_shiftSlot (r : Nat) (v : VWord) (j : Nat) : (c.setVreg r v).shiftSlot j = c.shiftSlot j := rfl
@[simp] theorem Core.setVreg_stream (r : Nat) (v : VWord) (j : Nat) : (c.setVreg r v).stream j = c.stream j := rfl
@[simp] theorem Core.setVreg_abank (r : Nat) (v : VWord) (j : Nat) : (c.setVreg r v).abank j = c.abank j := rfl
@[simp] theorem Core.setVreg_tile (r : Nat) (v : VWord) (j : Nat) : (c.setVreg r v).tile j = c.tile j := rfl
@[simp] theorem Core.setVreg_accEntry (r : Nat) (v : VWord) (j : Nat) : (c.setVreg r v).accEntry j = c.accEntry j := rfl
@[simp] theorem Core.setVreg_bank (r : Nat) (v : VWord) (j : Nat) : (c.setVreg r v).bank j = c.bank j := rfl
@[simp] theorem Core.setTally_reg (i : Nat) (v : Tally) (o : Nat) : (c.setTally i v).reg o = c.reg o := rfl
@[simp] theorem Core.setTally_thread (i : Nat) (v : Tally) (k : Nat) : (c.setTally i v).thread k = c.thread k := rfl
@[simp] theorem Core.setTally_vreg (i : Nat) (v : Tally) (q : Nat) : (c.setTally i v).vreg q = c.vreg q := rfl
@[simp] theorem Core.setTally_win (i : Nat) (v : Tally) (j : Nat) : (c.setTally i v).win j = c.win j := rfl
@[simp] theorem Core.setTally_chute (i : Nat) (v : Tally) (j : Nat) : (c.setTally i v).chute j = c.chute j := rfl
@[simp] theorem Core.setTally_tag (i : Nat) (v : Tally) (j : Nat) : (c.setTally i v).tag j = c.tag j := rfl
@[simp] theorem Core.setTally_shiftSlot (i : Nat) (v : Tally) (j : Nat) : (c.setTally i v).shiftSlot j = c.shiftSlot j := rfl
@[simp] theorem Core.setTally_stream (i : Nat) (v : Tally) (j : Nat) : (c.setTally i v).stream j = c.stream j := rfl
@[simp] theorem Core.setTally_abank (i : Nat) (v : Tally) (j : Nat) : (c.setTally i v).abank j = c.abank j := rfl
@[simp] theorem Core.setTally_tile (i : Nat) (v : Tally) (j : Nat) : (c.setTally i v).tile j = c.tile j := rfl
@[simp] theorem Core.setTally_accEntry (i : Nat) (v : Tally) (j : Nat) : (c.setTally i v).accEntry j = c.accEntry j := rfl
@[simp] theorem Core.setTally_bank (i : Nat) (v : Tally) (j : Nat) : (c.setTally i v).bank j = c.bank j := rfl
@[simp] theorem Core.setWin_reg (i : Nat) (v : Win) (o : Nat) : (c.setWin i v).reg o = c.reg o := rfl
@[simp] theorem Core.setWin_thread (i : Nat) (v : Win) (k : Nat) : (c.setWin i v).thread k = c.thread k := rfl
@[simp] theorem Core.setWin_vreg (i : Nat) (v : Win) (q : Nat) : (c.setWin i v).vreg q = c.vreg q := rfl
@[simp] theorem Core.setWin_tally (i : Nat) (v : Win) (j : Nat) : (c.setWin i v).tally j = c.tally j := rfl
@[simp] theorem Core.setWin_chute (i : Nat) (v : Win) (j : Nat) : (c.setWin i v).chute j = c.chute j := rfl
@[simp] theorem Core.setWin_tag (i : Nat) (v : Win) (j : Nat) : (c.setWin i v).tag j = c.tag j := rfl
@[simp] theorem Core.setWin_shiftSlot (i : Nat) (v : Win) (j : Nat) : (c.setWin i v).shiftSlot j = c.shiftSlot j := rfl
@[simp] theorem Core.setWin_stream (i : Nat) (v : Win) (j : Nat) : (c.setWin i v).stream j = c.stream j := rfl
@[simp] theorem Core.setWin_abank (i : Nat) (v : Win) (j : Nat) : (c.setWin i v).abank j = c.abank j := rfl
@[simp] theorem Core.setWin_tile (i : Nat) (v : Win) (j : Nat) : (c.setWin i v).tile j = c.tile j := rfl
@[simp] theorem Core.setWin_accEntry (i : Nat) (v : Win) (j : Nat) : (c.setWin i v).accEntry j = c.accEntry j := rfl
@[simp] theorem Core.setWin_bank (i : Nat) (v : Win) (j : Nat) : (c.setWin i v).bank j = c.bank j := rfl
@[simp] theorem Core.setChute_reg (e : Nat) (v : Chute) (o : Nat) : (c.setChute e v).reg o = c.reg o := rfl
@[simp] theorem Core.setChute_thread (e : Nat) (v : Chute) (k : Nat) : (c.setChute e v).thread k = c.thread k := rfl
@[simp] theorem Core.setChute_vreg (e : Nat) (v : Chute) (q : Nat) : (c.setChute e v).vreg q = c.vreg q := rfl
@[simp] theorem Core.setChute_tally (e : Nat) (v : Chute) (j : Nat) : (c.setChute e v).tally j = c.tally j := rfl
@[simp] theorem Core.setChute_win (e : Nat) (v : Chute) (j : Nat) : (c.setChute e v).win j = c.win j := rfl
@[simp] theorem Core.setChute_tag (e : Nat) (v : Chute) (j : Nat) : (c.setChute e v).tag j = c.tag j := rfl
@[simp] theorem Core.setChute_shiftSlot (e : Nat) (v : Chute) (j : Nat) : (c.setChute e v).shiftSlot j = c.shiftSlot j := rfl
@[simp] theorem Core.setChute_stream (e : Nat) (v : Chute) (j : Nat) : (c.setChute e v).stream j = c.stream j := rfl
@[simp] theorem Core.setChute_abank (e : Nat) (v : Chute) (j : Nat) : (c.setChute e v).abank j = c.abank j := rfl
@[simp] theorem Core.setChute_tile (e : Nat) (v : Chute) (j : Nat) : (c.setChute e v).tile j = c.tile j := rfl
@[simp] theorem Core.setChute_accEntry (e : Nat) (v : Chute) (j : Nat) : (c.setChute e v).accEntry j = c.accEntry j := rfl
@[simp] theorem Core.setChute_bank (e : Nat) (v : Chute) (j : Nat) : (c.setChute e v).bank j = c.bank j := rfl
@[simp] theorem Core.setTag_reg (i : Nat) (v : Option Tag) (o : Nat) : (c.setTag i v).reg o = c.reg o := rfl
@[simp] theorem Core.setTag_thread (i : Nat) (v : Option Tag) (k : Nat) : (c.setTag i v).thread k = c.thread k := rfl
@[simp] theorem Core.setTag_vreg (i : Nat) (v : Option Tag) (q : Nat) : (c.setTag i v).vreg q = c.vreg q := rfl
@[simp] theorem Core.setTag_tally (i : Nat) (v : Option Tag) (j : Nat) : (c.setTag i v).tally j = c.tally j := rfl
@[simp] theorem Core.setTag_win (i : Nat) (v : Option Tag) (j : Nat) : (c.setTag i v).win j = c.win j := rfl
@[simp] theorem Core.setTag_chute (i : Nat) (v : Option Tag) (j : Nat) : (c.setTag i v).chute j = c.chute j := rfl
@[simp] theorem Core.setTag_shiftSlot (i : Nat) (v : Option Tag) (j : Nat) : (c.setTag i v).shiftSlot j = c.shiftSlot j := rfl
@[simp] theorem Core.setTag_stream (i : Nat) (v : Option Tag) (j : Nat) : (c.setTag i v).stream j = c.stream j := rfl
@[simp] theorem Core.setTag_abank (i : Nat) (v : Option Tag) (j : Nat) : (c.setTag i v).abank j = c.abank j := rfl
@[simp] theorem Core.setTag_tile (i : Nat) (v : Option Tag) (j : Nat) : (c.setTag i v).tile j = c.tile j := rfl
@[simp] theorem Core.setTag_accEntry (i : Nat) (v : Option Tag) (j : Nat) : (c.setTag i v).accEntry j = c.accEntry j := rfl
@[simp] theorem Core.setTag_bank (i : Nat) (v : Option Tag) (j : Nat) : (c.setTag i v).bank j = c.bank j := rfl
@[simp] theorem Core.setShift_reg (i : Nat) (v : ShiftSlot) (o : Nat) : (c.setShift i v).reg o = c.reg o := rfl
@[simp] theorem Core.setShift_thread (i : Nat) (v : ShiftSlot) (k : Nat) : (c.setShift i v).thread k = c.thread k := rfl
@[simp] theorem Core.setShift_vreg (i : Nat) (v : ShiftSlot) (q : Nat) : (c.setShift i v).vreg q = c.vreg q := rfl
@[simp] theorem Core.setShift_tally (i : Nat) (v : ShiftSlot) (j : Nat) : (c.setShift i v).tally j = c.tally j := rfl
@[simp] theorem Core.setShift_win (i : Nat) (v : ShiftSlot) (j : Nat) : (c.setShift i v).win j = c.win j := rfl
@[simp] theorem Core.setShift_chute (i : Nat) (v : ShiftSlot) (j : Nat) : (c.setShift i v).chute j = c.chute j := rfl
@[simp] theorem Core.setShift_tag (i : Nat) (v : ShiftSlot) (j : Nat) : (c.setShift i v).tag j = c.tag j := rfl
@[simp] theorem Core.setShift_stream (i : Nat) (v : ShiftSlot) (j : Nat) : (c.setShift i v).stream j = c.stream j := rfl
@[simp] theorem Core.setShift_abank (i : Nat) (v : ShiftSlot) (j : Nat) : (c.setShift i v).abank j = c.abank j := rfl
@[simp] theorem Core.setShift_tile (i : Nat) (v : ShiftSlot) (j : Nat) : (c.setShift i v).tile j = c.tile j := rfl
@[simp] theorem Core.setShift_accEntry (i : Nat) (v : ShiftSlot) (j : Nat) : (c.setShift i v).accEntry j = c.accEntry j := rfl
@[simp] theorem Core.setShift_bank (i : Nat) (v : ShiftSlot) (j : Nat) : (c.setShift i v).bank j = c.bank j := rfl
@[simp] theorem Core.setSteer_reg (u : Nat) (v : Steer) (o : Nat) : (c.setSteer u v).reg o = c.reg o := rfl
@[simp] theorem Core.setSteer_thread (u : Nat) (v : Steer) (k : Nat) : (c.setSteer u v).thread k = c.thread k := rfl
@[simp] theorem Core.setSteer_vreg (u : Nat) (v : Steer) (q : Nat) : (c.setSteer u v).vreg q = c.vreg q := rfl
@[simp] theorem Core.setSteer_tally (u : Nat) (v : Steer) (j : Nat) : (c.setSteer u v).tally j = c.tally j := rfl
@[simp] theorem Core.setSteer_win (u : Nat) (v : Steer) (j : Nat) : (c.setSteer u v).win j = c.win j := rfl
@[simp] theorem Core.setSteer_chute (u : Nat) (v : Steer) (j : Nat) : (c.setSteer u v).chute j = c.chute j := rfl
@[simp] theorem Core.setSteer_tag (u : Nat) (v : Steer) (j : Nat) : (c.setSteer u v).tag j = c.tag j := rfl
@[simp] theorem Core.setSteer_shiftSlot (u : Nat) (v : Steer) (j : Nat) : (c.setSteer u v).shiftSlot j = c.shiftSlot j := rfl
@[simp] theorem Core.setSteer_stream (u : Nat) (v : Steer) (j : Nat) : (c.setSteer u v).stream j = c.stream j := rfl
@[simp] theorem Core.setSteer_abank (u : Nat) (v : Steer) (j : Nat) : (c.setSteer u v).abank j = c.abank j := rfl
@[simp] theorem Core.setSteer_tile (u : Nat) (v : Steer) (j : Nat) : (c.setSteer u v).tile j = c.tile j := rfl
@[simp] theorem Core.setSteer_accEntry (u : Nat) (v : Steer) (j : Nat) : (c.setSteer u v).accEntry j = c.accEntry j := rfl
@[simp] theorem Core.setSteer_bank (u : Nat) (v : Steer) (j : Nat) : (c.setSteer u v).bank j = c.bank j := rfl
@[simp] theorem Core.setStream_reg (i : Nat) (v : DWord) (o : Nat) : (c.setStream i v).reg o = c.reg o := rfl
@[simp] theorem Core.setStream_thread (i : Nat) (v : DWord) (k : Nat) : (c.setStream i v).thread k = c.thread k := rfl
@[simp] theorem Core.setStream_vreg (i : Nat) (v : DWord) (q : Nat) : (c.setStream i v).vreg q = c.vreg q := rfl
@[simp] theorem Core.setStream_tally (i : Nat) (v : DWord) (j : Nat) : (c.setStream i v).tally j = c.tally j := rfl
@[simp] theorem Core.setStream_win (i : Nat) (v : DWord) (j : Nat) : (c.setStream i v).win j = c.win j := rfl
@[simp] theorem Core.setStream_chute (i : Nat) (v : DWord) (j : Nat) : (c.setStream i v).chute j = c.chute j := rfl
@[simp] theorem Core.setStream_tag (i : Nat) (v : DWord) (j : Nat) : (c.setStream i v).tag j = c.tag j := rfl
@[simp] theorem Core.setStream_shiftSlot (i : Nat) (v : DWord) (j : Nat) : (c.setStream i v).shiftSlot j = c.shiftSlot j := rfl
@[simp] theorem Core.setStream_abank (i : Nat) (v : DWord) (j : Nat) : (c.setStream i v).abank j = c.abank j := rfl
@[simp] theorem Core.setStream_tile (i : Nat) (v : DWord) (j : Nat) : (c.setStream i v).tile j = c.tile j := rfl
@[simp] theorem Core.setStream_accEntry (i : Nat) (v : DWord) (j : Nat) : (c.setStream i v).accEntry j = c.accEntry j := rfl
@[simp] theorem Core.setStream_bank (i : Nat) (v : DWord) (j : Nat) : (c.setStream i v).bank j = c.bank j := rfl
@[simp] theorem Core.setAbank_reg (b : Nat) (v : ABank) (o : Nat) : (c.setAbank b v).reg o = c.reg o := rfl
@[simp] theorem Core.setAbank_thread (b : Nat) (v : ABank) (k : Nat) : (c.setAbank b v).thread k = c.thread k := rfl
@[simp] theorem Core.setAbank_vreg (b : Nat) (v : ABank) (q : Nat) : (c.setAbank b v).vreg q = c.vreg q := rfl
@[simp] theorem Core.setAbank_tally (b : Nat) (v : ABank) (j : Nat) : (c.setAbank b v).tally j = c.tally j := rfl
@[simp] theorem Core.setAbank_win (b : Nat) (v : ABank) (j : Nat) : (c.setAbank b v).win j = c.win j := rfl
@[simp] theorem Core.setAbank_chute (b : Nat) (v : ABank) (j : Nat) : (c.setAbank b v).chute j = c.chute j := rfl
@[simp] theorem Core.setAbank_tag (b : Nat) (v : ABank) (j : Nat) : (c.setAbank b v).tag j = c.tag j := rfl
@[simp] theorem Core.setAbank_shiftSlot (b : Nat) (v : ABank) (j : Nat) : (c.setAbank b v).shiftSlot j = c.shiftSlot j := rfl
@[simp] theorem Core.setAbank_stream (b : Nat) (v : ABank) (j : Nat) : (c.setAbank b v).stream j = c.stream j := rfl
@[simp] theorem Core.setAbank_bank (b : Nat) (v : ABank) (j : Nat) : (c.setAbank b v).bank j = c.bank j := rfl
@[simp] theorem Core.setTile_reg (i : Nat) (v : Tile) (o : Nat) : (c.setTile i v).reg o = c.reg o := rfl
@[simp] theorem Core.setTile_thread (i : Nat) (v : Tile) (k : Nat) : (c.setTile i v).thread k = c.thread k := rfl
@[simp] theorem Core.setTile_vreg (i : Nat) (v : Tile) (q : Nat) : (c.setTile i v).vreg q = c.vreg q := rfl
@[simp] theorem Core.setTile_tally (i : Nat) (v : Tile) (j : Nat) : (c.setTile i v).tally j = c.tally j := rfl
@[simp] theorem Core.setTile_win (i : Nat) (v : Tile) (j : Nat) : (c.setTile i v).win j = c.win j := rfl
@[simp] theorem Core.setTile_chute (i : Nat) (v : Tile) (j : Nat) : (c.setTile i v).chute j = c.chute j := rfl
@[simp] theorem Core.setTile_tag (i : Nat) (v : Tile) (j : Nat) : (c.setTile i v).tag j = c.tag j := rfl
@[simp] theorem Core.setTile_shiftSlot (i : Nat) (v : Tile) (j : Nat) : (c.setTile i v).shiftSlot j = c.shiftSlot j := rfl
@[simp] theorem Core.setTile_stream (i : Nat) (v : Tile) (j : Nat) : (c.setTile i v).stream j = c.stream j := rfl
@[simp] theorem Core.setTile_bank (i : Nat) (v : Tile) (j : Nat) : (c.setTile i v).bank j = c.bank j := rfl
@[simp] theorem Core.setAcc_reg (i v : Nat) (o : Nat) : (c.setAcc i v).reg o = c.reg o := rfl
@[simp] theorem Core.setAcc_thread (i v : Nat) (k : Nat) : (c.setAcc i v).thread k = c.thread k := rfl
@[simp] theorem Core.setAcc_vreg (i v : Nat) (q : Nat) : (c.setAcc i v).vreg q = c.vreg q := rfl
@[simp] theorem Core.setAcc_tally (i v : Nat) (j : Nat) : (c.setAcc i v).tally j = c.tally j := rfl
@[simp] theorem Core.setAcc_win (i v : Nat) (j : Nat) : (c.setAcc i v).win j = c.win j := rfl
@[simp] theorem Core.setAcc_chute (i v : Nat) (j : Nat) : (c.setAcc i v).chute j = c.chute j := rfl
@[simp] theorem Core.setAcc_tag (i v : Nat) (j : Nat) : (c.setAcc i v).tag j = c.tag j := rfl
@[simp] theorem Core.setAcc_shiftSlot (i v : Nat) (j : Nat) : (c.setAcc i v).shiftSlot j = c.shiftSlot j := rfl
@[simp] theorem Core.setAcc_stream (i v : Nat) (j : Nat) : (c.setAcc i v).stream j = c.stream j := rfl
@[simp] theorem Core.setAcc_bank (i v : Nat) (j : Nat) : (c.setAcc i v).bank j = c.bank j := rfl
@[simp] theorem Core.setBank_reg (b : Nat) (v : Bank) (o : Nat) : (c.setBank b v).reg o = c.reg o := rfl
@[simp] theorem Core.setBank_thread (b : Nat) (v : Bank) (k : Nat) : (c.setBank b v).thread k = c.thread k := rfl
@[simp] theorem Core.setBank_vreg (b : Nat) (v : Bank) (q : Nat) : (c.setBank b v).vreg q = c.vreg q := rfl
@[simp] theorem Core.setBank_tally (b : Nat) (v : Bank) (j : Nat) : (c.setBank b v).tally j = c.tally j := rfl
@[simp] theorem Core.setBank_win (b : Nat) (v : Bank) (j : Nat) : (c.setBank b v).win j = c.win j := rfl
@[simp] theorem Core.setBank_chute (b : Nat) (v : Bank) (j : Nat) : (c.setBank b v).chute j = c.chute j := rfl
@[simp] theorem Core.setBank_tag (b : Nat) (v : Bank) (j : Nat) : (c.setBank b v).tag j = c.tag j := rfl
@[simp] theorem Core.setBank_shiftSlot (b : Nat) (v : Bank) (j : Nat) : (c.setBank b v).shiftSlot j = c.shiftSlot j := rfl
@[simp] theorem Core.setBank_stream (b : Nat) (v : Bank) (j : Nat) : (c.setBank b v).stream j = c.stream j := rfl
@[simp] theorem Core.setBank_abank (b : Nat) (v : Bank) (j : Nat) : (c.setBank b v).abank j = c.abank j := rfl
@[simp] theorem Core.setBank_tile (b : Nat) (v : Bank) (j : Nat) : (c.setBank b v).tile j = c.tile j := rfl
@[simp] theorem Core.setBank_accEntry (b : Nat) (v : Bank) (j : Nat) : (c.setBank b v).accEntry j = c.accEntry j := rfl
@[simp] theorem Core.setByte_reg (a : Nat) (v : Byte) (o : Nat) : (c.setByte a v).reg o = c.reg o := rfl
@[simp] theorem Core.setByte_thread (a : Nat) (v : Byte) (k : Nat) : (c.setByte a v).thread k = c.thread k := rfl
@[simp] theorem Core.setByte_vreg (a : Nat) (v : Byte) (q : Nat) : (c.setByte a v).vreg q = c.vreg q := rfl
@[simp] theorem Core.setByte_tally (a : Nat) (v : Byte) (j : Nat) : (c.setByte a v).tally j = c.tally j := rfl
@[simp] theorem Core.setByte_win (a : Nat) (v : Byte) (j : Nat) : (c.setByte a v).win j = c.win j := rfl
@[simp] theorem Core.setByte_chute (a : Nat) (v : Byte) (j : Nat) : (c.setByte a v).chute j = c.chute j := rfl
@[simp] theorem Core.setByte_tag (a : Nat) (v : Byte) (j : Nat) : (c.setByte a v).tag j = c.tag j := rfl
@[simp] theorem Core.setByte_shiftSlot (a : Nat) (v : Byte) (j : Nat) : (c.setByte a v).shiftSlot j = c.shiftSlot j := rfl
@[simp] theorem Core.setByte_stream (a : Nat) (v : Byte) (j : Nat) : (c.setByte a v).stream j = c.stream j := rfl
@[simp] theorem Core.setByte_abank (a : Nat) (v : Byte) (j : Nat) : (c.setByte a v).abank j = c.abank j := rfl
@[simp] theorem Core.setByte_tile (a : Nat) (v : Byte) (j : Nat) : (c.setByte a v).tile j = c.tile j := rfl
@[simp] theorem Core.setByte_accEntry (a : Nat) (v : Byte) (j : Nat) : (c.setByte a v).accEntry j = c.accEntry j := rfl
@[simp] theorem Core.setByte_bank (a : Nat) (v : Byte) (j : Nat) : (c.setByte a v).bank j = c.bank j := rfl
@[simp] theorem Core.setEcc_reg (a : Nat) (v : Ecc) (o : Nat) : (c.setEcc a v).reg o = c.reg o := rfl
@[simp] theorem Core.setEcc_thread (a : Nat) (v : Ecc) (k : Nat) : (c.setEcc a v).thread k = c.thread k := rfl
@[simp] theorem Core.setEcc_vreg (a : Nat) (v : Ecc) (q : Nat) : (c.setEcc a v).vreg q = c.vreg q := rfl
@[simp] theorem Core.setEcc_tally (a : Nat) (v : Ecc) (j : Nat) : (c.setEcc a v).tally j = c.tally j := rfl
@[simp] theorem Core.setEcc_win (a : Nat) (v : Ecc) (j : Nat) : (c.setEcc a v).win j = c.win j := rfl
@[simp] theorem Core.setEcc_chute (a : Nat) (v : Ecc) (j : Nat) : (c.setEcc a v).chute j = c.chute j := rfl
@[simp] theorem Core.setEcc_tag (a : Nat) (v : Ecc) (j : Nat) : (c.setEcc a v).tag j = c.tag j := rfl
@[simp] theorem Core.setEcc_shiftSlot (a : Nat) (v : Ecc) (j : Nat) : (c.setEcc a v).shiftSlot j = c.shiftSlot j := rfl
@[simp] theorem Core.setEcc_stream (a : Nat) (v : Ecc) (j : Nat) : (c.setEcc a v).stream j = c.stream j := rfl
@[simp] theorem Core.setEcc_abank (a : Nat) (v : Ecc) (j : Nat) : (c.setEcc a v).abank j = c.abank j := rfl
@[simp] theorem Core.setEcc_tile (a : Nat) (v : Ecc) (j : Nat) : (c.setEcc a v).tile j = c.tile j := rfl
@[simp] theorem Core.setEcc_accEntry (a : Nat) (v : Ecc) (j : Nat) : (c.setEcc a v).accEntry j = c.accEntry j := rfl
@[simp] theorem Core.setEcc_bank (a : Nat) (v : Ecc) (j : Nat) : (c.setEcc a v).bank j = c.bank j := rfl

@[simp] theorem Core.setReg_reg_same (off : Nat) (v : Word) : (c.setReg off v).reg off = v := SMap.get_set_same _
theorem Core.setReg_reg_other {off j : Nat} (v : Word) (h : j ≠ off) : (c.setReg off v).reg j = c.reg j :=
  SMap.get_set_other _ h
@[simp] theorem Core.setThread_thread_same (t : Nat) (v : Thread) : (c.setThread t v).thread t = v := SMap.get_set_same _
theorem Core.setThread_thread_other {t j : Nat} (v : Thread) (h : j ≠ t) : (c.setThread t v).thread j = c.thread j :=
  SMap.get_set_other _ h
@[simp] theorem Core.setVreg_vreg_same (r : Nat) (v : VWord) : (c.setVreg r v).vreg r = v := SMap.get_set_same _
theorem Core.setVreg_vreg_other {r j : Nat} (v : VWord) (h : j ≠ r) : (c.setVreg r v).vreg j = c.vreg j :=
  SMap.get_set_other _ h
@[simp] theorem Core.setTally_tally_same (i : Nat) (v : Tally) : (c.setTally i v).tally i = v := SMap.get_set_same _
theorem Core.setTally_tally_other {i j : Nat} (v : Tally) (h : j ≠ i) : (c.setTally i v).tally j = c.tally j :=
  SMap.get_set_other _ h
@[simp] theorem Core.setWin_win_same (i : Nat) (v : Win) : (c.setWin i v).win i = v := SMap.get_set_same _
theorem Core.setWin_win_other {i j : Nat} (v : Win) (h : j ≠ i) : (c.setWin i v).win j = c.win j :=
  SMap.get_set_other _ h
@[simp] theorem Core.setChute_chute_same (e : Nat) (v : Chute) : (c.setChute e v).chute e = v := SMap.get_set_same _
theorem Core.setChute_chute_other {e j : Nat} (v : Chute) (h : j ≠ e) : (c.setChute e v).chute j = c.chute j :=
  SMap.get_set_other _ h
@[simp] theorem Core.setTag_tag_same (i : Nat) (v : Option Tag) : (c.setTag i v).tag i = v := SMap.get_set_same _
theorem Core.setTag_tag_other {i j : Nat} (v : Option Tag) (h : j ≠ i) : (c.setTag i v).tag j = c.tag j :=
  SMap.get_set_other _ h
@[simp] theorem Core.setShift_shiftSlot_same (i : Nat) (v : ShiftSlot) : (c.setShift i v).shiftSlot i = v := SMap.get_set_same _
theorem Core.setShift_shiftSlot_other {i j : Nat} (v : ShiftSlot) (h : j ≠ i) : (c.setShift i v).shiftSlot j = c.shiftSlot j :=
  SMap.get_set_other _ h
@[simp] theorem Core.setSteer_steerUnit_same (u : Nat) (v : Steer) : (c.setSteer u v).steerUnit u = v := SMap.get_set_same _
theorem Core.setSteer_steerUnit_other {u j : Nat} (v : Steer) (h : j ≠ u) : (c.setSteer u v).steerUnit j = c.steerUnit j :=
  SMap.get_set_other _ h
@[simp] theorem Core.setStream_stream_same (i : Nat) (v : DWord) : (c.setStream i v).stream i = v := SMap.get_set_same _
theorem Core.setStream_stream_other {i j : Nat} (v : DWord) (h : j ≠ i) : (c.setStream i v).stream j = c.stream j :=
  SMap.get_set_other _ h
@[simp] theorem Core.setAbank_abank_same (b : Nat) (v : ABank) : (c.setAbank b v).abank b = v := SMap.get_set_same _
theorem Core.setAbank_abank_other {b j : Nat} (v : ABank) (h : j ≠ b) : (c.setAbank b v).abank j = c.abank j :=
  SMap.get_set_other _ h
@[simp] theorem Core.setTile_tile_same (i : Nat) (v : Tile) : (c.setTile i v).tile i = v := SMap.get_set_same _
theorem Core.setTile_tile_other {i j : Nat} (v : Tile) (h : j ≠ i) : (c.setTile i v).tile j = c.tile j :=
  SMap.get_set_other _ h
@[simp] theorem Core.setBank_bank_same (b : Nat) (v : Bank) : (c.setBank b v).bank b = v := SMap.get_set_same _
theorem Core.setBank_bank_other {b j : Nat} (v : Bank) (h : j ≠ b) : (c.setBank b v).bank j = c.bank j :=
  SMap.get_set_other _ h

/-! ## A thread's registers -/

variable (th : Thread)

@[simp] theorem Thread.get_zero : th.get 0 = 0 := rfl
@[simp] theorem Thread.put_zero (v : DWord) : th.put 0 v = th := rfl
theorem Thread.get_put_same (r : Nat) (v : DWord) (h : r ≠ 0) : (th.put r v).get r = v := by
  simp [Thread.get, Thread.put, h]
theorem Thread.get_put_other (r q : Nat) (v : DWord) (h : q ≠ r) : (th.put r v).get q = th.get q := by
  unfold Thread.get Thread.put
  by_cases hr : r = 0 <;> simp [hr]
  by_cases hq : q = 0 <;> simp [hq, SMap.get_set_other _ h]
@[simp] theorem Thread.get_advance (r : Nat) : th.advance.get r = th.get r := rfl
@[simp] theorem Thread.pc_advance : th.advance.pc = th.nextPc := rfl

@[simp] theorem Thread.advance_g : th.advance.g = th.g := rfl
@[simp] theorem Thread.putPred_g (q : Nat) (v : Bool) : (th.putPred q v).g = th.g := by unfold Thread.putPred; split <;> rfl
@[simp] theorem Thread.put_p (r : Nat) (v : DWord) : (th.put r v).p = th.p := by unfold Thread.put; split <;> rfl
@[simp] theorem Thread.advance_p : th.advance.p = th.p := rfl
@[simp] theorem Thread.put_pc (r : Nat) (v : DWord) : (th.put r v).pc = th.pc := by unfold Thread.put; split <;> rfl
@[simp] theorem Thread.putPred_pc (q : Nat) (v : Bool) : (th.putPred q v).pc = th.pc := by unfold Thread.putPred; split <;> rfl
@[simp] theorem Thread.put_state (r : Nat) (v : DWord) : (th.put r v).state = th.state := by unfold Thread.put; split <;> rfl
@[simp] theorem Thread.advance_state : th.advance.state = th.state := rfl
@[simp] theorem Thread.putPred_state (q : Nat) (v : Bool) : (th.putPred q v).state = th.state := by unfold Thread.putPred; split <;> rfl
@[simp] theorem Thread.put_wait (r : Nat) (v : DWord) : (th.put r v).wait = th.wait := by unfold Thread.put; split <;> rfl
@[simp] theorem Thread.advance_wait : th.advance.wait = th.wait := rfl
@[simp] theorem Thread.putPred_wait (q : Nat) (v : Bool) : (th.putPred q v).wait = th.wait := by unfold Thread.putPred; split <;> rfl
@[simp] theorem Thread.put_handler (r : Nat) (v : DWord) : (th.put r v).handler = th.handler := by unfold Thread.put; split <;> rfl
@[simp] theorem Thread.advance_handler : th.advance.handler = th.handler := rfl
@[simp] theorem Thread.putPred_handler (q : Nat) (v : Bool) : (th.putPred q v).handler = th.handler := by unfold Thread.putPred; split <;> rfl
@[simp] theorem Thread.put_epc (r : Nat) (v : DWord) : (th.put r v).epc = th.epc := by unfold Thread.put; split <;> rfl
@[simp] theorem Thread.advance_epc : th.advance.epc = th.epc := rfl
@[simp] theorem Thread.putPred_epc (q : Nat) (v : Bool) : (th.putPred q v).epc = th.epc := by unfold Thread.putPred; split <;> rfl
@[simp] theorem Thread.put_ecause (r : Nat) (v : DWord) : (th.put r v).ecause = th.ecause := by unfold Thread.put; split <;> rfl
@[simp] theorem Thread.advance_ecause : th.advance.ecause = th.ecause := rfl
@[simp] theorem Thread.putPred_ecause (q : Nat) (v : Bool) : (th.putPred q v).ecause = th.ecause := by unfold Thread.putPred; split <;> rfl
@[simp] theorem Thread.put_eval (r : Nat) (v : DWord) : (th.put r v).eval = th.eval := by unfold Thread.put; split <;> rfl
@[simp] theorem Thread.advance_eval : th.advance.eval = th.eval := rfl
@[simp] theorem Thread.putPred_eval (q : Nat) (v : Bool) : (th.putPred q v).eval = th.eval := by unfold Thread.putPred; split <;> rfl
@[simp] theorem Thread.put_fcsr (r : Nat) (v : DWord) : (th.put r v).fcsr = th.fcsr := by unfold Thread.put; split <;> rfl
@[simp] theorem Thread.advance_fcsr : th.advance.fcsr = th.fcsr := rfl
@[simp] theorem Thread.putPred_fcsr (q : Nat) (v : Bool) : (th.putPred q v).fcsr = th.fcsr := by unfold Thread.putPred; split <;> rfl
@[simp] theorem Thread.put_rstatus (r : Nat) (v : DWord) : (th.put r v).rstatus = th.rstatus := by unfold Thread.put; split <;> rfl
@[simp] theorem Thread.advance_rstatus : th.advance.rstatus = th.rstatus := rfl
@[simp] theorem Thread.putPred_rstatus (q : Nat) (v : Bool) : (th.putPred q v).rstatus = th.rstatus := by unfold Thread.putPred; split <;> rfl
@[simp] theorem Thread.put_scratch (r : Nat) (v : DWord) : (th.put r v).scratch = th.scratch := by unfold Thread.put; split <;> rfl
@[simp] theorem Thread.advance_scratch : th.advance.scratch = th.scratch := rfl
@[simp] theorem Thread.putPred_scratch (q : Nat) (v : Bool) : (th.putPred q v).scratch = th.scratch := by unfold Thread.putPred; split <;> rfl
@[simp] theorem Thread.put_async (r : Nat) (v : DWord) : (th.put r v).async = th.async := by unfold Thread.put; split <;> rfl
@[simp] theorem Thread.advance_async : th.advance.async = th.async := rfl
@[simp] theorem Thread.putPred_async (q : Nat) (v : Bool) : (th.putPred q v).async = th.async := by unfold Thread.putPred; split <;> rfl
@[simp] theorem Thread.put_pendingG (r : Nat) (v : DWord) : (th.put r v).pendingG = th.pendingG := by unfold Thread.put; split <;> rfl
@[simp] theorem Thread.advance_pendingG : th.advance.pendingG = th.pendingG := rfl
@[simp] theorem Thread.putPred_pendingG (q : Nat) (v : Bool) : (th.putPred q v).pendingG = th.pendingG := by unfold Thread.putPred; split <;> rfl
@[simp] theorem Thread.put_firstArray (r : Nat) (v : DWord) : (th.put r v).firstArray = th.firstArray := by unfold Thread.put; split <;> rfl
@[simp] theorem Thread.advance_firstArray : th.advance.firstArray = th.firstArray := rfl
@[simp] theorem Thread.putPred_firstArray (q : Nat) (v : Bool) : (th.putPred q v).firstArray = th.firstArray := by unfold Thread.putPred; split <;> rfl

end Sys2Proof.Machine
end

