-- ==== Sys2Proof/Laws/State.lean ====
section
/-! SUPPORT. What each update of the engine's state leaves: one lemma per field and update, and read after write for the
named parts, so that no later proof unfolds an update. -/

namespace Sys2Proof.Machine

variable (s : State)

/-! ## setCore -/

@[simp] theorem State.setCore_pending (x : Site) (c : Core) : (s.setCore x c).pending = s.pending := rfl
@[simp] theorem State.setCore_freeCtr (x : Site) (c : Core) : (s.setCore x c).freeCtr = s.freeCtr := rfl
@[simp] theorem State.setCore_reply (x : Site) (c : Core) : (s.setCore x c).reply = s.reply := rfl
@[simp] theorem State.setCore_time (x : Site) (c : Core) : (s.setCore x c).time = s.time := rfl
@[simp] theorem State.setCore_regs (x : Site) (c : Core) : (s.setCore x c).regs = s.regs := rfl
@[simp] theorem State.setCore_latch (x : Site) (c : Core) : (s.setCore x c).latch = s.latch := rfl
@[simp] theorem State.setCore_fields (x : Site) (c : Core) : (s.setCore x c).fields = s.fields := rfl
@[simp] theorem State.setCore_harvest (x : Site) (c : Core) : (s.setCore x c).harvest = s.harvest := rfl
@[simp] theorem State.setCore_holes (x : Site) (c : Core) : (s.setCore x c).holes = s.holes := rfl
@[simp] theorem State.setCore_routePending (x : Site) (c : Core) : (s.setCore x c).routePending = s.routePending := rfl
@[simp] theorem State.setCore_fenced (x : Site) (c : Core) : (s.setCore x c).fenced = s.fenced := rfl
@[simp] theorem State.setCore_net (x : Site) (c : Core) : (s.setCore x c).net = s.net := rfl
@[simp] theorem State.setCore_links (x : Site) (c : Core) : (s.setCore x c).links = s.links := rfl
@[simp] theorem State.setCore_rewritten (x : Site) (c : Core) : (s.setCore x c).rewritten = s.rewritten := rfl
@[simp] theorem State.setCore_hbm (x : Site) (c : Core) : (s.setCore x c).hbm = s.hbm := rfl
@[simp] theorem State.setCore_hbmEcc (x : Site) (c : Core) : (s.setCore x c).hbmEcc = s.hbmEcc := rfl
@[simp] theorem State.setCore_hostA (x : Site) (c : Core) : (s.setCore x c).hostA = s.hostA := rfl
@[simp] theorem State.setCore_hostB (x : Site) (c : Core) : (s.setCore x c).hostB = s.hostB := rfl
@[simp] theorem State.setCore_hoists (x : Site) (c : Core) : (s.setCore x c).hoists = s.hoists := rfl
@[simp] theorem State.setCore_stacks (x : Site) (c : Core) : (s.setCore x c).stackPorts = s.stackPorts := rfl
@[simp] theorem State.setCore_patrol (x : Site) (c : Core) : (s.setCore x c).patrol = s.patrol := rfl
@[simp] theorem State.setCore_seams (x : Site) (c : Core) : (s.setCore x c).seams = s.seams := rfl
@[simp] theorem State.setCore_crt (x : Site) (c : Core) : (s.setCore x c).crt = s.crt := rfl
@[simp] theorem State.setCore_ports (x : Site) (c : Core) : (s.setCore x c).ports = s.ports := rfl
@[simp] theorem State.setCore_pithead (x : Site) (c : Core) : (s.setCore x c).pithead = s.pithead := rfl
@[simp] theorem State.setCore_flash (x : Site) (c : Core) : (s.setCore x c).flash = s.flash := rfl

/-! ## setField -/

@[simp] theorem State.setField_pending (f : Nat) (v : Field) : (s.setField f v).pending = s.pending := rfl
@[simp] theorem State.setField_freeCtr (f : Nat) (v : Field) : (s.setField f v).freeCtr = s.freeCtr := rfl
@[simp] theorem State.setField_reply (f : Nat) (v : Field) : (s.setField f v).reply = s.reply := rfl
@[simp] theorem State.setField_time (f : Nat) (v : Field) : (s.setField f v).time = s.time := rfl
@[simp] theorem State.setField_regs (f : Nat) (v : Field) : (s.setField f v).regs = s.regs := rfl
@[simp] theorem State.setField_latch (f : Nat) (v : Field) : (s.setField f v).latch = s.latch := rfl
@[simp] theorem State.setField_cores (f : Nat) (v : Field) : (s.setField f v).cores = s.cores := rfl
@[simp] theorem State.setField_harvest (f : Nat) (v : Field) : (s.setField f v).harvest = s.harvest := rfl
@[simp] theorem State.setField_holes (f : Nat) (v : Field) : (s.setField f v).holes = s.holes := rfl
@[simp] theorem State.setField_routePending (f : Nat) (v : Field) : (s.setField f v).routePending = s.routePending := rfl
@[simp] theorem State.setField_fenced (f : Nat) (v : Field) : (s.setField f v).fenced = s.fenced := rfl
@[simp] theorem State.setField_net (f : Nat) (v : Field) : (s.setField f v).net = s.net := rfl
@[simp] theorem State.setField_links (f : Nat) (v : Field) : (s.setField f v).links = s.links := rfl
@[simp] theorem State.setField_rewritten (f : Nat) (v : Field) : (s.setField f v).rewritten = s.rewritten := rfl
@[simp] theorem State.setField_hbm (f : Nat) (v : Field) : (s.setField f v).hbm = s.hbm := rfl
@[simp] theorem State.setField_hbmEcc (f : Nat) (v : Field) : (s.setField f v).hbmEcc = s.hbmEcc := rfl
@[simp] theorem State.setField_hostA (f : Nat) (v : Field) : (s.setField f v).hostA = s.hostA := rfl
@[simp] theorem State.setField_hostB (f : Nat) (v : Field) : (s.setField f v).hostB = s.hostB := rfl
@[simp] theorem State.setField_hoists (f : Nat) (v : Field) : (s.setField f v).hoists = s.hoists := rfl
@[simp] theorem State.setField_stacks (f : Nat) (v : Field) : (s.setField f v).stackPorts = s.stackPorts := rfl
@[simp] theorem State.setField_patrol (f : Nat) (v : Field) : (s.setField f v).patrol = s.patrol := rfl
@[simp] theorem State.setField_seams (f : Nat) (v : Field) : (s.setField f v).seams = s.seams := rfl
@[simp] theorem State.setField_crt (f : Nat) (v : Field) : (s.setField f v).crt = s.crt := rfl
@[simp] theorem State.setField_ports (f : Nat) (v : Field) : (s.setField f v).ports = s.ports := rfl
@[simp] theorem State.setField_pithead (f : Nat) (v : Field) : (s.setField f v).pithead = s.pithead := rfl
@[simp] theorem State.setField_flash (f : Nat) (v : Field) : (s.setField f v).flash = s.flash := rfl

/-! ## setHoist -/

@[simp] theorem State.setHoist_pending (h : Nat) (v : Hoist) : (s.setHoist h v).pending = s.pending := rfl
@[simp] theorem State.setHoist_freeCtr (h : Nat) (v : Hoist) : (s.setHoist h v).freeCtr = s.freeCtr := rfl
@[simp] theorem State.setHoist_reply (h : Nat) (v : Hoist) : (s.setHoist h v).reply = s.reply := rfl
@[simp] theorem State.setHoist_time (h : Nat) (v : Hoist) : (s.setHoist h v).time = s.time := rfl
@[simp] theorem State.setHoist_regs (h : Nat) (v : Hoist) : (s.setHoist h v).regs = s.regs := rfl
@[simp] theorem State.setHoist_latch (h : Nat) (v : Hoist) : (s.setHoist h v).latch = s.latch := rfl
@[simp] theorem State.setHoist_cores (h : Nat) (v : Hoist) : (s.setHoist h v).cores = s.cores := rfl
@[simp] theorem State.setHoist_fields (h : Nat) (v : Hoist) : (s.setHoist h v).fields = s.fields := rfl
@[simp] theorem State.setHoist_harvest (h : Nat) (v : Hoist) : (s.setHoist h v).harvest = s.harvest := rfl
@[simp] theorem State.setHoist_holes (h : Nat) (v : Hoist) : (s.setHoist h v).holes = s.holes := rfl
@[simp] theorem State.setHoist_routePending (h : Nat) (v : Hoist) : (s.setHoist h v).routePending = s.routePending := rfl
@[simp] theorem State.setHoist_fenced (h : Nat) (v : Hoist) : (s.setHoist h v).fenced = s.fenced := rfl
@[simp] theorem State.setHoist_net (h : Nat) (v : Hoist) : (s.setHoist h v).net = s.net := rfl
@[simp] theorem State.setHoist_links (h : Nat) (v : Hoist) : (s.setHoist h v).links = s.links := rfl
@[simp] theorem State.setHoist_rewritten (h : Nat) (v : Hoist) : (s.setHoist h v).rewritten = s.rewritten := rfl
@[simp] theorem State.setHoist_hbm (h : Nat) (v : Hoist) : (s.setHoist h v).hbm = s.hbm := rfl
@[simp] theorem State.setHoist_hbmEcc (h : Nat) (v : Hoist) : (s.setHoist h v).hbmEcc = s.hbmEcc := rfl
@[simp] theorem State.setHoist_hostA (h : Nat) (v : Hoist) : (s.setHoist h v).hostA = s.hostA := rfl
@[simp] theorem State.setHoist_hostB (h : Nat) (v : Hoist) : (s.setHoist h v).hostB = s.hostB := rfl
@[simp] theorem State.setHoist_stacks (h : Nat) (v : Hoist) : (s.setHoist h v).stackPorts = s.stackPorts := rfl
@[simp] theorem State.setHoist_patrol (h : Nat) (v : Hoist) : (s.setHoist h v).patrol = s.patrol := rfl
@[simp] theorem State.setHoist_seams (h : Nat) (v : Hoist) : (s.setHoist h v).seams = s.seams := rfl
@[simp] theorem State.setHoist_crt (h : Nat) (v : Hoist) : (s.setHoist h v).crt = s.crt := rfl
@[simp] theorem State.setHoist_ports (h : Nat) (v : Hoist) : (s.setHoist h v).ports = s.ports := rfl
@[simp] theorem State.setHoist_pithead (h : Nat) (v : Hoist) : (s.setHoist h v).pithead = s.pithead := rfl
@[simp] theorem State.setHoist_flash (h : Nat) (v : Hoist) : (s.setHoist h v).flash = s.flash := rfl

/-! ## setSeam -/

@[simp] theorem State.setSeam_pending (n : Nat) (v : Seam) : (s.setSeam n v).pending = s.pending := rfl
@[simp] theorem State.setSeam_freeCtr (n : Nat) (v : Seam) : (s.setSeam n v).freeCtr = s.freeCtr := rfl
@[simp] theorem State.setSeam_reply (n : Nat) (v : Seam) : (s.setSeam n v).reply = s.reply := rfl
@[simp] theorem State.setSeam_time (n : Nat) (v : Seam) : (s.setSeam n v).time = s.time := rfl
@[simp] theorem State.setSeam_regs (n : Nat) (v : Seam) : (s.setSeam n v).regs = s.regs := rfl
@[simp] theorem State.setSeam_latch (n : Nat) (v : Seam) : (s.setSeam n v).latch = s.latch := rfl
@[simp] theorem State.setSeam_cores (n : Nat) (v : Seam) : (s.setSeam n v).cores = s.cores := rfl
@[simp] theorem State.setSeam_fields (n : Nat) (v : Seam) : (s.setSeam n v).fields = s.fields := rfl
@[simp] theorem State.setSeam_harvest (n : Nat) (v : Seam) : (s.setSeam n v).harvest = s.harvest := rfl
@[simp] theorem State.setSeam_holes (n : Nat) (v : Seam) : (s.setSeam n v).holes = s.holes := rfl
@[simp] theorem State.setSeam_routePending (n : Nat) (v : Seam) : (s.setSeam n v).routePending = s.routePending := rfl
@[simp] theorem State.setSeam_fenced (n : Nat) (v : Seam) : (s.setSeam n v).fenced = s.fenced := rfl
@[simp] theorem State.setSeam_net (n : Nat) (v : Seam) : (s.setSeam n v).net = s.net := rfl
@[simp] theorem State.setSeam_links (n : Nat) (v : Seam) : (s.setSeam n v).links = s.links := rfl
@[simp] theorem State.setSeam_rewritten (n : Nat) (v : Seam) : (s.setSeam n v).rewritten = s.rewritten := rfl
@[simp] theorem State.setSeam_hbm (n : Nat) (v : Seam) : (s.setSeam n v).hbm = s.hbm := rfl
@[simp] theorem State.setSeam_hbmEcc (n : Nat) (v : Seam) : (s.setSeam n v).hbmEcc = s.hbmEcc := rfl
@[simp] theorem State.setSeam_hostA (n : Nat) (v : Seam) : (s.setSeam n v).hostA = s.hostA := rfl
@[simp] theorem State.setSeam_hostB (n : Nat) (v : Seam) : (s.setSeam n v).hostB = s.hostB := rfl
@[simp] theorem State.setSeam_hoists (n : Nat) (v : Seam) : (s.setSeam n v).hoists = s.hoists := rfl
@[simp] theorem State.setSeam_stacks (n : Nat) (v : Seam) : (s.setSeam n v).stackPorts = s.stackPorts := rfl
@[simp] theorem State.setSeam_patrol (n : Nat) (v : Seam) : (s.setSeam n v).patrol = s.patrol := rfl
@[simp] theorem State.setSeam_crt (n : Nat) (v : Seam) : (s.setSeam n v).crt = s.crt := rfl
@[simp] theorem State.setSeam_ports (n : Nat) (v : Seam) : (s.setSeam n v).ports = s.ports := rfl
@[simp] theorem State.setSeam_pithead (n : Nat) (v : Seam) : (s.setSeam n v).pithead = s.pithead := rfl
@[simp] theorem State.setSeam_flash (n : Nat) (v : Seam) : (s.setSeam n v).flash = s.flash := rfl

/-! ## setPort -/

@[simp] theorem State.setPort_pending (p : Nat) (v : HostPort) : (s.setPort p v).pending = s.pending := rfl
@[simp] theorem State.setPort_freeCtr (p : Nat) (v : HostPort) : (s.setPort p v).freeCtr = s.freeCtr := rfl
@[simp] theorem State.setPort_reply (p : Nat) (v : HostPort) : (s.setPort p v).reply = s.reply := rfl
@[simp] theorem State.setPort_time (p : Nat) (v : HostPort) : (s.setPort p v).time = s.time := rfl
@[simp] theorem State.setPort_regs (p : Nat) (v : HostPort) : (s.setPort p v).regs = s.regs := rfl
@[simp] theorem State.setPort_latch (p : Nat) (v : HostPort) : (s.setPort p v).latch = s.latch := rfl
@[simp] theorem State.setPort_cores (p : Nat) (v : HostPort) : (s.setPort p v).cores = s.cores := rfl
@[simp] theorem State.setPort_fields (p : Nat) (v : HostPort) : (s.setPort p v).fields = s.fields := rfl
@[simp] theorem State.setPort_harvest (p : Nat) (v : HostPort) : (s.setPort p v).harvest = s.harvest := rfl
@[simp] theorem State.setPort_holes (p : Nat) (v : HostPort) : (s.setPort p v).holes = s.holes := rfl
@[simp] theorem State.setPort_routePending (p : Nat) (v : HostPort) : (s.setPort p v).routePending = s.routePending := rfl
@[simp] theorem State.setPort_fenced (p : Nat) (v : HostPort) : (s.setPort p v).fenced = s.fenced := rfl
@[simp] theorem State.setPort_net (p : Nat) (v : HostPort) : (s.setPort p v).net = s.net := rfl
@[simp] theorem State.setPort_links (p : Nat) (v : HostPort) : (s.setPort p v).links = s.links := rfl
@[simp] theorem State.setPort_rewritten (p : Nat) (v : HostPort) : (s.setPort p v).rewritten = s.rewritten := rfl
@[simp] theorem State.setPort_hbm (p : Nat) (v : HostPort) : (s.setPort p v).hbm = s.hbm := rfl
@[simp] theorem State.setPort_hbmEcc (p : Nat) (v : HostPort) : (s.setPort p v).hbmEcc = s.hbmEcc := rfl
@[simp] theorem State.setPort_hostA (p : Nat) (v : HostPort) : (s.setPort p v).hostA = s.hostA := rfl
@[simp] theorem State.setPort_hostB (p : Nat) (v : HostPort) : (s.setPort p v).hostB = s.hostB := rfl
@[simp] theorem State.setPort_hoists (p : Nat) (v : HostPort) : (s.setPort p v).hoists = s.hoists := rfl
@[simp] theorem State.setPort_stacks (p : Nat) (v : HostPort) : (s.setPort p v).stackPorts = s.stackPorts := rfl
@[simp] theorem State.setPort_patrol (p : Nat) (v : HostPort) : (s.setPort p v).patrol = s.patrol := rfl
@[simp] theorem State.setPort_seams (p : Nat) (v : HostPort) : (s.setPort p v).seams = s.seams := rfl
@[simp] theorem State.setPort_crt (p : Nat) (v : HostPort) : (s.setPort p v).crt = s.crt := rfl
@[simp] theorem State.setPort_pithead (p : Nat) (v : HostPort) : (s.setPort p v).pithead = s.pithead := rfl
@[simp] theorem State.setPort_flash (p : Nat) (v : HostPort) : (s.setPort p v).flash = s.flash := rfl

/-! ## onPithead -/

@[simp] theorem State.onPithead_pending (f : Pithead → Pithead) : (s.onPithead f).pending = s.pending := rfl
@[simp] theorem State.onPithead_freeCtr (f : Pithead → Pithead) : (s.onPithead f).freeCtr = s.freeCtr := rfl
@[simp] theorem State.onPithead_reply (f : Pithead → Pithead) : (s.onPithead f).reply = s.reply := rfl
@[simp] theorem State.onPithead_time (f : Pithead → Pithead) : (s.onPithead f).time = s.time := rfl
@[simp] theorem State.onPithead_regs (f : Pithead → Pithead) : (s.onPithead f).regs = s.regs := rfl
@[simp] theorem State.onPithead_latch (f : Pithead → Pithead) : (s.onPithead f).latch = s.latch := rfl
@[simp] theorem State.onPithead_cores (f : Pithead → Pithead) : (s.onPithead f).cores = s.cores := rfl
@[simp] theorem State.onPithead_fields (f : Pithead → Pithead) : (s.onPithead f).fields = s.fields := rfl
@[simp] theorem State.onPithead_harvest (f : Pithead → Pithead) : (s.onPithead f).harvest = s.harvest := rfl
@[simp] theorem State.onPithead_holes (f : Pithead → Pithead) : (s.onPithead f).holes = s.holes := rfl
@[simp] theorem State.onPithead_routePending (f : Pithead → Pithead) : (s.onPithead f).routePending = s.routePending := rfl
@[simp] theorem State.onPithead_fenced (f : Pithead → Pithead) : (s.onPithead f).fenced = s.fenced := rfl
@[simp] theorem State.onPithead_net (f : Pithead → Pithead) : (s.onPithead f).net = s.net := rfl
@[simp] theorem State.onPithead_links (f : Pithead → Pithead) : (s.onPithead f).links = s.links := rfl
@[simp] theorem State.onPithead_rewritten (f : Pithead → Pithead) : (s.onPithead f).rewritten = s.rewritten := rfl
@[simp] theorem State.onPithead_hbm (f : Pithead → Pithead) : (s.onPithead f).hbm = s.hbm := rfl
@[simp] theorem State.onPithead_hbmEcc (f : Pithead → Pithead) : (s.onPithead f).hbmEcc = s.hbmEcc := rfl
@[simp] theorem State.onPithead_hostA (f : Pithead → Pithead) : (s.onPithead f).hostA = s.hostA := rfl
@[simp] theorem State.onPithead_hostB (f : Pithead → Pithead) : (s.onPithead f).hostB = s.hostB := rfl
@[simp] theorem State.onPithead_hoists (f : Pithead → Pithead) : (s.onPithead f).hoists = s.hoists := rfl
@[simp] theorem State.onPithead_stacks (f : Pithead → Pithead) : (s.onPithead f).stackPorts = s.stackPorts := rfl
@[simp] theorem State.onPithead_patrol (f : Pithead → Pithead) : (s.onPithead f).patrol = s.patrol := rfl
@[simp] theorem State.onPithead_seams (f : Pithead → Pithead) : (s.onPithead f).seams = s.seams := rfl
@[simp] theorem State.onPithead_crt (f : Pithead → Pithead) : (s.onPithead f).crt = s.crt := rfl
@[simp] theorem State.onPithead_ports (f : Pithead → Pithead) : (s.onPithead f).ports = s.ports := rfl
@[simp] theorem State.onPithead_flash (f : Pithead → Pithead) : (s.onPithead f).flash = s.flash := rfl

/-! ## setSreg -/

@[simp] theorem State.setSreg_pending (off : Nat) (v : Word) : (s.setSreg off v).pending = s.pending := rfl
@[simp] theorem State.setSreg_freeCtr (off : Nat) (v : Word) : (s.setSreg off v).freeCtr = s.freeCtr := rfl
@[simp] theorem State.setSreg_reply (off : Nat) (v : Word) : (s.setSreg off v).reply = s.reply := rfl
@[simp] theorem State.setSreg_time (off : Nat) (v : Word) : (s.setSreg off v).time = s.time := rfl
@[simp] theorem State.setSreg_latch (off : Nat) (v : Word) : (s.setSreg off v).latch = s.latch := rfl
@[simp] theorem State.setSreg_cores (off : Nat) (v : Word) : (s.setSreg off v).cores = s.cores := rfl
@[simp] theorem State.setSreg_fields (off : Nat) (v : Word) : (s.setSreg off v).fields = s.fields := rfl
@[simp] theorem State.setSreg_harvest (off : Nat) (v : Word) : (s.setSreg off v).harvest = s.harvest := rfl
@[simp] theorem State.setSreg_holes (off : Nat) (v : Word) : (s.setSreg off v).holes = s.holes := rfl
@[simp] theorem State.setSreg_routePending (off : Nat) (v : Word) : (s.setSreg off v).routePending = s.routePending := rfl
@[simp] theorem State.setSreg_fenced (off : Nat) (v : Word) : (s.setSreg off v).fenced = s.fenced := rfl
@[simp] theorem State.setSreg_net (off : Nat) (v : Word) : (s.setSreg off v).net = s.net := rfl
@[simp] theorem State.setSreg_links (off : Nat) (v : Word) : (s.setSreg off v).links = s.links := rfl
@[simp] theorem State.setSreg_rewritten (off : Nat) (v : Word) : (s.setSreg off v).rewritten = s.rewritten := rfl
@[simp] theorem State.setSreg_hbm (off : Nat) (v : Word) : (s.setSreg off v).hbm = s.hbm := rfl
@[simp] theorem State.setSreg_hbmEcc (off : Nat) (v : Word) : (s.setSreg off v).hbmEcc = s.hbmEcc := rfl
@[simp] theorem State.setSreg_hostA (off : Nat) (v : Word) : (s.setSreg off v).hostA = s.hostA := rfl
@[simp] theorem State.setSreg_hostB (off : Nat) (v : Word) : (s.setSreg off v).hostB = s.hostB := rfl
@[simp] theorem State.setSreg_hoists (off : Nat) (v : Word) : (s.setSreg off v).hoists = s.hoists := rfl
@[simp] theorem State.setSreg_stacks (off : Nat) (v : Word) : (s.setSreg off v).stackPorts = s.stackPorts := rfl
@[simp] theorem State.setSreg_patrol (off : Nat) (v : Word) : (s.setSreg off v).patrol = s.patrol := rfl
@[simp] theorem State.setSreg_seams (off : Nat) (v : Word) : (s.setSreg off v).seams = s.seams := rfl
@[simp] theorem State.setSreg_crt (off : Nat) (v : Word) : (s.setSreg off v).crt = s.crt := rfl
@[simp] theorem State.setSreg_ports (off : Nat) (v : Word) : (s.setSreg off v).ports = s.ports := rfl
@[simp] theorem State.setSreg_pithead (off : Nat) (v : Word) : (s.setSreg off v).pithead = s.pithead := rfl
@[simp] theorem State.setSreg_flash (off : Nat) (v : Word) : (s.setSreg off v).flash = s.flash := rfl

/-! ## Named parts -/

@[simp] theorem State.setCore_field (x : Site) (c : Core) (g : Nat) : (s.setCore x c).field g = s.field g := rfl
@[simp] theorem State.setCore_hoist (x : Site) (c : Core) (k : Nat) : (s.setCore x c).hoist k = s.hoist k := rfl
@[simp] theorem State.setCore_seam (x : Site) (c : Core) (m : Nat) : (s.setCore x c).seam m = s.seam m := rfl
@[simp] theorem State.setCore_port (x : Site) (c : Core) (q : Nat) : (s.setCore x c).port q = s.port q := rfl
@[simp] theorem State.setCore_sreg (x : Site) (c : Core) (o : Nat) : (s.setCore x c).sreg o = s.sreg o := rfl
@[simp] theorem State.setCore_stackState (x : Site) (c : Core) (m : Nat) : (s.setCore x c).stackState m = s.stackState m := rfl
@[simp] theorem State.setCore_siteEntry (x : Site) (c : Core) (y : Site) : (s.setCore x c).siteEntry y = s.siteEntry y := rfl
@[simp] theorem State.setField_core (f : Nat) (v : Field) (y : Site) : (s.setField f v).core y = s.core y := rfl
@[simp] theorem State.setField_hoist (f : Nat) (v : Field) (k : Nat) : (s.setField f v).hoist k = s.hoist k := rfl
@[simp] theorem State.setField_seam (f : Nat) (v : Field) (m : Nat) : (s.setField f v).seam m = s.seam m := rfl
@[simp] theorem State.setField_port (f : Nat) (v : Field) (q : Nat) : (s.setField f v).port q = s.port q := rfl
@[simp] theorem State.setField_sreg (f : Nat) (v : Field) (o : Nat) : (s.setField f v).sreg o = s.sreg o := rfl
@[simp] theorem State.setField_stackState (f : Nat) (v : Field) (m : Nat) : (s.setField f v).stackState m = s.stackState m := rfl
@[simp] theorem State.setField_siteEntry (f : Nat) (v : Field) (y : Site) : (s.setField f v).siteEntry y = s.siteEntry y := rfl
@[simp] theorem State.setHoist_core (h : Nat) (v : Hoist) (y : Site) : (s.setHoist h v).core y = s.core y := rfl
@[simp] theorem State.setHoist_field (h : Nat) (v : Hoist) (g : Nat) : (s.setHoist h v).field g = s.field g := rfl
@[simp] theorem State.setHoist_seam (h : Nat) (v : Hoist) (m : Nat) : (s.setHoist h v).seam m = s.seam m := rfl
@[simp] theorem State.setHoist_port (h : Nat) (v : Hoist) (q : Nat) : (s.setHoist h v).port q = s.port q := rfl
@[simp] theorem State.setHoist_sreg (h : Nat) (v : Hoist) (o : Nat) : (s.setHoist h v).sreg o = s.sreg o := rfl
@[simp] theorem State.setHoist_stackState (h : Nat) (v : Hoist) (m : Nat) : (s.setHoist h v).stackState m = s.stackState m := rfl
@[simp] theorem State.setHoist_siteEntry (h : Nat) (v : Hoist) (y : Site) : (s.setHoist h v).siteEntry y = s.siteEntry y := rfl
@[simp] theorem State.setSeam_core (n : Nat) (v : Seam) (y : Site) : (s.setSeam n v).core y = s.core y := rfl
@[simp] theorem State.setSeam_field (n : Nat) (v : Seam) (g : Nat) : (s.setSeam n v).field g = s.field g := rfl
@[simp] theorem State.setSeam_hoist (n : Nat) (v : Seam) (k : Nat) : (s.setSeam n v).hoist k = s.hoist k := rfl
@[simp] theorem State.setSeam_port (n : Nat) (v : Seam) (q : Nat) : (s.setSeam n v).port q = s.port q := rfl
@[simp] theorem State.setSeam_sreg (n : Nat) (v : Seam) (o : Nat) : (s.setSeam n v).sreg o = s.sreg o := rfl
@[simp] theorem State.setSeam_stackState (n : Nat) (v : Seam) (m : Nat) : (s.setSeam n v).stackState m = s.stackState m := rfl
@[simp] theorem State.setSeam_siteEntry (n : Nat) (v : Seam) (y : Site) : (s.setSeam n v).siteEntry y = s.siteEntry y := rfl
@[simp] theorem State.setPort_core (p : Nat) (v : HostPort) (y : Site) : (s.setPort p v).core y = s.core y := rfl
@[simp] theorem State.setPort_field (p : Nat) (v : HostPort) (g : Nat) : (s.setPort p v).field g = s.field g := rfl
@[simp] theorem State.setPort_hoist (p : Nat) (v : HostPort) (k : Nat) : (s.setPort p v).hoist k = s.hoist k := rfl
@[simp] theorem State.setPort_seam (p : Nat) (v : HostPort) (m : Nat) : (s.setPort p v).seam m = s.seam m := rfl
@[simp] theorem State.setPort_sreg (p : Nat) (v : HostPort) (o : Nat) : (s.setPort p v).sreg o = s.sreg o := rfl
@[simp] theorem State.setPort_stackState (p : Nat) (v : HostPort) (m : Nat) : (s.setPort p v).stackState m = s.stackState m := rfl
@[simp] theorem State.setPort_siteEntry (p : Nat) (v : HostPort) (y : Site) : (s.setPort p v).siteEntry y = s.siteEntry y := rfl
@[simp] theorem State.onPithead_core (f : Pithead → Pithead) (y : Site) : (s.onPithead f).core y = s.core y := rfl
@[simp] theorem State.onPithead_field (f : Pithead → Pithead) (g : Nat) : (s.onPithead f).field g = s.field g := rfl
@[simp] theorem State.onPithead_hoist (f : Pithead → Pithead) (k : Nat) : (s.onPithead f).hoist k = s.hoist k := rfl
@[simp] theorem State.onPithead_seam (f : Pithead → Pithead) (m : Nat) : (s.onPithead f).seam m = s.seam m := rfl
@[simp] theorem State.onPithead_port (f : Pithead → Pithead) (q : Nat) : (s.onPithead f).port q = s.port q := rfl
@[simp] theorem State.onPithead_sreg (f : Pithead → Pithead) (o : Nat) : (s.onPithead f).sreg o = s.sreg o := rfl
@[simp] theorem State.onPithead_stackState (f : Pithead → Pithead) (m : Nat) : (s.onPithead f).stackState m = s.stackState m := rfl
@[simp] theorem State.onPithead_siteEntry (f : Pithead → Pithead) (y : Site) : (s.onPithead f).siteEntry y = s.siteEntry y := rfl
@[simp] theorem State.setSreg_core (off : Nat) (v : Word) (y : Site) : (s.setSreg off v).core y = s.core y := rfl
@[simp] theorem State.setSreg_field (off : Nat) (v : Word) (g : Nat) : (s.setSreg off v).field g = s.field g := rfl
@[simp] theorem State.setSreg_hoist (off : Nat) (v : Word) (k : Nat) : (s.setSreg off v).hoist k = s.hoist k := rfl
@[simp] theorem State.setSreg_seam (off : Nat) (v : Word) (m : Nat) : (s.setSreg off v).seam m = s.seam m := rfl
@[simp] theorem State.setSreg_port (off : Nat) (v : Word) (q : Nat) : (s.setSreg off v).port q = s.port q := rfl
@[simp] theorem State.setSreg_stackState (off : Nat) (v : Word) (m : Nat) : (s.setSreg off v).stackState m = s.stackState m := rfl
@[simp] theorem State.setSreg_siteEntry (off : Nat) (v : Word) (y : Site) : (s.setSreg off v).siteEntry y = s.siteEntry y := rfl

@[simp] theorem State.setCore_core_same (x : Site) (c : Core) : (s.setCore x c).core x = c := SMap.get_set_same _
theorem State.setCore_core_other (x y : Site) (c : Core) (h : y.key ≠ x.key) : (s.setCore x c).core y = s.core y :=
  SMap.get_set_other _ h
@[simp] theorem State.setField_field_same (f : Nat) (v : Field) : (s.setField f v).field f = v := SMap.get_set_same _
theorem State.setField_field_other {f j : Nat} (v : Field) (h : j ≠ f) : (s.setField f v).field j = s.field j :=
  SMap.get_set_other _ h
@[simp] theorem State.setHoist_hoist_same (k : Nat) (v : Hoist) : (s.setHoist k v).hoist k = v := SMap.get_set_same _
theorem State.setHoist_hoist_other {k j : Nat} (v : Hoist) (h : j ≠ k) : (s.setHoist k v).hoist j = s.hoist j :=
  SMap.get_set_other _ h
@[simp] theorem State.setSeam_seam_same (n : Nat) (v : Seam) : (s.setSeam n v).seam n = v := SMap.get_set_same _
theorem State.setSeam_seam_other {n j : Nat} (v : Seam) (h : j ≠ n) : (s.setSeam n v).seam j = s.seam j :=
  SMap.get_set_other _ h
@[simp] theorem State.setPort_port_same (p : Nat) (v : HostPort) : (s.setPort p v).port p = v := SMap.get_set_same _
theorem State.setPort_port_other {p j : Nat} (v : HostPort) (h : j ≠ p) : (s.setPort p v).port j = s.port j :=
  SMap.get_set_other _ h
@[simp] theorem State.setSreg_sreg_same (off : Nat) (v : Word) : (s.setSreg off v).sreg off = v := SMap.get_set_same _
theorem State.setSreg_sreg_other {off j : Nat} (v : Word) (h : j ≠ off) : (s.setSreg off v).sreg j = s.sreg j :=
  SMap.get_set_other _ h
@[simp] theorem State.onPithead_pithead (f : Pithead → Pithead) : (s.onPithead f).pithead = f s.pithead := rfl

end Sys2Proof.Machine
end

