-- ==== Sys2Proof/Laws/Issue.lean ====
section
/-! SUPPORT. What issuing an instruction does (R175, R177, R180), and what the activity of a field leaves as it was
(R374): the lemmas a proof about an instruction cites in place of unfolding `issue` and `State.stirs`. -/

namespace Sys2Proof.Machine

variable (s : State)

/-! ## Activity of a field -/

@[simp] theorem Field.stirred_same (fl : Field) : { fl.stirred with stillSince := fl.stillSince } = fl := rfl

/-- The states that differ from `s` in registers and fields only. -/
def State.RegsFields (t : State) : Prop := ∃ (r : SMap Word) (fl : SMap Field), t = { s with regs := r, fields := fl }

theorem State.RegsFields.setSreg {t : State} (h : s.RegsFields t) (off : Nat) (v : Word) : s.RegsFields (t.setSreg off v) := by
  obtain ⟨r, fl, rfl⟩ := h; exact ⟨_, fl, rfl⟩
theorem State.RegsFields.setField {t : State} (h : s.RegsFields t) (f : Nat) (v : Field) : s.RegsFields (t.setField f v) := by
  obtain ⟨r, fl, rfl⟩ := h; exact ⟨r, _, rfl⟩
theorem State.RegsFields.scount {t : State} (h : s.RegsFields t) (off n : Nat) : s.RegsFields (t.scount off n) := by
  unfold State.scount
  split
  · exact h
  · exact h.setSreg s _ _

/-- Activity changes registers of the canary page and the field's own note of its latest activity, nothing else. -/
theorem State.stirs_cases (f : Nat) : ∃ (r : SMap Word) (fl : SMap Field), s.stirs f = { s with regs := r, fields := fl } := by
  have h0 : s.RegsFields (s.setField f (s.field f).stirred) := State.RegsFields.setField s ⟨s.regs, s.fields, rfl⟩ f _
  unfold State.stirs
  dsimp only
  split
  · exact h0
  · split
    · exact (h0.setSreg s _ _).setSreg s _ _
    · exact ((h0.setSreg s _ _).setSreg s _ _).scount s _ _

@[simp] theorem State.stirs_pending (f : Nat) : (s.stirs f).pending = s.pending := by obtain ⟨r, fl, h⟩ := s.stirs_cases f; rw [h]
@[simp] theorem State.stirs_freeCtr (f : Nat) : (s.stirs f).freeCtr = s.freeCtr := by obtain ⟨r, fl, h⟩ := s.stirs_cases f; rw [h]
@[simp] theorem State.stirs_reply (f : Nat) : (s.stirs f).reply = s.reply := by obtain ⟨r, fl, h⟩ := s.stirs_cases f; rw [h]
@[simp] theorem State.stirs_time (f : Nat) : (s.stirs f).time = s.time := by obtain ⟨r, fl, h⟩ := s.stirs_cases f; rw [h]
@[simp] theorem State.stirs_latch (f : Nat) : (s.stirs f).latch = s.latch := by obtain ⟨r, fl, h⟩ := s.stirs_cases f; rw [h]
@[simp] theorem State.stirs_cores (f : Nat) : (s.stirs f).cores = s.cores := by obtain ⟨r, fl, h⟩ := s.stirs_cases f; rw [h]
@[simp] theorem State.stirs_harvest (f : Nat) : (s.stirs f).harvest = s.harvest := by obtain ⟨r, fl, h⟩ := s.stirs_cases f; rw [h]
@[simp] theorem State.stirs_holes (f : Nat) : (s.stirs f).holes = s.holes := by obtain ⟨r, fl, h⟩ := s.stirs_cases f; rw [h]
@[simp] theorem State.stirs_routePending (f : Nat) : (s.stirs f).routePending = s.routePending := by obtain ⟨r, fl, h⟩ := s.stirs_cases f; rw [h]
@[simp] theorem State.stirs_fenced (f : Nat) : (s.stirs f).fenced = s.fenced := by obtain ⟨r, fl, h⟩ := s.stirs_cases f; rw [h]
@[simp] theorem State.stirs_net (f : Nat) : (s.stirs f).net = s.net := by obtain ⟨r, fl, h⟩ := s.stirs_cases f; rw [h]
@[simp] theorem State.stirs_hbm (f : Nat) : (s.stirs f).hbm = s.hbm := by obtain ⟨r, fl, h⟩ := s.stirs_cases f; rw [h]
@[simp] theorem State.stirs_hbmEcc (f : Nat) : (s.stirs f).hbmEcc = s.hbmEcc := by obtain ⟨r, fl, h⟩ := s.stirs_cases f; rw [h]
@[simp] theorem State.stirs_hostA (f : Nat) : (s.stirs f).hostA = s.hostA := by obtain ⟨r, fl, h⟩ := s.stirs_cases f; rw [h]
@[simp] theorem State.stirs_hostB (f : Nat) : (s.stirs f).hostB = s.hostB := by obtain ⟨r, fl, h⟩ := s.stirs_cases f; rw [h]
@[simp] theorem State.stirs_hoists (f : Nat) : (s.stirs f).hoists = s.hoists := by obtain ⟨r, fl, h⟩ := s.stirs_cases f; rw [h]
@[simp] theorem State.stirs_stacks (f : Nat) : (s.stirs f).stackPorts = s.stackPorts := by obtain ⟨r, fl, h⟩ := s.stirs_cases f; rw [h]
@[simp] theorem State.stirs_patrol (f : Nat) : (s.stirs f).patrol = s.patrol := by obtain ⟨r, fl, h⟩ := s.stirs_cases f; rw [h]
@[simp] theorem State.stirs_seams (f : Nat) : (s.stirs f).seams = s.seams := by obtain ⟨r, fl, h⟩ := s.stirs_cases f; rw [h]
@[simp] theorem State.stirs_crt (f : Nat) : (s.stirs f).crt = s.crt := by obtain ⟨r, fl, h⟩ := s.stirs_cases f; rw [h]
@[simp] theorem State.stirs_ports (f : Nat) : (s.stirs f).ports = s.ports := by obtain ⟨r, fl, h⟩ := s.stirs_cases f; rw [h]
@[simp] theorem State.stirs_pithead (f : Nat) : (s.stirs f).pithead = s.pithead := by obtain ⟨r, fl, h⟩ := s.stirs_cases f; rw [h]
@[simp] theorem State.stirs_flash (f : Nat) : (s.stirs f).flash = s.flash := by obtain ⟨r, fl, h⟩ := s.stirs_cases f; rw [h]
@[simp] theorem State.stirs_core (f : Nat) (x : Site) : (s.stirs f).core x = s.core x := by simp [State.core]
@[simp] theorem State.stirs_hoist (f k : Nat) : (s.stirs f).hoist k = s.hoist k := by simp [State.hoist]
@[simp] theorem State.stirs_seam (f n : Nat) : (s.stirs f).seam n = s.seam n := by simp [State.seam]
@[simp] theorem State.stirs_port (f p : Nat) : (s.stirs f).port p = s.port p := by simp [State.port]
@[simp] theorem State.stirs_thread (f : Nat) (x : Site) (k : Nat) : (s.stirs f).thread x k = s.thread x k := by
  simp [State.thread]
@[simp] theorem State.stirs_issuer (f : Nat) (i : Iss) : (s.stirs f).issuer i = s.issuer i := by simp [State.issuer]

theorem State.stirs_field_other (f g : Nat) (h : g ≠ f) : (s.stirs f).field g = s.field g := by
  unfold State.stirs
  dsimp only
  split
  · exact State.setField_field_other _ _ h
  · split
    · simp [State.setSregBits, State.setField_field_other _ _ h]
    · unfold State.scount
      split <;> simp [State.setSregBits, State.setField_field_other _ _ h]

theorem State.stirs_field_same (f : Nat) :
    { (s.stirs f).field f with stillSince := (s.field f).stillSince } = s.field f := by
  unfold State.stirs
  dsimp only
  split
  · simp
  · split
    · simp [State.setSregBits]
    · unfold State.scount
      split <;> simp [State.setSregBits]

theorem State.stirs_sreg (f off : Nat) (h : off < pageCanary f ∨ pageCanary f + 0x1000 ≤ off) :
    (s.stirs f).sreg off = s.sreg off := by
  have h1 : off ≠ pageCanary f + 0x048 := by omega
  have h2 : off ≠ pageCanary f + 0x058 := by omega
  have h3 : off ≠ pageCanary f + 0x060 := by omega
  unfold State.stirs
  dsimp only
  split
  · simp
  · split
    · simp [State.setSregBits, State.setSreg_sreg_other _ _ h1, State.setSreg_sreg_other _ _ h2]
    · unfold State.scount
      split <;> simp [State.setSregBits, State.setSreg_sreg_other _ _ h1, State.setSreg_sreg_other _ _ h2,
        State.setSreg_sreg_other _ _ h3]

/-! ## Frames -/

theorem CoreOnly.refl (x : Site) (s : State) : CoreOnly x s s := ⟨rfl, fun _ _ => rfl⟩
theorem CoreOnly.setCore (s : State) (x : Site) (c : Core) : CoreOnly x s (s.setCore x c) :=
  ⟨rfl, fun y hy => State.setCore_core_other s x y c hy⟩
theorem CoreOnly.trans {x : Site} {s t u : State} (h : CoreOnly x s t) (k : CoreOnly x t u) : CoreOnly x s u := by
  refine ⟨?_, fun y hy => (k.2 y hy).trans (h.2 y hy)⟩
  have e : u = { t with cores := u.cores } := by rw [← k.1]
  rw [e]; exact h.1

/-- The activity of the core's field after a change of the core alone. -/
theorem CoreOnly.stirs {x : Site} {s t : State} (h : CoreOnly x s t) : OnlyCore x s (t.stirs x.field) := by
  have e : t = { s with cores := t.cores } := by rw [← h.1]
  refine ⟨?_, ?_, ?_, ?_, ?_⟩
  · obtain ⟨r, fl, hr⟩ := t.stirs_cases x.field
    rw [hr, e]
  · intro y hy; simp [h.2 y hy]
  · intro f hf; rw [State.stirs_field_other _ _ _ hf, e]; rfl
  · have := t.stirs_field_same x.field
    have e2 : t.field x.field = s.field x.field := by rw [e]; rfl
    rw [e2] at this; exact this
  · intro off ho; rw [State.stirs_sreg _ _ _ ho, e]; rfl

/-- The same without any activity. -/
theorem CoreOnly.only {x : Site} {s t : State} (h : CoreOnly x s t) : OnlyCore x s t := by
  have e : t = { s with cores := t.cores } := by rw [← h.1]
  refine ⟨?_, h.2, ?_, ?_, ?_⟩
  · rw [e]
  · intro f _; rw [e]; rfl
  · rw [e]; rfl
  · intro off _; rw [e]; rfl

/-- A change of one core followed by the activity of its field is a change of that core only. -/
theorem onlyCore_setCore (x : Site) (c : Core) : OnlyCore x s ((s.setCore x c).stirs x.field) := by
  refine ⟨?_, ?_, ?_, ?_, ?_⟩
  · obtain ⟨r, fl, h⟩ := (s.setCore x c).stirs_cases x.field
    rw [h]; simp [State.setCore]
  · intro y hy; simp [State.setCore_core_other s x y c hy]
  · intro f hf; rw [State.stirs_field_other _ _ _ hf]; rfl
  · exact (s.setCore x c).stirs_field_same x.field
  · intro off h; rw [State.stirs_sreg _ _ _ h]; rfl

/-- A change of one thread followed by the activity of its field is a change of that thread only. -/
theorem onlyThread_setThread (x : Site) (k : Nat) (th : Thread) :
    OnlyThread x k s ((s.setThread x k th).stirs x.field) := by
  refine ⟨onlyCore_setCore s x _, ?_⟩
  simp [State.setThread, State.onCore, State.thread]

/-- A thread reads back as it was set. -/
@[simp] theorem State.setThread_thread_same (x : Site) (k : Nat) (th : Thread) : (s.setThread x k th).thread x k = th := by
  simp [State.setThread, State.onCore, State.thread]
@[simp] theorem State.setThread_issuer (i : Iss) (th : Thread) :
    (s.setThread i.site i.thread.val th).issuer i = th := by simp [State.issuer]

/-! ## Issue -/

/-- Everything an instruction that goes can do: a skip, a wait for an RLD's result, or its effect. -/
theorem issueNow_cases (i : Iss) (rs : List Nat) (s : State) (run : Thread → State) :
    (guardHolds (s.issuer i) i = false ∧ issueNow i rs s run = s.setThread i.site i.thread.val (s.issuer i).advance) ∨
    ((s.issuer i).awaited rs ≠ [] ∧ issueNow i rs s run = s.setThread i.site i.thread.val
      { s.issuer i with state := .waitRemote, wait := .rldResult ((s.issuer i).awaited rs) false }) ∨
    (guardHolds (s.issuer i) i = true ∧ (s.issuer i).awaited rs = [] ∧
      issueNow i rs s run = (run (s.issuer i)).stirs i.site.field) := by
  simp only [State.issuer]
  by_cases g : guardHolds (s.thread i.site i.thread.val) i = true
  · by_cases w : (s.thread i.site i.thread.val).awaited rs = []
    · exact .inr (.inr ⟨g, w, by simp [issueNow, g, w]⟩)
    · exact .inr (.inl ⟨w, by simp [issueNow, g, w]⟩)
  · exact .inl ⟨by simpa using g, by simp [issueNow, g]⟩

/-- An instruction that stands ready runs, and its field has been active. -/
theorem issue_ready {i : Iss} {rs : List Nat} {s : State} (h : Ready i rs s = true) (run : Thread → State) :
    issue i rs s run = (run (s.issuer i)).stirs i.site.field := by
  simp only [Ready, Bool.and_eq_true, List.isEmpty_iff] at h
  obtain ⟨⟨h1, h2⟩, h3⟩ := h
  simp only [State.issuer] at h2 h3 ⊢
  simp [issue, issueNow, h1, h2, h3]

/-- Only a thread of a core that runs, itself RUNNING, owes an instruction. -/
theorem owesIssue_runs {s : State} {x : Site} {t : Nat} (h : owesIssue s x t = true) :
    s.coreRuns x = true ∧ (s.thread x t).state = .running := by
  simp only [owesIssue, Bool.and_eq_true, decide_eq_true_eq] at h
  exact ⟨h.1.1.1, h.1.1.2⟩

/-- One that cannot issue, and is owed to no exception of its wait, changes nothing. -/
theorem issue_blocked {i : Iss} {rs : List Nat} {s : State} (h : canIssue s i.site i.thread.val = false)
    (o : owesIssue s i.site i.thread.val = false) (run : Thread → State) : issue i rs s run = s := by simp [issue, h, o]

/-- One whose guard is false is skipped. -/
theorem issue_skipped {i : Iss} {rs : List Nat} {s : State} (h : canIssue s i.site i.thread.val = true)
    (g : guardHolds (s.issuer i) i = false) (run : Thread → State) :
    issue i rs s run = s.setThread i.site i.thread.val (s.issuer i).advance := by
  simp only [State.issuer] at g ⊢
  simp [issue, issueNow, h, g]

/-- Everything an issue can do: nothing; a skip, a wait for an RLD's result, or the instruction's effect; and where exceptions
were detected in the wait before it, the same and then they are due. -/
theorem issue_cases (i : Iss) (rs : List Nat) (s : State) (run : Thread → State) :
    (canIssue s i.site i.thread.val = false ∧ owesIssue s i.site i.thread.val = false ∧ issue i rs s run = s) ∨
    (canIssue s i.site i.thread.val = true ∧ issue i rs s run = issueNow i rs s run) ∨
    (owesIssue s i.site i.thread.val = true ∧ issue i rs s run =
      ((issueNow i rs s run).onThread i.site i.thread.val Thread.dueNow).settleStop i.site i.thread.val) := by
  by_cases h : canIssue s i.site i.thread.val = true
  · exact .inr (.inl ⟨h, by simp [issue, h]⟩)
  · by_cases o : owesIssue s i.site i.thread.val = true
    · exact .inr (.inr ⟨o, by simp [issue, h, o]⟩)
    · exact .inl ⟨by simpa using h, by simpa using o, issue_blocked (by simpa using h) (by simpa using o) run⟩

/-! ## Effects on one thread -/

/-- The step of a thread that writes one general register. -/
theorem Thread.wrote_put (th : Thread) (d : Nat) (v : DWord) (pc : Nat) : th.wrote { th.put d v with pc := pc } d v pc := by
  refine ⟨?_, ?_, rfl, ?_⟩
  · by_cases h : d = 0
    · simp [h, Thread.get]
    · have := th.get_put_same d v h
      simp [h]; exact this
  · intro r hr; exact th.get_put_other d r v hr
  · unfold Thread.put; split <;> rfl

theorem Thread.wrote_advance (th : Thread) (d : Nat) (v : DWord) : th.wrote (th.put d v).advance d v th.nextPc := by
  have h : (th.put d v).advance = { th.put d v with pc := th.nextPc } := by
    simp [Thread.advance, Thread.nextPc]
  rw [h]; exact th.wrote_put d v _

/-- An instruction that stands ready and whose effect is to write one general register does so. -/
theorem writesG_of {i : Iss} {rs : List Nat} {d : GReg} {v : DWord} {pc : Nat} {s : State} {run : Thread → State}
    (h : Ready i rs s = true) (hr : ∃ th', run (s.issuer i) = s.setThread i.site i.thread.val th' ∧ (s.issuer i).wrote th' d.val v pc) :
    WritesG i d v pc s (.next (issue i rs s run)) := by
  obtain ⟨th', h1, h2⟩ := hr
  refine ⟨_, rfl, ?_⟩
  rw [issue_ready h, h1]
  exact ⟨by simpa using h2, onlyThread_setThread s _ _ _⟩

end Sys2Proof.Machine
end

