-- ==== Sys2Proof/Laws/Links.lean ====
section
/-! SUPPORT. The credits of the mesh links: what an update of a link leaves, read after write, and all that sending and
freeing flits can do (R323, R330). -/

namespace Sys2Proof.Machine

variable (s : State)

/-! ## setLink -/

@[simp] theorem State.setLink_pending (x : Nat) (d : Side) (l : Link) : (s.setLink x d l).pending = s.pending := rfl
@[simp] theorem State.setLink_freeCtr (x : Nat) (d : Side) (l : Link) : (s.setLink x d l).freeCtr = s.freeCtr := rfl
@[simp] theorem State.setLink_reply (x : Nat) (d : Side) (l : Link) : (s.setLink x d l).reply = s.reply := rfl
@[simp] theorem State.setLink_time (x : Nat) (d : Side) (l : Link) : (s.setLink x d l).time = s.time := rfl
@[simp] theorem State.setLink_regs (x : Nat) (d : Side) (l : Link) : (s.setLink x d l).regs = s.regs := rfl
@[simp] theorem State.setLink_latch (x : Nat) (d : Side) (l : Link) : (s.setLink x d l).latch = s.latch := rfl
@[simp] theorem State.setLink_cores (x : Nat) (d : Side) (l : Link) : (s.setLink x d l).cores = s.cores := rfl
@[simp] theorem State.setLink_fields (x : Nat) (d : Side) (l : Link) : (s.setLink x d l).fields = s.fields := rfl
@[simp] theorem State.setLink_harvest (x : Nat) (d : Side) (l : Link) : (s.setLink x d l).harvest = s.harvest := rfl
@[simp] theorem State.setLink_holes (x : Nat) (d : Side) (l : Link) : (s.setLink x d l).holes = s.holes := rfl
@[simp] theorem State.setLink_routePending (x : Nat) (d : Side) (l : Link) : (s.setLink x d l).routePending = s.routePending := rfl
@[simp] theorem State.setLink_fenced (x : Nat) (d : Side) (l : Link) : (s.setLink x d l).fenced = s.fenced := rfl
@[simp] theorem State.setLink_rewritten (x : Nat) (d : Side) (l : Link) : (s.setLink x d l).rewritten = s.rewritten := rfl
@[simp] theorem State.setLink_net (x : Nat) (d : Side) (l : Link) : (s.setLink x d l).net = s.net := rfl
@[simp] theorem State.setLink_hbm (x : Nat) (d : Side) (l : Link) : (s.setLink x d l).hbm = s.hbm := rfl
@[simp] theorem State.setLink_hbmEcc (x : Nat) (d : Side) (l : Link) : (s.setLink x d l).hbmEcc = s.hbmEcc := rfl
@[simp] theorem State.setLink_hostA (x : Nat) (d : Side) (l : Link) : (s.setLink x d l).hostA = s.hostA := rfl
@[simp] theorem State.setLink_hostB (x : Nat) (d : Side) (l : Link) : (s.setLink x d l).hostB = s.hostB := rfl
@[simp] theorem State.setLink_hoists (x : Nat) (d : Side) (l : Link) : (s.setLink x d l).hoists = s.hoists := rfl
@[simp] theorem State.setLink_stackPorts (x : Nat) (d : Side) (l : Link) : (s.setLink x d l).stackPorts = s.stackPorts := rfl
@[simp] theorem State.setLink_patrol (x : Nat) (d : Side) (l : Link) : (s.setLink x d l).patrol = s.patrol := rfl
@[simp] theorem State.setLink_seams (x : Nat) (d : Side) (l : Link) : (s.setLink x d l).seams = s.seams := rfl
@[simp] theorem State.setLink_crt (x : Nat) (d : Side) (l : Link) : (s.setLink x d l).crt = s.crt := rfl
@[simp] theorem State.setLink_ports (x : Nat) (d : Side) (l : Link) : (s.setLink x d l).ports = s.ports := rfl
@[simp] theorem State.setLink_pithead (x : Nat) (d : Side) (l : Link) : (s.setLink x d l).pithead = s.pithead := rfl
@[simp] theorem State.setLink_flash (x : Nat) (d : Side) (l : Link) : (s.setLink x d l).flash = s.flash := rfl
@[simp] theorem State.setLink_core (x : Nat) (d : Side) (l : Link) (y : Site) : (s.setLink x d l).core y = s.core y := rfl
@[simp] theorem State.setLink_field (x : Nat) (d : Side) (l : Link) (f : Nat) : (s.setLink x d l).field f = s.field f := rfl
@[simp] theorem State.setLink_sreg (x : Nat) (d : Side) (l : Link) (o : Nat) : (s.setLink x d l).sreg o = s.sreg o := rfl
@[simp] theorem State.setLink_siteEntry (x : Nat) (d : Side) (l : Link) (y : Site) : (s.setLink x d l).siteEntry y = s.siteEntry y := rfl

/-- Numbers of links tell router and side apart. -/
theorem linkNo_inj {x y : Nat} {d d' : Side} (h : 4 * x + Side.index d = 4 * y + Side.index d') : x = y ∧ d = d' := by
  cases d <;> cases d' <;> simp [Side.index] at h ⊢ <;> omega
@[simp] theorem State.setLink_link_same (x : Nat) (d : Side) (l : Link) : (s.setLink x d l).link x d = l :=
  SMap.get_set_same _
theorem State.setLink_link_other {x y : Nat} {d d' : Side} (l : Link) (h : x = y → d ≠ d') :
    (s.setLink x d l).link y d' = s.link y d' :=
  SMap.get_set_other _ fun k => by
    obtain ⟨hx, hd⟩ := linkNo_inj k
    exact h hx.symm hd.symm

/-! ## Credits -/

/-- A returned credit moves the receiver's counter on by one, modulo 4, and the sender has seen it. -/
theorem Link.return_counter (l : Link) (vc : Nat) (lane : Bool) :
    (l.return_ vc lane).returned.get (fun _ => 0) vc = (l.returned.get (fun _ => 0) vc + 1) % 4 ∧
      (l.return_ vc lane).seen.get (fun _ => 0) vc = (l.returned.get (fun _ => 0) vc + 1) % 4 :=
  ⟨SMap.get_set_same _, SMap.get_set_same _⟩
/-- Where the sender had seen every counter, it takes exactly one credit back. -/
theorem Link.return_used (l : Link) (vc : Nat) (lane : Bool)
    (h : l.seen.get (fun _ => 0) vc = l.returned.get (fun _ => 0) vc) (hr : l.returned.get (fun _ => 0) vc < 4) :
    (l.return_ vc lane).used.get (fun _ => 0) (laneKey vc lane) = l.used.get (fun _ => 0) (laneKey vc lane) - 1 := by
  have e : ((l.returned.get (fun _ => 0) vc + 1) % 4 + 4 - l.seen.get (fun _ => 0) vc) % 4 = 1 := by rw [h]; omega
  unfold Link.return_
  simp only [SMap.get_set_same, e]

/-- Freeing flits changes the credits of the links and nothing else. -/
theorem State.freeFlits_eq (x : Site) (inp vc : Nat) (lane : Bool) (n : Nat) :
    ∃ l, s.freeFlits x inp vc lane n = { s with links := l } := by
  unfold State.freeFlits
  split
  · exact ⟨_, rfl⟩
  · exact ⟨s.links, rfl⟩
/-- Sent flits take their credits. -/
theorem State.sendFlits_room (x : Site) (d : Side) (vc : Nat) (lane : Bool) (n : Nat) :
    (s.sendFlits x d vc lane n).room x d vc lane = s.room x d vc lane - n := by
  have e : ((s.sendFlits x d vc lane n).link x.key d).used.get (fun _ => 0) (laneKey vc lane) =
      (s.link x.key d).used.get (fun _ => 0) (laneKey vc lane) + n := by
    show (((s.setLink x.key d _).link x.key d).used).get _ _ = _
    rw [State.setLink_link_same]
    exact SMap.get_set_same _
  unfold State.room
  rw [e]
  omega

end Sys2Proof.Machine
end

