-- ==== Sys2Proof/Laws/Memory.lean ====
section
/-! SUPPORT. Core SRAM: where a byte lies in the banks (R46), read after write, what an access to clean words does (R184,
R283), and that every operation keeps the canonical form. -/

namespace Sys2Proof.Machine

variable (c : Core) (s : State)

/-! ## Places -/

theorem Core.bankOf_eq (a : Nat) : c.bankOf a =
    4 * (a / 32768 % 4) + (if c.linear (a / 32768 % 4) then a / 8192 % 4 else a / 16 % 4) := by
  simp [Core.bankOf, bits, Nat.shiftRight_eq_div_pow]

theorem Core.wordIn_eq (a : Nat) : c.wordIn a =
    (if c.linear (a / 32768 % 4) then a / 16 % 512 else a / 64 % 512) := by
  simp [Core.wordIn, bits, Nat.shiftRight_eq_div_pow]

theorem Core.place_inj {a b : Nat} (ha : a < 0x20000) (hb : b < 0x20000) (h : c.place a = c.place b) : a = b := by
  have hw : ∀ x, c.wordIn x < 512 := by intro x; rw [c.wordIn_eq]; split <;> omega
  have wa := hw a
  have wb := hw b
  simp only [Core.place] at h
  have h1 : c.bankOf a = c.bankOf b := by omega
  have h2 : c.wordIn a = c.wordIn b := by omega
  have h3 : a % 16 = b % 16 := by omega
  clear h wa wb hw
  rw [c.bankOf_eq, c.bankOf_eq] at h1
  rw [c.wordIn_eq, c.wordIn_eq] at h2
  have hq : a / 32768 % 4 = b / 32768 % 4 := by
    have : ∀ (x : Bool) (m n : Nat), (if x then m % 4 else n % 4) < 4 := by intro x m n; split <;> omega
    have := this (c.linear (a / 32768 % 4)) (a / 8192) (a / 16)
    have := ‹∀ (x : Bool) (m n : Nat), (if x then m % 4 else n % 4) < 4› (c.linear (b / 32768 % 4)) (b / 8192) (b / 16)
    omega
  rw [hq] at h1 h2
  split at h1
  · rename_i hl; rw [if_pos hl, if_pos hl] at h2; omega
  · rename_i hl; rw [if_neg hl, if_neg hl] at h2; omega

/-! ## Bytes -/

theorem Core.byte_setByte_same (a : Nat) (v : Byte) : (c.setByte a v).byte a = v := by
  have : (c.setByte a v).place a = c.place a := rfl
  unfold Core.byte; rw [this]; exact SMap.get_set_same _

theorem Core.byte_setByte_other {a b : Nat} (v : Byte) (ha : a < 0x20000) (hb : b < 0x20000) (h : b ≠ a) :
    (c.setByte a v).byte b = c.byte b := by
  have e : (c.setByte a v).place b = c.place b := rfl
  unfold Core.byte; rw [e]
  exact SMap.get_set_other _ fun hp => h (c.place_inj hb ha hp)

/-- Setting bytes changes SRAM only. -/
theorem Core.setBytes_eq (bs : List Nat) : ∀ (c : Core) (a : Nat), c.setBytes a bs = { c with sram := (c.setBytes a bs).sram } := by
  induction bs with
  | nil => intro c a; rfl
  | cons b bs ih =>
    intro c a
    have := ih (c.setByte a (BitVec.ofNat 8 b)) (a + 1)
    simp only [Core.setBytes]; rw [this]; rfl

/-- Read after write, over a range of SRAM. -/
theorem Core.byte_setBytes (bs : List Nat) : ∀ (c : Core) (a b : Nat), a + bs.length ≤ 0x20000 → b < 0x20000 →
    (c.setBytes a bs).byte b =
      if a ≤ b ∧ b < a + bs.length then BitVec.ofNat 8 (bs.getD (b - a) 0) else c.byte b := by
  induction bs with
  | nil => intro c a b _ _; rw [Core.setBytes, if_neg (by rintro ⟨h1, h2⟩; simp only [List.length_nil] at h2; omega)]
  | cons v bs ih =>
    intro c a b h hb
    simp only [List.length_cons] at h ⊢
    rw [Core.setBytes, ih _ _ _ (by omega) hb]
    by_cases he : b = a
    · subst he
      have h1 : ¬(b + 1 ≤ b ∧ b < b + 1 + bs.length) := by omega
      have h2 : b ≤ b ∧ b < b + (bs.length + 1) := by omega
      rw [if_neg h1, if_pos h2, Core.byte_setByte_same]; simp
    · rw [Core.byte_setByte_other _ _ (by omega) hb he]
      by_cases hr : a + 1 ≤ b ∧ b < a + 1 + bs.length
      · have h2 : a ≤ b ∧ b < a + (bs.length + 1) := by omega
        rw [if_pos hr, if_pos h2]
        obtain ⟨n, rfl⟩ : ∃ n, b = a + 1 + n := ⟨b - a - 1, by omega⟩
        have e1 : a + 1 + n - (a + 1) = n := by omega
        have e2 : a + 1 + n - a = n + 1 := by omega
        rw [e1, e2]; simp
      · have h2 : ¬(a ≤ b ∧ b < a + (bs.length + 1)) := by omega
        rw [if_neg hr, if_neg h2]

theorem Core.setBytes_wf (bs : List Nat) : ∀ (c : Core) (a : Nat), c.memoryWf = true → (c.setBytes a bs).memoryWf = true := by
  induction bs with
  | nil => intro c a h; exact h
  | cons b bs ih => intro c a h; exact ih _ _ (SMap.wf_set h)

theorem bytes_le : ∀ (n a : Nat), leNat (c.bytes a n) = c.le a n := by
  intro n
  induction n with
  | zero => intro a; rfl
  | succ n ih =>
    intro a
    have h : c.bytes a (n + 1) = (c.byte a).toNat :: c.bytes (a + 1) n := by
      simp [Core.bytes, List.range_succ_eq_map, Function.comp_def, Nat.add_assoc, Nat.add_comm 1]
    have hb := (c.byte a).isLt
    rw [h]; simp only [leNat, Core.le, ih]; omega

/-! ## Access to clean words -/

theorem State.readWord_clean (x : Site) (w : Nat) (h : (s.core x).eccAt w = .clean) : s.readWord x w = s := by
  simp [State.readWord, h]

theorem State.readSram_clean (x : Site) (a n : Nat) (h : (s.core x).cleanAt a n = true) :
    s.readSram x a n = ((s.core x).bytes a n, none, s) := by
  simp only [Core.cleanAt, List.all_eq_true, decide_eq_true_eq] at h
  simp only [State.readSram, Prod.mk.injEq, true_and]
  constructor
  · simp only [Core.badWord, List.find?_eq_none]
    intro w hw; simp [h w hw]
  · have key : ∀ l : List Nat, (∀ w ∈ l, (s.core x).eccAt w = .clean) → l.foldl (fun s w => s.readWord x w) s = s := by
      intro l
      induction l with
      | nil => intro _; rfl
      | cons w l ih =>
        intro hl
        simp only [List.foldl_cons, State.readWord_clean s x w (hl w (by simp))]
        exact ih fun w hw => hl w (by simp [hw])
    exact key _ h

theorem ready_coreOn {i : Iss} {rs : List Nat} {s : State} (h : Ready i rs s = true) : s.coreOn i.site = true := by
  simp only [Ready, canIssue, State.coreRuns, Bool.and_eq_true] at h
  exact h.1.1.1.1.1.1.1.1.1

/-- A load from plain SRAM gives its bytes to the thread and nothing else changes (R184). -/
theorem loadRun_plain {i : Iss} {rs : List Nat} {s : State} (h : Ready i rs s = true) (addr n align : Nat)
    (put : Thread → List Nat → Thread) (ha : addr % align = 0) (hn : 0 < n)
    (hp : (s.core i.site).plainAt addr n = true) :
    loadRun i addr n align put s =
      s.setThread i.site i.thread.val (put (s.issuer i) ((s.core i.site).bytes addr n)).advance := by
  simp only [Core.plainAt, Bool.and_eq_true, decide_eq_true_eq] at hp
  obtain ⟨⟨h1, h2⟩, h3⟩ := hp
  have hacc : inAcc addr n = false := by simp [inAcc]; omega
  have hs : inSram addr n = true := by simp [inSram, h1]
  have hchk : accessCheck (s.core i.site) (s.width i.site) addr n align false = none := by
    simp [accessCheck, ha, hs, h2, hacc]
  simp only [loadRun, hchk, readLocal, hacc, Bool.false_eq_true, if_false, State.readSram_clean s _ _ _ h3,
    State.unlessSealed, ready_coreOn h, if_true]
  rfl

/-! ## Stores to clean words -/

theorem Core.setBytes_append (l m : List Nat) : ∀ (c : Core) (a : Nat),
    c.setBytes a (l ++ m) = (c.setBytes a l).setBytes (a + l.length) m := by
  induction l with
  | nil => intro c a; rfl
  | cons b l ih => intro c a; simp only [List.cons_append, Core.setBytes, ih, List.length_cons]; congr 1; omega

theorem Core.setBytes_eccAt (c : Core) (a : Nat) (bs : List Nat) (w : Nat) : (c.setBytes a bs).eccAt w = c.eccAt w := by
  rw [Core.setBytes_eq]; rfl

theorem mem_wordsOf {a n w : Nat} : w ∈ wordsOf a n ↔ ∃ b, a ≤ b ∧ b < a + n ∧ w = b / 16 * 16 := by
  unfold wordsOf
  split
  · constructor
    · intro h; simp at h
    · rintro ⟨b, h1, h2, -⟩; omega
  · simp only [List.mem_map, List.mem_range]
    constructor
    · rintro ⟨k, hk, rfl⟩
      by_cases h0 : k = 0
      · exact ⟨a, by omega, by omega, by omega⟩
      · exact ⟨(a / 16 + k) * 16, by omega, by omega, by omega⟩
    · rintro ⟨b, h1, h2, rfl⟩
      exact ⟨b / 16 - a / 16, by omega, by omega⟩

theorem Core.eccAt_word (c : Core) (a : Nat) : c.eccAt (a / 16 * 16) = c.eccAt a := by
  have h : c.placeWord (a / 16 * 16) = c.placeWord a := by
    have e1 : a / 16 * 16 / 32768 % 4 = a / 32768 % 4 := by omega
    have e2 : a / 16 * 16 / 8192 % 4 = a / 8192 % 4 := by omega
    have e3 : a / 16 * 16 / 16 % 4 = a / 16 % 4 := by omega
    have e4 : a / 16 * 16 / 16 % 512 = a / 16 % 512 := by omega
    have e5 : a / 16 * 16 / 64 % 512 = a / 64 % 512 := by omega
    simp only [Core.placeWord, Core.bankOf_eq, Core.wordIn_eq, e1, e2, e3, e4, e5]
  simp only [Core.eccAt, h]

@[simp] theorem State.setCore_siteCode (x y : Site) (c : Core) : (s.setCore x c).siteCode y = s.siteCode y := rfl

theorem writeWord_clean (x : Site) (a : Nat) (bs : List Nat) (h : (s.core x).eccAt a = .clean) :
    s.writeWord x a bs = s.setCore x ((s.core x).setBytes a bs) := by simp [State.writeWord, h]

/-- A store to clean words sets its bytes in the core's SRAM and changes nothing else. -/
theorem writeSramN_clean (x : Site) : ∀ (n : Nat) (s : State) (a : Nat) (bs : List Nat), bs.length < 16 * n - a % 16 + 1 →
    (s.core x).cleanAt a bs.length = true →
    CoreOnly x s (s.writeSramN x n a bs) ∧ (s.writeSramN x n a bs).core x = (s.core x).setBytes a bs := by
  intro n
  induction n with
  | zero =>
    intro s a bs hl _
    have : bs = [] := by cases bs with | nil => rfl | cons b t => simp at hl
    subst this; exact ⟨CoreOnly.refl x s, rfl⟩
  | succ n ih =>
    intro s a bs hl hc
    cases bs with
    | nil => exact ⟨CoreOnly.refl x s, rfl⟩
    | cons b t =>
      generalize hbs : b :: t = bs at *
      have hpos : 0 < bs.length := by subst hbs; simp
      have hw : s.writeSramN x (n + 1) a bs =
          if (s.writeWord x a (bs.take (16 - a % 16))).siteCode x = s.siteCode x then
            (s.writeWord x a (bs.take (16 - a % 16))).writeSramN x n (a + (16 - a % 16)) (bs.drop (16 - a % 16))
          else s.writeWord x a (bs.take (16 - a % 16)) := by
        subst hbs; rfl
      have hall : ∀ w, (∃ b, a ≤ b ∧ b < a + bs.length ∧ w = b / 16 * 16) → (s.core x).eccAt w = .clean := by
        intro w hw
        simp only [Core.cleanAt, List.all_eq_true, decide_eq_true_eq] at hc
        exact hc w (mem_wordsOf.2 hw)
      have h1 : (s.core x).eccAt a = .clean := by
        rw [← Core.eccAt_word]; exact hall _ ⟨a, by omega, by omega, rfl⟩
      rw [hw, writeWord_clean s x a _ h1, State.setCore_siteCode, if_pos rfl]
      have hc2 : ((s.setCore x ((s.core x).setBytes a (bs.take (16 - a % 16)))).core x).cleanAt (a + (16 - a % 16))
          (bs.drop (16 - a % 16)).length = true := by
        simp only [Core.cleanAt, List.all_eq_true, decide_eq_true_eq]
        intro w hw
        rw [State.setCore_core_same, Core.setBytes_eccAt]
        obtain ⟨b, hb1, hb2, hb3⟩ := mem_wordsOf.1 hw
        rw [List.length_drop] at hb2
        exact hall w ⟨b, by omega, by omega, hb3⟩
      have hl2 : (bs.drop (16 - a % 16)).length < 16 * n - (a + (16 - a % 16)) % 16 + 1 := by
        rw [List.length_drop]; omega
      obtain ⟨k1, k2⟩ := ih _ _ _ hl2 hc2
      refine ⟨CoreOnly.trans (CoreOnly.setCore s x _) k1, ?_⟩
      rw [k2, State.setCore_core_same]
      have e := Core.setBytes_append (bs.take (16 - a % 16)) (bs.drop (16 - a % 16)) (s.core x) a
      rw [List.take_append_drop] at e
      rw [e]
      by_cases hlen : bs.length ≤ 16 - a % 16
      · rw [List.drop_eq_nil_of_le hlen]; rfl
      · rw [List.length_take, Nat.min_eq_left (by omega)]

/-- A store to plain SRAM. -/
theorem writeSram_clean (x : Site) (a : Nat) (bs : List Nat) (hc : (s.core x).cleanAt a bs.length = true) :
    CoreOnly x s (s.writeSram x a bs) ∧ (s.writeSram x a bs).core x = (s.core x).setBytes a bs :=
  writeSramN_clean x _ s a bs (by omega) hc

end Sys2Proof.Machine
end

