-- ==== Sys2Proof/Tests/Slice0.lean ====
section
/-! SUPPORT. Tests: ill-formed commands that WellFormed refuses, instruction words written out from the encodings of the
spec and the instructions they decode to, results worked out by hand, and for every statement states that meet its
hypotheses. -/

open Sys2Proof Sys2Proof.Machine

namespace Sys2Proof.Tests

set_option Elab.async false

/-! ## Small states -/

/-- The core at (5, 7) of field 0, and its neighbour to the east. -/
def x0 : Site := ⟨5, 7⟩
def y0 : Site := ⟨6, 7⟩
/-- An engine that has booted, with every field up, nothing running and both host links up. -/
def base : State := (({ State.reset with
  fields := (List.range 48).map fun f => (f, { Field.reset with
    power := .run, bringup := .up, vcoreOn := true, isolated := false, pllLocked := true, onGalClk := false
    foremanUp := true, step := 15 })
  pithead := { Pithead.reset with inReset := false, resetLow := false, boot := .ready, stage := 7 }
      } : State).setSflag
    (pageHostport 0 + 0x040) 8).setSflag (pageHostport 1 + 0x040) 8
def runTh : Thread := { Thread.reset with state := .running, pc := 0x100 }
/-- Thread 1 of x0, under the guard p0. -/
def i0 : Iss := ⟨x0, 1, false, 0⟩
def atCore (s : State) (f : Core → Core) : State := s.onCore x0 f
def atThread (s : State) (f : Thread → Thread) : State := atCore s fun c => c.setThread 1 (f (c.thread 1))
def atField (s : State) (f : Field → Field) : State := s.onField x0.field f
def atPithead (s : State) (f : Pithead → Pithead) : State := s.onPithead f
/-- The engine with thread 1 of x0 running. -/
def ready : State := atThread base fun _ => runTh
def threaded (f : Thread → Thread) : State := atThread ready f
def regs (a b : DWord) : State := threaded fun t => (t.put 2 a).put 3 b
/-- The core at x knows that endpoint eid lies at z. -/
def know (x : Site) (eid : Nat) (z : Site) (s : State) : State := s.onCore x fun c => { c with
  book := [(0, ⟨0, BitVec.ofNat 32 eid, BitVec.ofNat 32 (2 ^ 31 + z.x.val * 2 ^ 16 + z.y.val * 2 ^ 7)⟩)] }
def kx : State := know x0 y0.key y0 (regs 5 7)
/-- A packet from y0 to x0. -/
def pk0 : Packet := ⟨.chuteControl, 0, false, none, .ok, 5, 7, .local_, x0.key, y0.key, 0, 0, 0, 0, [], false⟩
def arrives (p : Packet) (s : State) : State := { s with net := s.net ++ [Flight.landed x0.key p] }
def le (n v : Nat) : List Nat := leBytes n v
/-- Chute endpoint 3 of x0. -/
def atChute (f : Chute → Chute) (s : State) : State := atCore s fun c => c.setChute 3 (f (c.chute 3))
/-- A Q4B tensor of two runs of 32 at 0x1000. -/
def hdr : Header := ⟨0x20, 0, 0, 0x3F800000, 32, 2, 32, 64, 0, 0⟩
def tensor (s : State) : State := atCore s fun c =>
  ((c.setBytes 0x1000 hdr.bytes).setBytes 0x1020 ((List.range 32).map fun j => (j * 37 + 5) % 256)).setBytes 0x1040
    [0x38, 0x38, 0x30, 0x40]
/-- A hoist descriptor (R299), and a descriptor in progress. -/
def dsc (op flags elem src dst len0 len1 len2 ss1 ss2 ds1 ds2 cmpl : Nat) : List Nat :=
  [op, flags, elem, 0, 0, 0, 0, 0] ++ le 8 src ++ le 8 dst ++ le 4 len0 ++ le 4 len1 ++ le 4 len2 ++ le 4 ss1 ++
    le 4 ss2 ++ le 4 ds1 ++ le 4 ds2 ++ le 4 0 ++ le 8 cmpl
def hrun (l ext : List Nat) : HoistRun :=
  ⟨l.map (BitVec.ofNat 8), ext.map (BitVec.ofNat 8), 5, false, false, .ok, .ok, 0, none, 0⟩
def hst (s : State) (h : Nat) (z : Hoist) : State
    := { s.setHoist h z with stackPorts := (List.range 32).map fun n => (n, 2) }
/-- A job of port A that uses field 0, and its slate. -/
def job0 : Job :=
  { port := 0, id := 9, fields := 1, startTime := 50, running := true, genStart := 0, ended := none, limitExpired := false
    snapshots := false, truncated := false, faults := [], sealed_ := 0, fenced := 0, undrained := 0, hoistsEnded
        := false
    journalFail := false, thenPark := none }
def slate0 : Slate :=
  { state := .running, image := 0, cmpl := 0x100000000000, watchdog := 1000, vector := 3, noIrq := false, hoistBind := 5
    id := 9, seq := 4 }
def withJob (s : State) (j : Job) (z : Slate) : State :=
  (atPithead s fun p => { p with job := some j, runOrder := [(j.port, z.seq)], jobCtr := 9 }).setPort j.port
    { s.port j.port with cur := some z }
def fr0 : SeamFrame :=
  { kind := 1, seq := 5, ack := 255, nak := false, enabled := true, credits := [0, 0, 0, 0], flits := [], chip := 0, link := 0 }
def wire (fr : SeamFrame) : WireFrame := ⟨fr.bytes, 0, 0⟩
/-- A frame with a byte that has changed on the way. -/
def badWire (fr : SeamFrame) : WireFrame := ⟨fr.bytes.set 30 1, 0, 0⟩


/-! ## Ill-formed commands (WellFormed refuses each) -/

/-- A position of the foreman block of field 0 (R17). -/
def fb : Site := ⟨38, 40⟩
/-- Instructions, requesters and events of no core. -/
theorem test_refuses_foreman_block :
    wellFormed (.add ⟨fb, 0, false, 0⟩ 1 2 3) = false ∧ wellFormed (.bankActive fb 0) = false ∧
      wellFormed (.coreRun (.thread fb 0) x0 0) = false ∧ wellFormed (.coreRun .hostA fb 0) = false ∧
      wellFormed (.park (.thread fb 0) 0) = false := by decide +kernel
/-- Words that raise ILLEGAL at decode: VCVT with a directed mode to INT8, VPACK of Q2B at v31, WRSYS of a read-only
register (R171, R187, R189). -/
theorem test_refuses_illegal_fields :
    wellFormed (.vcvt i0 1 2 1 6 2 0) = false ∧ wellFormed (.vpack i0 false 2 31 1 2) = false ∧
      wellFormed (.wrsys i0 1 0) = false ∧ wellFormed (.illegal x0 1 0x04000000) = false := by decide +kernel
/-- Packets and frames whose fields do not fit (R331, R332, R384). -/
theorem test_refuses_packets :
    wellFormed (.read { pk0 with vc := 4 }) = false ∧ wellFormed (.ack { pk0 with payload := [0], ptype := .ack })
        = false ∧
      wellFormed (.headRoute x0 { pk0 with ty := 512 }) = false ∧
      wellFormed (.linkCrcError x0 .n (.head { pk0 with tx := 1024 }) 1) = false ∧
      wellFormed (.dataFrame 0 ⟨fr0.bytes.take 535, 0, 0⟩) = false := by decide +kernel
/-- Addresses and ranges outside their spaces (R403, R460, R526), and readings of no field. -/
theorem test_refuses_ranges :
    wellFormed (.registerWrite .hostA (.space 0x4000000) 0 4) = false ∧
      wellFormed (.registerWrite .hostA (.core x0 0x1000) 0 4) = false ∧ wellFormed (.readClear .hostA (.config .id)
          8) = false ∧
      wellFormed (.aditRead 0 0x10000 0) = false ∧
      wellFormed (.bar2Read 0 0 0) = false ∧ wellFormed (.bar2Write 0 0 []) = false ∧
      wellFormed (.cappingLoop ⟨List.replicate 49 ⟨0, 0, 0, 0⟩, 0⟩) = false ∧
      wellFormed (.fieldBringup 1
          { powerOk := true, foremanOk := true, sites := [(x0, .control)], stitch := [], entries := [] }) =
        false := by decide +kernel

/-! ## Checks on the wire -/

/-- The catalogued check values of the three CRCs, over the bytes of 123456789 (R322, R384, R460). -/
theorem test_crc_check_values :
    let bs := (List.range 9).flatMap fun i => bitsDown (0x31 + i) 7 0
    crcBits 16 0x1021 0xFFFF bs = 0x29B1 ∧ crcBits 32 0x04C11DB7 0xFFFFFFFF bs = 0x0376E6E7 ∧ crcBits 8 0x07 0 bs
        = 0xF4 := by
  decide +kernel
/-- A frame with a changed byte fails. -/
theorem test_bad_frame : framePasses (wire fr0).bytes = true ∧ framePasses (badWire fr0).bytes = false :=
    by decide +kernel

/-! ## Instruction words -/

/-- The encoded loop of the chapter on the instruction set, word for word. -/
theorem test_encoded_loop :
    ([0x88041000, 0x88062000, 0x08021040, 0x08063FFF, 0x1C083200, 0x80061103, 0x88062200, 0x08042040,
        0x407FFFF8].map fun w =>
      decodeWord x0 1 (BitVec.ofNat 32 w)) =
      [some (.vld i0 2 1 0), some (.vld i0 3 2 0), some (.addi i0 1 1 64), some (.addi i0 3 3 (-1)),
        some (.cmpi i0 1 3 1 0), some (.vfma i0 0 3 1 2), some (.vst i0 3 2 0), some (.addi i0 2 2 64),
        some (.br ⟨x0, 1, false, 1⟩ (-8))] := by decide +kernel

/-- One word of each other format and family, written out from R173 and R176: SUB under not p3, MOVSH, CMP, PNOT, BRL,
JRL, LDX, VCVT, VEXT, VPACK. -/
theorem test_words_scalar_and_vector :
    ([0b00000110110010100110001110000001, 0b00100100101000100000000000001111, 0b00101000000100000110001110000110,
      0b00101100000110000010000000000100, 0b01000100000000111000000000000001, 0b01001000000010100110000000000001,
      0b01101000000010100110001110000110, 0b10000100000010100110001110100010, 0b10001100000010100110001110010010,
      0b10010000000010100110001110010100].map fun w => decodeWord x0 1 (BitVec.ofNat 32 w)) =
      [some (.sub ⟨x0, 1, true, 3⟩ 5 6 7), some (.movsh x0 1 5 2 15), some (.cmp i0 2 6 7 6),
        some (.pnot i0 3 2), some (.brl i0 1 0x18001), some (.jrl i0 5 6),
        some (.ldx i0 6 5 6 7), some (.vcvt i0 5 6 1 6 4 2), some (.vext i0 1 5 6 7),
        some (.vpack i0 true 1 5 6 7)] := by decide +kernel

/-- The array, chute, tally, remote and system families: APASS, VCPUT, TSET, RPUT, TRAP, RDREG. -/
theorem test_words_array_to_system :
    ([0b10100000000000000110001110000010, 0b10110000000010100000001110000011, 0b11000000000000000110000111000010,
      0b11010000000010100110001110000100, 0b11110000000000000000001110000101,
          0b11110100000010100110000001110000].map fun w =>
      decodeWord x0 1 (BitVec.ofNat 32 w)) =
      [some (.apass i0 6 7), some (.vcput i0 5 7), some (.tset i0 6 7), some (.rput i0 5 6 7), some (.trap i0 7),
        some (.rdreg i0 5 6 0x70)] := by decide +kernel

/-- The all-zero word, an unassigned major opcode and a set reserved bit name no instruction (R174). -/
theorem test_words_refused :
    ([0x00000000, 0xFC000000, 0x2808000F, 0x1C000E00].map fun w => decodeWord x0 1 (BitVec.ofNat 32 w)) =
      [none, none, none, none] := by decide +kernel

/-! ## Results worked out by hand -/

/-- The register d of thread 1 of x0 after a command. -/
def after (d : Nat) : Out → Option DWord
  | .next t => some ((t.thread x0 1).get d)
  | _ => none
/-- Wrap, the signed high half, the corners of division (R181). -/
theorem test_alu :
    after 4 (exec (.add i0 4 2 3) (regs 0xFFFFFFFFFFFFFFFF 2)) = some 1 ∧
      after 2 (exec (.mulh i0 2 2 3) (regs 0xFFFFFFFFFFFFFFFF 2)) = some 0xFFFFFFFFFFFFFFFF ∧
      after 4 (exec (.div i0 4 2 3) (regs 0x8000000000000000 0xFFFFFFFFFFFFFFFF)) = some 0x8000000000000000 ∧
      after 4 (exec (.rem i0 4 2 3) (regs (-7) 2)) = some (-1) ∧ after 4 (exec (.remu i0 4 2 3) (regs 7 0)) = some 7 ∧
      after 0 (exec (.add i0 0 2 3) (regs 1 2)) = some 0 := by decide +kernel
/-- MOVSH replaces 16 bits, SHI and SRA shift in the sign, a JRL whose fields agree jumps to the old value (R182, R183). -/
theorem test_moves_and_jumps :
    after 2 (exec (.movsh x0 1 2 1 0xABCD) (regs 0x1111222233334444 0)) = some 0x11112222ABCD4444 ∧
      after 4 (exec (.shi i0 4 2 2 4) (regs 0x8000000000000000 0)) = some 0xF800000000000000 ∧
      (match exec (.jrl i0 2 2) (regs 0x20040 0) with
        | .next t => some ((t.thread x0 1).pc, (t.thread x0 1).get 2)
        | _ => none) = some (0x40, 0x104) := by decide +kernel

/-! ## The worked examples of the spec -/

/-- Core (517, 300): its field, local coordinates, endpoint and ring. -/
theorem test_core_517_300 :
    let s : Site := ⟨517, 300⟩
    s.field = 30 ∧ (s.lx, s.ly) = (37, 48) ∧ s.key = 0x2F005 ∧ (FieldNo.ring 30) = 1 ∧
      (0x1012C8140000 + 0x31444) / 2 ^ 18 % 1024 = s.x.val := by decide +kernel
/-- Stack port 9 and seam link 27. -/
theorem test_entry_routers :
    (stackEntries 9).map (fun s => (s.x.val, s.y.val)) =
      [63, 67, 72, 76, 78, 83, 87, 92, 94, 99, 103, 108, 110, 114, 119, 123].map (fun y => (639, y)) ∧
      (stackEntries 9).map Site.field = List.replicate 6 7 ++ List.replicate 10 15 ∧
      (seamEntries 27).map (fun s => (s.x.val, s.y.val)) = [(639, 65), (639, 69), (639, 74), (639, 81)] :=
          by decide +kernel
/-- Granules in spread mode (R327). -/
theorem test_spread_mode :
    [0x40000000, 0x40000800, 0x40001000].map (hbmMap false) =
      [(0, 16, 0x100000), (1, 16, 0x100000), (2, 16, 0x100000)] := by decide +kernel

/-- Hundredths, as a packer's input. -/
def hundredths (v : Int) : PackIn := ⟨decide (v < 0), v.natAbs, 100, false⟩
def weights : List PackIn :=
  [70, -35, 10, 0, -70, 25, 50, -5, 30, 60, -20, 15, 5, -45, 35, 0].map hundredths
/-- The Q4B block: element bytes D7 01 29 05 63 1E C0 03, scale 1D. -/
theorem test_pack_q4b :
    let r := packBlock .q4b false false 0 4 1 weights 0
    leBytes 8 (packBits .q4b r.codes).1 = [0xD7, 0x01, 0x29, 0x05, 0x63, 0x1E, 0xC0, 0x03] ∧ r.scale = 0x1D := by
  decide +kernel
/-- The Q4B+X block: element 9 is 3.0, an exception. -/
theorem test_pack_q4bx :
    let r := packBlock .q4b true false 0 4 1 (weights.set 9 (hundredths 300)) 0
    leBytes 8 (packBits .q4b r.codes).1 = [0xD7, 0x01, 0x29, 0x05, 0x03, 0x1E, 0xC0, 0x03] ∧ r.scale = 0x1D ∧
      r.excWord = 0x20000944 := by decide +kernel
/-- The Q4B 2:8+X block. -/
theorem test_pack_sparse :
    let r := packBlock .q4b true false 2 4 1 ([0, 50, 0, 0, -30, 0, 10, 0, 0, 0, 0, 20, 0, 0, 0, 0].map hundredths) 0
    leBytes 2 (packBits .q4b r.codes).1 = [0xC6, 0x30] ∧ leBytes 2 (packIndices r.indices) = [0x21, 0x06] ∧
      r.scale = 0x1A ∧ r.excWord = 0x2000061D := by decide +kernel

/-- A tensor of one run with tensor_scale 1.0: its element stream at 0x20, its scale byte at 0x40. -/
def block (format k : Nat) (elems : List Nat) (scale a : Nat) : Nat :=
  (Header.bytes ⟨format, 0, 0, 0x3F800000, k, 1, 0x20, 0x40, 0, 0⟩ ++ elems ++ List.replicate (32 - elems.length) 0 ++
    [scale]).getD a 0
def decoded (format k : Nat) (elems : List Nat) (scale p : Nat) : FVal :=
  ((Header.parse (block format k elems scale) 0).valueAt (block format k elems scale) 0 0 p).getD (.nan false 0)
/-- Q4B element 0 is 0.7109375, Q3B element 1 is −2, Q2B element 0 is 0.3046875, TRI5 element 4 is 0.375, and a malformed
TRI5 byte decodes as zero; an MXFP4 block's elements are 1.5 and −0.75. -/
theorem test_decode_blocks :
    (decoded 0x20 16 [0xD7, 0x01, 0x29, 0x05, 0x63, 0x1E, 0xC0, 0x03] 0x1D 0).dy.eqv ⟨91, -7⟩ = true ∧
      (decoded 0x21 16 [0x23, 0x72, 0x79, 0x40, 0xAA, 0x63] 0x30 1).dy.eqv ⟨-2, 0⟩ = true ∧
      (decoded 0x22 32 [0x63, 0x1A, 0xAA, 0xAA, 0xAA, 0xAA, 0xAA, 0xAA] 0x25 0).dy.eqv ⟨39, -7⟩ = true ∧
      (decoded 0x23 60 ([0xA7] ++ List.replicate 11 0x79) 0x2C 4).dy.eqv ⟨3, -3⟩ = true ∧
      (decoded 0x23 60 ([0xA7, 0x79, 0x79, 0xF3] ++ List.replicate 8 0x79) 0x2C 16).dy.isZero = true ∧
      (decoded 0x14 32 [0xB5] 0x7E 0).dy.eqv ⟨3, -1⟩ = true ∧ (decoded 0x14 32 [0xB5] 0x7E 1).dy.eqv ⟨-3, -2⟩ = true
          := by
  decide +kernel
/-- The activations 3.0, 0.5, 0.0703125 and 0.01171875 of one group, in units of 2^−5. -/
theorem test_align_group :
    (alignGroups false [[⟨3, 0⟩, ⟨1, -1⟩, ⟨9, -7⟩, ⟨3, -8⟩]] 0).1 = [(-5, [96, 16, 2, 0])] := by decide +kernel
/-- A 4-bit turn of rows 21 03 and 54 06 gives 41, 52 and 63. -/
theorem test_turn :
    ((List.range 3).map fun j => turnByte 4 2 j 0 fun i q => (([[0x21, 0x03], [0x54, 0x06]].getD i []).getD q 0,
        true)) =
      [(0x41, true), (0x52, true), (0x63, true)] := by decide +kernel
/-- The quotes at the reserved leaves: E = 1,046,528 moves to 1,046,784, and low is set. -/
theorem test_quote_reserve :
    let s := atPithead { base with flash := { base.flash with reserve0 := ⟨1046528, 1, true⟩ } } fun
        p => { p with nextLeaf := 1046528 }
    let r := (s.sign [] true).2
    (r.flash.reserveEnd, r.pithead.nextLeaf, r.flash.low) = (1046784, 1046529, true) := by decide +kernel
/-- PAGE_ID of FIELDPWR of field 30 and of hoist 2 of stack port 9, at their BAR0 offsets. -/
theorem test_page_ids :
    pageFieldpwr 30 + 0x044 = 0x2E1044 ∧ pageAt 0x2E1000 = some (0x11, 30) ∧ pageAt 0x493000 = some (0x21, 38) ∧
      (base.spaceRead .hostA 0x11 30 0x2E1000 4).1 = 0x01101E01 ∧ (base.spaceRead .hostA 0x21 38 0x493000 4).1
          = 0x02102601 := by decide +kernel

/-! ## States that meet the hypotheses of the statements -/

namespace Scalar

def ar (a b : DWord) : State := threaded fun t => (t.put 2 a).put 3 b
def arr (a b : DWord) : State := atCore (ar a b) fun
    c => {c with array := {c.array with acc := [(8190, 0x81234567),(8191,99),(1022,7),(1023, 0xFFFFFFFF),(1024,5)]}}

/-- States that meet the hypotheses of the clauses of StepRunsFrontCommand. -/
theorem test_meets_step_runs_front_command :
  ∃ (c : Instr) (rest : List Instr) (s : State),
    s.pending = c :: rest :=
  ⟨(.add i0 1 2 3), [], ({ready with pending := [.add i0 1 2 3]}), by decide +kernel⟩

/-- States that meet the hypotheses of the clauses of Issue. -/
theorem test_meets_false_guard_skips :
  ∃ (c : Instr) (i : Iss) (s : State),
    guardOf c = some i ∧
    wellFormed c = true ∧
    canIssue s i.site i.thread.val = true ∧
    (s.issuer i).pred i.pred.val = i.neg :=
  ⟨(.add {i0 with pred := 1, neg := false} 1 2 3), {i0 with pred := 1, neg := false}, ready, by decide +kernel⟩

/-- States that meet the hypotheses of the clauses of Issue. -/
theorem test_meets_nothing_issues_unless_running :
  ∃ (c : Instr) (i : Iss) (s : State),
    guardOf c = some i ∧
    ((s.issuer i).state ≠ .running ∨ s.coreOn i.site = false ∨ (s.field i.site.field).frozen = true) :=
  ⟨(.add i0 1 2 3), i0, base, by decide +kernel⟩

/-- States that meet the hypotheses of the clauses of AluResults. -/
theorem test_meets_alu_results :
  ∃ (i : Iss) (d a b : GReg) (s : State),
    Ready i [d.val, a.val, b.val] s = true :=
  ⟨i0, 1, 2, 3, (regs 7 9), by decide +kernel⟩

/-- States that meet the hypotheses of the clauses of AluResults. -/
theorem test_meets_division_results :
  (∃ (i : Iss) (d a b : GReg) (s : State),
    Ready i [d.val, a.val, b.val] s = true ∧
    let y := (s.issuer i).get b.val
    y = 0) ∧
  (∃ (i : Iss) (d a b : GReg) (s : State),
    Ready i [d.val, a.val, b.val] s = true ∧
    let y := (s.issuer i).get b.val
    y ≠ 0) ∧
  (∃ (i : Iss) (d a b : GReg) (s : State),
    Ready i [d.val, a.val, b.val] s = true ∧
    let x := (s.issuer i).get a.val
    let y := (s.issuer i).get b.val
    y ≠ 0 ∧
    (¬(x.toInt = -2 ^ 63 ∧ y.toInt = -1))) ∧
  (∃ (i : Iss) (d a b : GReg) (s : State),
    Ready i [d.val, a.val, b.val] s = true ∧
    let x := (s.issuer i).get a.val
    let y := (s.issuer i).get b.val
    x.toInt = -2 ^ 63 ∧
    y.toInt = -1) :=
  ⟨⟨i0, 1, 2, 3, (regs (-7) 0), by decide +kernel⟩,
   ⟨i0, 1, 2, 3, (regs (-7) 2), by decide +kernel⟩,
   ⟨i0, 1, 2, 3, (regs (-7) 2), by decide +kernel⟩,
   ⟨i0, 1, 2, 3, (regs (BitVec.ofInt 64 (-2^63)) (-1)), by decide +kernel⟩⟩

/-- States that meet the hypotheses of the clauses of AluResults. -/
theorem test_meets_bit_counts :
  ∃ (i : Iss) (d a : GReg) (s : State),
    Ready i [d.val, a.val] s = true :=
  ⟨i0, 1, 2, (regs 0 0), by decide +kernel⟩

/-- States that meet the hypotheses of the clauses of ImmediatesAndPredicates. -/
theorem test_meets_immediate_results :
  (∃ (i : Iss) (d a : GReg) (s : State),
    Ready i [d.val, a.val] s = true) ∧
  (∃ (i : Iss) (d : GReg) (s : State),
    Ready ⟨i.site, i.thread, false, 0⟩ [d.val] s = true) :=
  ⟨⟨i0, 1, 2, (regs 77 0), by decide +kernel⟩,
   ⟨i0, 1, (regs 77 0), by decide +kernel⟩⟩

/-- States that meet the hypotheses of the clauses of ImmediatesAndPredicates. -/
theorem test_meets_predicate_results :
  (∃ (i : Iss) (a b : GReg) (s : State),
    Ready i [a.val, b.val] s = true) ∧
  (∃ (i : Iss) (a : GReg) (s : State),
    Ready i [a.val] s = true) ∧
  (∃ (i : Iss) (s : State),
    Ready i [] s = true) :=
  ⟨⟨i0, 2, 3, (regs 77 0), by decide +kernel⟩,
   ⟨i0, 2, (regs 77 0), by decide +kernel⟩,
   ⟨i0, (regs 77 0), by decide +kernel⟩⟩

/-- States that meet the hypotheses of the clauses of BranchesAndJumps. -/
theorem test_meets_branches_and_jumps :
  (∃ (i : Iss) (s : State),
    Ready i [] s = true) ∧
  (∃ (i : Iss) (d : GReg) (s : State),
    Ready i [d.val] s = true) ∧
  (∃ (i : Iss) (a : GReg) (s : State),
    let th := s.issuer i
    let target := (th.get a.val).toNat
    Ready i [a.val] s = true ∧
    target % 4 = 0) ∧
  (∃ (i : Iss) (d a : GReg) (s : State),
    let th := s.issuer i
    let target := (th.get a.val).toNat
    Ready i [d.val, a.val] s = true ∧
    target % 4 = 0) :=
  ⟨⟨i0, (regs 0x20004 0), by decide +kernel⟩,
   ⟨i0, 1, (regs 0x20004 0), by decide +kernel⟩,
   ⟨i0, 2, (regs 0x20004 0), by decide +kernel⟩,
   ⟨i0, 1, 2, (regs 0x20004 0), by decide +kernel⟩⟩

/-- States that meet the hypotheses of the clauses of BranchesAndJumps. -/
theorem test_meets_misaligned_jump_takes_align :
  (∃ (i : Iss) (a : GReg) (s : State),
    let target := ((s.issuer i).get a.val).toNat
    target % 4 ≠ 0 ∧
    Ready i [a.val] s = true) ∧
  (∃ (i : Iss) (d a : GReg) (s : State),
    let target := ((s.issuer i).get a.val).toNat
    target % 4 ≠ 0 ∧
    Ready i [d.val, a.val] s = true) :=
  ⟨⟨i0, 2, (regs 0x20002 0), by decide +kernel⟩,
   ⟨i0, 1, 2, (regs 0x20002 0), by decide +kernel⟩⟩

/-- States that meet the hypotheses of the clauses of LoadsFromSram. -/
theorem test_meets_loads_from_sram :
  (∃ (i : Iss) (size : Fin 7) (d a : GReg) (imm : BitVec 9) (s : State),
    let th := s.issuer i
    let n := match size with | 0 => 1 | 1 => 2 | 2 => 4 | 3 => 8 | 4 => 1 | 5 => 2 | 6 => 4
    let ea := (th.get a.val + imm.signExtend 64 * BitVec.ofNat 64 n).toNat
    Ready i [d.val, a.val] s = true ∧
    ea % n = 0 ∧
    (s.core i.site).plainAt ea n = true) ∧
  (∃ (i : Iss) (size : Fin 7) (d a b : GReg) (s : State),
    let th := s.issuer i
    let n := match size with | 0 => 1 | 1 => 2 | 2 => 4 | 3 => 8 | 4 => 1 | 5 => 2 | 6 => 4
    let ex := (th.get a.val + th.get b.val).toNat
    Ready i [d.val, a.val, b.val] s = true ∧
    ex % n = 0 ∧
    (s.core i.site).plainAt ex n = true) :=
  ⟨⟨i0, 2, 1, 2, (-1), (regs 0x1004 8), by decide +kernel⟩,
   ⟨i0, 2, 1, 2, 3, (regs 0x1004 8), by decide +kernel⟩⟩

/-- States that meet the hypotheses of the clauses of LoadsFromSram. -/
theorem test_meets_vector_load :
  ∃ (i : Iss) (a : GReg) (imm : BitVec 9) (s : State),
    let ea := ((s.issuer i).get a.val + imm.signExtend 64 * 8).toNat
    Ready i [a.val] s = true ∧
    ea % 8 = 0 ∧
    (s.core i.site).plainAt ea 64 = true :=
  ⟨i0, 2, (-1), (regs 0x1008 8), by decide +kernel⟩

/-- States that meet the hypotheses of the clauses of StoresToSram. -/
theorem test_meets_stores_to_sram :
  (∃ (i : Iss) (size : Fin 4) (d a : GReg) (imm : BitVec 9) (s : State),
    let th := s.issuer i
    let c := s.core i.site
    let n := 2 ^ size.val
    let ea := (th.get a.val + imm.signExtend 64 * BitVec.ofNat 64 n).toNat
    Ready i [d.val, a.val] s = true ∧
    ea % n = 0 ∧
    c.plainAt ea n = true) ∧
  (∃ (i : Iss) (size : Fin 4) (d a b : GReg) (s : State),
    let th := s.issuer i
    let c := s.core i.site
    let n := 2 ^ size.val
    let ex := (th.get a.val + th.get b.val).toNat
    Ready i [d.val, a.val, b.val] s = true ∧
    ex % n = 0 ∧
    c.plainAt ex n = true) ∧
  (∃ (i : Iss) (a : GReg) (imm : BitVec 9) (s : State),
    let th := s.issuer i
    let c := s.core i.site
    let ev := (th.get a.val + imm.signExtend 64 * 8).toNat
    Ready i [a.val] s = true ∧
    ev % 8 = 0 ∧
    c.plainAt ev 64 = true) :=
  ⟨⟨i0, 3, 1, 2, (-1), (regs 0x1008 8), by decide +kernel⟩,
   ⟨i0, 3, 1, 2, 3, (regs 0x1008 8), by decide +kernel⟩,
   ⟨i0, 2, (-1), (regs 0x1008 8), by decide +kernel⟩⟩

/-- States that meet the hypotheses of the clauses of AccessChecks. -/
theorem test_meets_access_checks :
  (∃ (i : Iss) (size : Fin 4) (d a b : GReg) (s : State),
    let th := s.issuer i
    let n := 2 ^ size.val
    let ea := (th.get a.val + th.get b.val).toNat
    Ready i [d.val, a.val, b.val] s = true ∧
    ea % n ≠ 0) ∧
  (∃ (i : Iss) (size : Fin 4) (d a b : GReg) (s : State),
    let th := s.issuer i
    let n := 2 ^ size.val
    let ea := (th.get a.val + th.get b.val).toNat
    let inAccumulator := 0x30000 ≤ ea ∧ ea + n ≤ 0x38000 ∧ 4 ≤ n ∧ s.width i.site ≠ 0
    Ready i [d.val, a.val, b.val] s = true ∧
    ea % n = 0 ∧
    (¬(ea + n ≤ 0x20000)) ∧
    (¬inAccumulator)) ∧
  (∃ (i : Iss) (size : Fin 4) (d a b : GReg) (s : State),
    let th := s.issuer i
    let c := s.core i.site
    let n := 2 ^ size.val
    let ea := (th.get a.val + th.get b.val).toNat
    Ready i [d.val, a.val, b.val] s = true ∧
    ea % n = 0 ∧
    ea + n ≤ 0x20000 ∧
    c.rangeActive ea n = false) ∧
  (∃ (i : Iss) (size : Fin 4) (d a b : GReg) (s : State),
    let th := s.issuer i
    let c := s.core i.site
    let n := 2 ^ size.val
    let ea := (th.get a.val + th.get b.val).toNat
    let inAccumulator := 0x30000 ≤ ea ∧ ea + n ≤ 0x38000 ∧ 4 ≤ n ∧ s.width i.site ≠ 0
    Ready i [d.val, a.val, b.val] s = true ∧
    ea % n = 0 ∧
    inAccumulator ∧
    c.array.refuses = true) :=
  ⟨⟨i0, 3, 1, 2, 3, (regs 0x1001 8), by decide +kernel⟩,
   ⟨i0, 3, 1, 2, 3, (regs 0x20000 8), by decide +kernel⟩,
   ⟨i0, 3, 1, 2, 3, (atCore (regs 0x1000 8) fun c => c.setBank 0 .parked), by decide +kernel⟩,
   ⟨i0, 3, 1, 2, 3, (atCore (regs 0x30000 8) fun
       c => {c with array := {c.array with passes := [⟨⟨0,.apass,0,0,none⟩,0,0,.ok,0,0,0,[]⟩]}}), by decide +kernel⟩⟩

/-- States that meet the hypotheses of the clauses of AccessChecks. -/
theorem test_meets_uncorrectable_load :
  ∃ (i : Iss) (d a : GReg) (s : State),
    let th := s.issuer i
    let ea := (th.get a.val).toNat
    Ready i [d.val, a.val] s = true ∧
    ea % 8 = 0 ∧
    ea + 8 ≤ 0x20000 ∧
    (s.core i.site).rangeActive ea 8 = true ∧
    (s.core i.site).eccAt ea = .double true ∧
    (s.core i.site).regBit 0x0C4 31 = true :=
  ⟨i0, 1, 2, (atCore (regs 0x1000 8) fun c => (c.setEcc 0x1000 (.double true)).setReg 0x0C4 (2^31)),
      by decide +kernel⟩

/-- States that meet the hypotheses of the clauses of SystemRegisters. -/
theorem test_meets_system_registers :
  (∃ (i : Iss) (d : GReg) (s : State),
    Ready i [d.val] s = true) ∧
  (∃ (i : Iss) (a : GReg) (s : State),
    Ready i [a.val] s = true) :=
  ⟨⟨i0, 1, (regs 0x1234567890abcdef 8), by decide +kernel⟩,
   ⟨i0, 2, (regs 0x1234567890abcdef 8), by decide +kernel⟩⟩

/-- States that meet the hypotheses of the clauses of SystemRegisters. -/
theorem test_meets_read_only_system_register_is_illegal :
  ∃ (i : Iss) (num : Fin 10) (s : State),
    (num = 0 ∨ num = 6 ∨ num = 7 ∨ num = 9) ∧
    canIssue s i.site i.thread.val = true :=
  ⟨i0, 0, (regs (-1) 8), by decide +kernel⟩

/-- States that meet the hypotheses of the clauses of SystemInstructions. -/
theorem test_meets_system_instructions :
  (∃ (i : Iss) (s : State),
    Ready i [] s = true) ∧
  (∃ (i : Iss) (s : State),
    Ready i [] s = true ∧
    let th := s.issuer i
    th.pendingG = [] ∧
    th.async = []) :=
  ⟨⟨i0, (regs 7 9), by decide +kernel⟩,
   ⟨i0, (regs 7 9), by decide +kernel⟩⟩

/-- States that meet the hypotheses of the clauses of ExceptionsAreTaken. -/
theorem test_meets_exceptions_are_taken :
  (∃ (i : Iss) (s : State),
    Ready i [] s = true) ∧
  (∃ (i : Iss) (word : Word) (s : State),
    let x := i.site
    let k := i.thread.val
    canIssue s x k = true ∧
    decodeWord x i.thread word = none) ∧
  (∃ (i : Iss) (s : State) (a : AsyncExc) (rest : List AsyncExc),
    let x := i.site
    let th := s.issuer i
    th.async = a :: rest ∧
    s.coreRuns x = true ∧
    th.state = .running ∧
    th.handler = false ∧
    th.wait = .none) :=
  ⟨⟨i0, (regs 7 9), by decide +kernel⟩,
   ⟨i0, 0xffffffff, (regs 7 9), by decide +kernel⟩,
   ⟨i0, (atThread (regs 7 9) fun t => {t with async := [⟨6,0x17,99⟩]}), ⟨6,0x17,99⟩, [], by decide +kernel⟩⟩

/-- States that meet the hypotheses of the clauses of InstructionFetch. -/
theorem test_meets_instruction_fetch :
  (∃ (x : Site) (t : Fin 4) (s : State),
    let c := s.core x
    let pc := (s.thread x t.val).pc
    let line := pc / 64
    canIssue s x t.val = true ∧
    c.rangeActive (line * 64) 64 = true ∧
    c.cleanAt (line * 64) 64 = true) ∧
  (∃ (x : Site) (t : Fin 4) (s : State),
    let c := s.core x
    let pc := (s.thread x t.val).pc
    let line := pc / 64
    canIssue s x t.val = true ∧
    c.rangeActive (line * 64) 64 = false) :=
  ⟨⟨x0, 1, ready, by decide +kernel⟩,
   ⟨x0, 1, (atCore ready fun c => c.setBank 0 .parked), by decide +kernel⟩⟩

/-- States that meet the hypotheses of the clauses of PageAndRunRegisters. -/
theorem test_meets_core_run_starts_threads :
  (∃ (w : Requester) (s : State),
    s.awake w = false) ∧
  (∃ (w : Requester) (x : Site) (s : State),
    s.awake w = true ∧
    (s.coreClocked x && reaches w x) = false) ∧
  (∃ (w : Requester) (x : Site) (s : State),
    s.awake w = true ∧
    s.coreClocked x = true ∧
    reaches w x = true) :=
  ⟨⟨(.hostA), State.reset, by decide +kernel⟩,
   ⟨(.hostA), x0, (atField base fun f => {f with pllLocked := false}), by decide +kernel⟩,
   ⟨(.hostA), x0, base, by decide +kernel⟩⟩

/-- States that meet the hypotheses of the clauses of PageAndRunRegisters. -/
theorem test_meets_page_instructions :
  (∃ (i : Iss) (d a : GReg) (imm : BitVec 12) (s : State),
    let th := s.issuer i
    let off := (th.get a.val + imm.signExtend 64).toNat
    Ready i [d.val, a.val] s = true ∧
    off % 4 = 0 ∧
    off < 0x1000) ∧
  (∃ (i : Iss) (d a : GReg) (imm : BitVec 12) (s : State),
    let th := s.issuer i
    let c := s.core i.site
    let off := (th.get a.val + imm.signExtend 64).toNat
    Ready i [d.val, a.val] s = true ∧
    c.latch = [] ∧
    off = 0x070) ∧
  (∃ (i : Iss) (d a : GReg) (imm : BitVec 12) (s : State),
    let th := s.issuer i
    let off := (th.get a.val + imm.signExtend 64).toNat
    Ready i [d.val, a.val] s = true ∧
    off % 4 ≠ 0) ∧
  (∃ (i : Iss) (d a : GReg) (imm : BitVec 12) (s : State),
    let th := s.issuer i
    let off := (th.get a.val + imm.signExtend 64).toNat
    Ready i [d.val, a.val] s = true ∧
    off % 4 = 0 ∧
    0x1000 ≤ off) :=
  ⟨⟨i0, 1, 2, 0, (regs 0x070 9), by decide +kernel⟩,
   ⟨i0, 1, 2, 0, (regs 0x070 9), by decide +kernel⟩,
   ⟨i0, 0, 2, 0, (regs 0x071 9), by decide +kernel⟩,
   ⟨i0, 1, 2, 0, (regs 0x1000 9), by decide +kernel⟩⟩

/-- States that meet the hypotheses of the clauses of AlwaysExecute. -/
theorem test_meets_always_execute :
  ∃ (x : Site) (t : Fin 4) (d : GReg) (s : State),
    let i : Iss := ⟨x, t, false, 0⟩
    Ready i [d.val] s = true :=
  ⟨x0, 1, 2, ready, by decide +kernel⟩

/-- States that meet the hypotheses of the clauses of AccumulatorAccess. -/
theorem test_meets_accumulator_access :
  (∃ (i : Iss) (size : Fin 7) (d a b : GReg) (imm : BitVec 9) (s : State),
    let th := s.issuer i
    let n := 2 ^ (size.val % 4)
    let whole := fun (ea n aligned : Nat) => 0x30000 ≤ ea ∧ ea + n ≤ 0x38000 ∧ ea % aligned = 0 ∧ s.width i.site ≠ 0
    let ea := fun n => (th.get a.val + imm.signExtend 64 * BitVec.ofNat 64 n).toNat
    4 ≤ n ∧
    Ready i [d.val, a.val, b.val] s = true ∧
    whole (ea n) n n) ∧
  (∃ (i : Iss) (size : Fin 7) (d a b : GReg) (s : State),
    let th := s.issuer i
    let n := 2 ^ (size.val % 4)
    let whole := fun (ea n aligned : Nat) => 0x30000 ≤ ea ∧ ea + n ≤ 0x38000 ∧ ea % aligned = 0 ∧ s.width i.site ≠ 0
    let ex := (th.get a.val + th.get b.val).toNat
    4 ≤ n ∧
    Ready i [d.val, a.val, b.val] s = true ∧
    whole ex n n) ∧
  (∃ (i : Iss) (size : Fin 7) (wide : Bool) (d a b : GReg) (imm : BitVec 9) (s : State),
    let th := s.issuer i
    let c := s.core i.site
    let n := 2 ^ (size.val % 4)
    let w := if wide then 8 else 4
    let whole := fun (ea n aligned : Nat) => 0x30000 ≤ ea ∧ ea + n ≤ 0x38000 ∧ ea % aligned = 0 ∧ s.width i.site ≠ 0
    let ea := fun n => (th.get a.val + imm.signExtend 64 * BitVec.ofNat 64 n).toNat
    Ready i [d.val, a.val, b.val] s = true ∧
    c.array.refuses = false ∧
    whole (ea w) w w) ∧
  (∃ (i : Iss) (size : Fin 7) (wide : Bool) (d a b : GReg) (s : State),
    let th := s.issuer i
    let c := s.core i.site
    let n := 2 ^ (size.val % 4)
    let w := if wide then 8 else 4
    let whole := fun (ea n aligned : Nat) => 0x30000 ≤ ea ∧ ea + n ≤ 0x38000 ∧ ea % aligned = 0 ∧ s.width i.site ≠ 0
    let ex := (th.get a.val + th.get b.val).toNat
    Ready i [d.val, a.val, b.val] s = true ∧
    c.array.refuses = false ∧
    whole ex w w) ∧
  (∃ (i : Iss) (size : Fin 7) (a : GReg) (imm : BitVec 9) (s : State),
    let th := s.issuer i
    let n := 2 ^ (size.val % 4)
    let whole := fun (ea n aligned : Nat) => 0x30000 ≤ ea ∧ ea + n ≤ 0x38000 ∧ ea % aligned = 0 ∧ s.width i.site ≠ 0
    let ea := fun n => (th.get a.val + imm.signExtend 64 * BitVec.ofNat 64 n).toNat
    Ready i [a.val] s = true ∧
    whole (ea 8) 64 8) ∧
  (∃ (i : Iss) (size : Fin 7) (a : GReg) (imm : BitVec 9) (s : State),
    let th := s.issuer i
    let c := s.core i.site
    let n := 2 ^ (size.val % 4)
    let whole := fun (ea n aligned : Nat) => 0x30000 ≤ ea ∧ ea + n ≤ 0x38000 ∧ ea % aligned = 0 ∧ s.width i.site ≠ 0
    let ea := fun n => (th.get a.val + imm.signExtend 64 * BitVec.ofNat 64 n).toNat
    Ready i [a.val] s = true ∧
    whole (ea 8) 64 8 ∧
    c.array.refuses = false) :=
  ⟨⟨i0, 2, 1, 2, 3, 0, (arr 0x30ff8 4), by decide +kernel⟩,
   ⟨i0, 2, 1, 2, 3, (arr 0x30ff8 4), by decide +kernel⟩,
   ⟨i0, 2, false, 1, 2, 3, 0, (arr 0x30ff8 4), by decide +kernel⟩,
   ⟨i0, 2, false, 1, 2, 3, (arr 0x30ff8 4), by decide +kernel⟩,
   ⟨i0, 2, 2, 0, (arr 0x30ff8 4), by decide +kernel⟩,
   ⟨i0, 2, 2, 0, (arr 0x30ff8 4), by decide +kernel⟩⟩

end Scalar

namespace Compute

def vs : State := atCore ready fun c => ((c.setVreg 2 (BitVec.ofNat 512 (0x3ff0000000000000123456789 * 2^300 +
    0x400800003f800000))).setVreg 3 (BitVec.ofNat 512 (0x7ff0000000000000123456789 * 2^300 +
    0x400800003fc00000))).setVreg 1 (BitVec.ofNat 512 77)
def sp : Spmv := ⟨2,false,false,1,1,0x2000,0x2100,0x2200,0x2300,0x2400,0,0,.ok,0⟩
def arr (f : ArrayState → ArrayState) : State := atCore (tensor ready) fun c => {c with array := f c.array}
def lc2 : ACmd := ⟨3,.aload,0x3F80000000001000#64 ||| (8#64 <<< 17),0x1101F#64,none⟩
def oc : ACmd := ⟨3,.aopen,(1<<<20) ||| (7#64 <<< 12) ||| (248#64 <<< 4) ||| 3,0,none⟩
def pc : ACmd := ⟨3,.apass,0x1000,(1 <<< 49) ||| (1 <<< 40) ||| (254 <<< 32),none⟩
def rw : Nat → BankRow := fun k => (loadRows .narrow .e4m3 64 false [(List.range 64).map fun j => (j*k+3)%120]
    1).1.getD 0 ⟨[],[],[],[],[]⟩
def ps : State := atCore (atCore (arr fun a => {a with queue := [pc], acc := [(254,0x3f800000),(5,99),(250,77)]}) fun
    c => ((c.setAbank 1 {ABank.reset with state := .ready, mode := .narrow, base := .e4m3, format := 5, rows := (List.range 32).map rw, scale := 0x3F800000}).setTile
    0 {Tile.reset with open_ := true, mode := .narrow, a0 := 254, m := 2})) fun c => c.setRegBits 0x140 3 3 0
def cc : ACmd := ⟨3,.aclose,0x2000 ||| (1#64 <<< 17),0x0300,none⟩

/-- States that meet the hypotheses of the clauses of VectorArithmetic. -/
theorem test_meets_vector_arithmetic :
  ∃ (i : Iss) (s : State),
    Ready i [] s = true :=
  ⟨i0, vs, by decide +kernel⟩

/-- States that meet the hypotheses of the clauses of VectorConversionAndMoves. -/
theorem test_meets_vector_conversion :
  ∃ (i : Iss) (src dst : Fin 8) (rm : Fin 6) (part : Fin 8) (s : State),
    Ready i [] s = true ∧
    Isa.vcvtOk src.val dst.val rm.val part.val = true :=
  ⟨i0, 1, 2, 5, 0, vs, by decide +kernel⟩

/-- States that meet the hypotheses of the clauses of VectorConversionAndMoves. -/
theorem test_meets_vector_moves :
  (∃ (i : Iss) (s : State),
    Ready i [] s = true) ∧
  (∃ (i : Iss) (ga : GReg) (s : State),
    Ready i [ga.val] s = true) ∧
  (∃ (i : Iss) (gb gd : GReg) (s : State),
    Ready i [gd.val, gb.val] s = true) ∧
  (∃ (i : Iss) (ga gb : GReg) (s : State),
    Ready i [ga.val, gb.val] s = true) ∧
  (∃ (i : Iss) (gd : GReg) (s : State),
    Ready i [gd.val] s = true) :=
  ⟨⟨i0, (atThread vs fun t => t.put 3 0xbeef), by decide +kernel⟩,
   ⟨i0, 3, (atThread vs fun t => t.put 3 0xbeef), by decide +kernel⟩,
   ⟨i0, 4, 5, (atThread vs fun t => t.put 3 0xbeef), by decide +kernel⟩,
   ⟨i0, 3, 4, (atThread vs fun t => t.put 3 0xbeef), by decide +kernel⟩,
   ⟨i0, 5, (atThread vs fun t => t.put 3 0xbeef), by decide +kernel⟩⟩

/-- States that meet the hypotheses of the clauses of BlockOperations. -/
theorem test_meets_block_operations :
  (∃ (i : Iss) (a b : GReg) (s : State),
    let c := s.core i.site
    let th := s.issuer i
    let at_ := (th.get a.val).toNat
    let n := (th.get b.val).toNat / 2 ^ 32
    let p := (th.get b.val).toNat % 2 ^ 32
    let h := Header.parse c.rd at_
    Ready i [a.val, b.val] s = true ∧
    at_ % 32 = 0 ∧
    p % 16 = 0 ∧
    c.plainAt at_ 32 = true ∧
    (h.valid = false ∨ h.runs ≤ n)) ∧
  (∃ (i : Iss) (a b : GReg) (s : State),
    let c := s.core i.site
    let th := s.issuer i
    let at_ := (th.get a.val).toNat
    let n := (th.get b.val).toNat / 2 ^ 32
    let p := (th.get b.val).toNat % 2 ^ 32
    let h := Header.parse c.rd at_
    Ready i [a.val, b.val] s = true ∧
    at_ % 32 = 0 ∧
    p % 16 = 0 ∧
    c.plainAt at_ 32 = true ∧
    h.valid = true ∧
    n < h.runs ∧
    ((h.unpackRanges at_ n p).all (fun r => c.plainAt r.1 r.2) = true) ∧
    (unpackLanes h c.rd at_ n p).2 = 0) ∧
  (∃ (i : Iss) (d : VReg) (a b : GReg) (fmt : Fin 4) (s : State),
    let c := s.core i.site
    let th := s.issuer i
    let at_ := (th.get a.val).toNat
    Ready i [a.val, b.val] s = true ∧
    let ea := at_
    let sa := (th.get b.val).toNat
    let base := match fmt with | 0 => Base.q4b | 1 => .q3b | 2 => .q2b | 3 => .tri5
    let regs := match fmt with | 0 => 1 | 1 => 1 | 2 => 2 | 3 => 4
    let nbytes := match fmt with | 0 => 8 | 1 => 6 | 2 => 8 | 3 => 12
    let xs := (((List.range regs).flatMap fun j => lanesOf 32 (c.vreg (d.val + j))).take base.blockLen).map fun w =>
        PackIn.ofFVal (fp32.decode w) (fp32.decode 0x3F800000)
    let r := packBlock base false false 0 4 1 xs (c.stream i.thread.val)
    d.val + regs ≤ 32 ∧
    c.plainAt ea nbytes = true ∧
    c.plainAt sa 1 = true ∧
    (sa < ea ∨ ea + nbytes ≤ sa) ∧
    r.saturations = 0 ∧
    r.malformed = 0) :=
  ⟨⟨i0, 2, 3, (regs 0x1000 0), by decide +kernel⟩,
   ⟨i0, 2, 3, (tensor (regs 0x1000 0x100000000)), by decide +kernel⟩,
   ⟨i0, 1, 2, 3, 0, (regs 0x1000 0), by decide +kernel⟩⟩

/-- States that meet the hypotheses of the clauses of GatherOperations. -/
theorem test_meets_gather_operations :
  (∃ (i : Iss) (a : GReg) (s : State),
    let c := s.core i.site
    let th := s.issuer i
    let at_ := (th.get a.val).toNat
    Ready i [a.val] s = true ∧
    at_ % 32 = 0 ∧
    c.plainAt at_ 32 = true ∧
    c.spmv = none ∧
    (Spmv.parse c.rd at_).formatOk c.rd at_ = false) ∧
  (∃ (i : Iss) (a : GReg) (s : State),
    let c := s.core i.site
    let th := s.issuer i
    let at_ := (th.get a.val).toNat
    Ready i [a.val] s = true ∧
    at_ % 32 = 0 ∧
    at_ + 32 ≤ 0x20000 ∧
    c.spmv = none ∧
    (spmvStart s i.site at_).2.coreOn i.site = true) ∧
  (∃ (i : Iss) (d : GReg) (s : State),
    let c := s.core i.site
    Ready i [d.val] s = true ∧
    c.spmv = none) ∧
  (∃ (x : Site) (s : State) (q : Spmv),
    (s.core x).spmv = some q ∧
    s.coreRuns x = true ∧
    q.start ≠ .ok ∧
    q.start ≠ .eccUncorrected) ∧
  (∃ (x : Site) (s : State) (q : Spmv),
    (s.core x).spmv = some q ∧
    s.coreRuns x = true ∧
    q.start = .ok ∧
    let v := s.fresh
    let r := q.rowsFrom x (splitLen ((s.core x).regBits 0x1C0 12 0)) v.1 q.ptrRows 0 v.2 SpmvCounts.zero
    r.1.coreOn x = true ∧
    r.2.range = 0 ∧
    r.2.malformed = 0 ∧
    r.2.fail = none) :=
  ⟨⟨i0, 2, (regs 0x1000 0), by decide +kernel⟩,
   ⟨i0, 2, (regs 0x1000 0), by decide +kernel⟩,
   ⟨i0, 1, (regs 0x1000 0), by decide +kernel⟩,
   ⟨x0, (atThread (atCore ready fun c => {c with spmv := some {sp with start := .formatInvalid}}) fun
       t => {t with wait := .vswait 1}), {sp with start := .formatInvalid}, by decide +kernel⟩,
   ⟨x0, (atCore ready fun c => {c with spmv := some sp}), sp, by decide +kernel⟩⟩

/-- States that meet the hypotheses of the clauses of ArrayCommandsQueue. -/
theorem test_meets_array_commands_queue :
  (∃ (i : Iss) (a b : GReg) (s : State),
    let c := s.core i.site
    s.width i.site ≠ 0 ∧
    c.regBit 0x100 8 = false ∧
    Ready i [a.val, b.val] s = true ∧
    c.array.queue.length < 8) ∧
  (∃ (i : Iss) (a : GReg) (s : State),
    let c := s.core i.site
    s.width i.site ≠ 0 ∧
    c.regBit 0x100 8 = false ∧
    Ready i [a.val, 0] s = true ∧
    c.array.queue.length < 8) ∧
  (∃ (i : Iss) (a b : GReg) (s : State),
    let c := s.core i.site
    s.width i.site ≠ 0 ∧
    c.regBit 0x100 8 = false ∧
    Ready i [a.val, b.val] s = true ∧
    8 ≤ c.array.queue.length) ∧
  (∃ (i : Iss) (d : GReg) (s : State),
    let c := s.core i.site
    s.width i.site ≠ 0 ∧
    c.regBit 0x100 8 = false ∧
    Ready i [d.val] s = true ∧
    c.array.numbers = []) :=
  ⟨⟨i0, 2, 3, (regs 5 7), by decide +kernel⟩,
   ⟨i0, 2, (regs 5 7), by decide +kernel⟩,
   ⟨i0, 2, 3, (atCore (regs 5 7) fun
       c => {c with array := {c.array with queue := List.replicate 8 ⟨0,.aload,0,0,none⟩}}), by decide +kernel⟩,
   ⟨i0, 1, (regs 5 7), by decide +kernel⟩⟩

/-- States that meet the hypotheses of the clauses of ArrayLoads. -/
theorem test_meets_array_loads :
  (∃ (x : Site) (s : State) (cmd : ACmd) (md : AMode) (b : Base),
    s.coreRuns x = true ∧
    let c := s.core x
    c.array.queue.head? = some cmd ∧
    cmd.kind = .aload ∧
    let l := LoadArgs.of cmd
    cmd.ga.toNat / 2 ^ 30 % 4 = 0 ∧
    cmd.gb.toNat < 2 ^ 17 ∧
    l.formats = some (md, b) ∧
    l.check s x = .ok ∧
    (c.abank l.bank).state ≠ .inUse ∧
    (c.abank l.bank).state ≠ .loading ∧
    c.array.load = none ∧
    (∀ q ∈ c.array.passes, q.bank ≠ l.bank ∨ q.bankFree ≤ s.cycleOf x) ∧
    ((List.range l.rows).all (fun k => c.plainAt (l.src + k * l.stride) (rowBytes md b (s.width x))) = true)) ∧
  (∃ (x : Site) (s : State) (cmd : ACmd) (bank : Nat),
    s.coreRuns x = true ∧
    let c := s.core x
    c.array.load = some (cmd, bank, .ok) ∧
    (c.abank bank).counts = LoadCounts.zero ∧
    cmd.issuer = none ∧
    (∀ k : Fin 4, ∀ d n, (s.thread x k.val).wait ≠ .afence d n) ∧
    (s.field x.field).drain = none ∧
    c.reg 0x18C ≠ 0xFFFFFFFF#32) :=
  ⟨⟨x0, (arr fun a => {a with queue := [lc2]}), lc2, .narrow, .mxE4m3, by decide +kernel⟩,
   ⟨x0, (arr fun a => {a with load := some (lc2, 1, .ok)}), lc2, 1, by
      have e : ∀ k : Fin 4, ((arr fun a => {a with load := some (lc2, 1, .ok)}).thread x0 k.val).wait = .none :=
          by decide +kernel
      (repeat' apply And.intro) <;> first | decide +kernel | exact fun k d n h => nomatch (e k).symm.trans h⟩⟩

/-- States that meet the hypotheses of the clauses of ArrayTilesAndUpkeep. -/
theorem test_meets_array_opens :
  (∃ (x : Site) (s : State) (cmd : ACmd) (md : AMode),
    s.coreRuns x = true ∧
    let c := s.core x
    c.array.queue.head? = some cmd ∧
    cmd.kind = .aopen ∧
    let slot := cmd.ga.toNat % 2
    let a0 := cmd.ga.toNat / 16 % 256
    let m := cmd.ga.toNat / 4096 % 256 + 1
    cmd.ga.toNat < 2 ^ 21 ∧
    AMode.ofCode (cmd.ga.toNat / 2 % 8) = some md ∧
    c.array.closes = [] ∧
    (c.tile slot).open_ = false ∧
    (c.tile (1 - slot)).open_ = false ∧
    a0 + m ≤ 256) ∧
  (∃ (x : Site) (s : State) (cmd : ACmd) (slot : Nat) (rest : List (ACmd × Nat)),
    s.coreRuns x = true ∧
    let c := s.core x
    c.array.opening = (cmd, slot) :: rest) :=
  ⟨⟨x0, (arr fun a => {a with queue := [oc], acc := [(5,99),(250,77)]}), oc, .twin, by decide +kernel⟩,
   ⟨x0, (arr fun a => {a with opening := [(oc,1)], acc := [(5,99),(250,77)]}), oc, 1, [], by decide +kernel⟩⟩

/-- States that meet the hypotheses of the clauses of ArrayPasses. -/
theorem test_meets_array_passes :
  (∃ (x : Site) (s : State) (cmd : ACmd) (md : AMode),
    s.coreRuns x = true ∧
    let c := s.core x
    c.array.queue.head? = some cmd ∧
    cmd.kind = .apass ∧
    let p := PassCmd.of cmd
    let k := c.abank p.bank
    let h := Header.parse c.rd p.header
    c.array.checkHold = [] ∧
    widthDenied s x = false ∧
    k.state = .ready ∧
    (∀ q ∈ c.array.passes, q.budgetEnd < s.cycleOf x ∧ (q.bank ≠ p.bank ∨ q.bankFree ≤ s.cycleOf x)) ∧
    p.early cmd c = .ok ∧
    c.plainAt p.header 32 = true ∧
    h.mode = some md ∧
    p.late h s x = .ok ∧
    c.regBit 0x140 3 = false ∧
    (c.tile p.slot).sampled = none ∧
    (((List.range p.c).all fun n => (p.ranges h (md.window (s.width x)) n).all fun r => c.cleanAt r.1 r.2) = true) ∧
    p.a + p.c ≤ 256) ∧
  (∃ (x : Site) (s : State) (p : APassRun) (rest : List APassRun),
    s.coreRuns x = true ∧
    let c := s.core x
    c.array.passes = p :: rest) :=
  ⟨⟨x0, ps, pc, .narrow, by decide +kernel⟩,
   ⟨x0, (atCore ps fun c => ({c with array := {c.array with queue := [], passes := [⟨pc,0,1,.ok,0,0,0,[]⟩]}}).setAbank
       1 {c.abank 1 with state := .inUse}), ⟨pc,0,1,.ok,0,0,0,[]⟩, [], by decide +kernel⟩⟩

/-- States that meet the hypotheses of the clauses of ArrayCloses. -/
theorem test_meets_array_closes :
  (∃ (x : Site) (s : State) (cmd : ACmd),
    s.coreRuns x = true ∧
    let c := s.core x
    c.array.queue.head? = some cmd ∧
    cmd.kind = .aclose ∧
    (CloseCmd.of cmd).check cmd c = .ok) ∧
  (∃ (x : Site) (slot : Fin 2) (s : State) (k : AClose) (d : Nat) (f : FloatFmt),
    s.coreRuns x = true ∧
    let c := s.core x
    let tile := c.tile slot.val
    (c.array.closes.find? (fun k => k.slot == slot.val) = some k) ∧
    k.ran = none ∧
    k.slot = slot.val ∧
    ((c.array.passes.any fun p => p.slot == slot.val) = false) ∧
    tile.sampled = none ∧
    tile.poisoned = false ∧
    (CloseCmd.of k.cmd).dest = some d ∧
    outputFmt (CloseCmd.of k.cmd).format = some f ∧
    c.regBit 0x140 2 = false ∧
    tile.m * (f.width / 8) ≤ (CloseCmd.of k.cmd).stride ∧
    c.plainAt d (31 * (CloseCmd.of k.cmd).stride + tile.m * (f.width / 8)) = true) ∧
  (∃ (x : Site) (slot : Fin 2) (s : State) (k : AClose) (st : Status),
    s.coreRuns x = true ∧
    let c := s.core x
    (c.array.closes.find? (fun k => k.slot == slot.val) = some k) ∧
    k.ran = some st) :=
  ⟨⟨x0, (atCore ps fun c => {c with array := {c.array with queue := [cc]}}), cc, by decide +kernel⟩,
   ⟨x0, 0, (atCore ps fun c => {c with array := {c.array with queue := [], closes := [⟨cc,0,none⟩]}}), ⟨cc,0,none⟩,
       0x2000, fp16, by decide +kernel⟩,
   ⟨x0, 0, (atCore ps fun c => {c with array := {c.array with queue := [], closes := [⟨cc,0,some .ok⟩]}}), ⟨cc,0,some
       .ok⟩, .ok, by decide +kernel⟩⟩

/-- States that meet the hypotheses of the clauses of ArrayTilesAndUpkeep. -/
theorem test_meets_array_upkeep :
  (∃ (x : Site) (s : State),
    s.arrayIdle x = true) ∧
  (∃ (w : Requester) (x : Site) (stream : Fin 5) (s : State),
    let c := s.core x
    s.awake w = true ∧
    s.coreClocked x = true ∧
    reaches w x = true ∧
    (stream = 4 → c.array.load = none ∧ c.array.passes = [])) :=
  ⟨⟨x0, (atField ready fun f => {f with duty := ⟨1,2⟩}), by decide +kernel⟩,
   ⟨.hostA, x0, 4, (atField ready fun f => {f with duty := ⟨1,2⟩}), by decide +kernel⟩⟩

end Compute

namespace Chutes

def prod : State := atChute (fun
    c => {c with role := .producer, ready := true, size := 1, peer := BitVec.ofNat 32 y0.key, peerEp := 9}) kx
def cons : State := atChute (fun
    c => {c with role := .consumer, size := 1, peer := BitVec.ofNat 32 y0.key, peerEp := 9, base := 0x10}) kx
def uu : State := atChute (fun
    c => {c with peer := BitVec.ofNat 32 y0.key, peerEp := 4, underrun := true, lost := 4, frame := 0x100010, misuse := true})
    kx
def cp (op : Nat) : Packet := {pk0 with arg := op * 1024 + 9*32 + 3}
def rq : State := atChute (fun c => {c with requesting := true, ready := false}) prod
def dp : Packet := {pk0 with ptype := .chuteData, arg := 9*32+3, payload := [1,2,3,4,5,6,7,8], data := 1}

/-- States that meet the hypotheses of the clauses of ChuteInstructions. -/
theorem test_meets_chute_producers :
  (∃ (i : Iss) (e : Fin 32) (d : GReg) (s : State),
    let x := i.site
    let c := s.core x
    let ch := c.chute e.val
    c.chutesIdle = true ∧
    ch.role = .producer ∧
    ch.ready = true ∧
    (ch.record = true → ch.recOpen = true) ∧
    Ready i [d.val] s = true ∧
    (ch.record = false → ch.pushed + 1 ≤ ch.ring + ch.released) ∧
    c.sendUsed + 1 ≤ 128) ∧
  (∃ (i : Iss) (e : Fin 32) (s : State),
    let x := i.site
    let c := s.core x
    let ch := c.chute e.val
    c.chutesIdle = true ∧
    ch.role = .producer ∧
    ch.ready = true ∧
    (ch.record = true → ch.recOpen = true) ∧
    Ready i [] s = true ∧
    (ch.record = false → ch.pushed + 8 ≤ ch.ring + ch.released) ∧
    c.sendUsed + 8 ≤ 128) ∧
  (∃ (i : Iss) (e : Fin 32) (d : GReg) (s : State),
    let x := i.site
    let c := s.core x
    let ch := c.chute e.val
    c.chutesIdle = true ∧
    ch.role ≠ .producer ∧
    Ready i [d.val] s = true) ∧
  (∃ (i : Iss) (e : Fin 32) (s : State),
    let x := i.site
    let c := s.core x
    let ch := c.chute e.val
    c.chutesIdle = true ∧
    ch.role ≠ .producer ∧
    Ready i [] s = true) ∧
  (∃ (i : Iss) (e : Fin 32) (s : State),
    let x := i.site
    let c := s.core x
    let ch := c.chute e.val
    c.chutesIdle = true ∧
    (ch.role ≠ .producer ∨ ch.record = false) ∧
    Ready i [] s = true) ∧
  (∃ (i : Iss) (e : Fin 32) (s : State),
    let x := i.site
    let c := s.core x
    let ch := c.chute e.val
    c.chutesIdle = true ∧
    ch.role = .producer ∧
    ch.record = true ∧
    Ready i [] s = true ∧
    c.sendUsed + 1 ≤ 128) ∧
  (∃ (i : Iss) (e : Fin 32) (s : State),
    let x := i.site
    let c := s.core x
    let ch := c.chute e.val
    c.chutesIdle = true ∧
    ch.role = .producer ∧
    ch.record = true ∧
    Ready i [] s = true ∧
    ch.recOpen = true) ∧
  (∃ (i : Iss) (e : Fin 32) (s : State),
    let x := i.site
    let c := s.core x
    let ch := c.chute e.val
    c.chutesIdle = true ∧
    ch.role = .producer ∧
    ch.record = true ∧
    Ready i [] s = true ∧
    ch.recOpen = false) :=
  ⟨⟨i0, 3, 2, prod, by decide +kernel⟩,
   ⟨i0, 3, prod, by decide +kernel⟩,
   ⟨i0, 3, 2, kx, by decide +kernel⟩,
   ⟨i0, 3, kx, by decide +kernel⟩,
   ⟨i0, 3, prod, by decide +kernel⟩,
   ⟨i0, 3, (atChute (fun c => {c with record := true}) prod), by decide +kernel⟩,
   ⟨i0, 3, (atChute (fun c => {c with record := true, recOpen := true}) prod), by decide +kernel⟩,
   ⟨i0, 3, (atChute (fun c => {c with record := true}) prod), by decide +kernel⟩⟩

/-- States that meet the hypotheses of the clauses of ChuteInstructions. -/
theorem test_meets_chute_consumers :
  (∃ (i : Iss) (e : Fin 32) (d : GReg) (s : State),
    let x := i.site
    let c := s.core x
    let ch := c.chute e.val
    c.chutesIdle = true ∧
    ch.role = .consumer ∧
    1 ≤ ch.seen ∧
    c.plainAt (ch.slot ch.taken) 8 = true ∧
    Ready i [d.val] s = true) ∧
  (∃ (i : Iss) (e : Fin 32) (d : GReg) (s : State),
    let x := i.site
    let c := s.core x
    let ch := c.chute e.val
    c.chutesIdle = true ∧
    ch.role = .consumer ∧
    1 ≤ ch.seen ∧
    c.plainAt (ch.slot ch.taken) 8 = true ∧
    Ready i [d.val] s = true ∧
    (ch.lags = true → 4 ≤ ch.seen)) ∧
  (∃ (i : Iss) (e : Fin 32) (s : State),
    let x := i.site
    let c := s.core x
    let ch := c.chute e.val
    c.chutesIdle = true ∧
    ch.role = .consumer ∧
    8 ≤ ch.seen ∧
    Ready i [] s = true ∧
    (((List.range 8).all fun k => c.plainAt (ch.slot (ch.taken + k)) 8) = true)) ∧
  (∃ (i : Iss) (e : Fin 32) (d : GReg) (s : State),
    let x := i.site
    let c := s.core x
    let ch := c.chute e.val
    c.chutesIdle = true ∧
    ch.role = .consumer ∧
    ch.seen = 0 ∧
    Ready i [d.val] s = true) ∧
  (∃ (i : Iss) (e : Fin 32) (d : GReg) (s : State),
    let x := i.site
    let c := s.core x
    let ch := c.chute e.val
    c.chutesIdle = true ∧
    ch.role ≠ .consumer ∧
    Ready i [d.val] s = true) ∧
  (∃ (i : Iss) (e : Fin 32) (s : State),
    let x := i.site
    let c := s.core x
    let ch := c.chute e.val
    c.chutesIdle = true ∧
    ch.role ≠ .consumer ∧
    Ready i [] s = true) ∧
  (∃ (i : Iss) (e : Fin 32) (d : GReg) (s : State),
    let x := i.site
    let c := s.core x
    let ch := c.chute e.val
    c.chutesIdle = true ∧
    Ready i [d.val] s = true ∧
    (ch.lags = false ∨ ch.moved + 4 ≤ s.clockOf x)) ∧
  (∃ (i : Iss) (e : Fin 32) (d : GReg) (s : State),
    let x := i.site
    let c := s.core x
    let ch := c.chute e.val
    c.chutesIdle = true ∧
    Ready i [d.val] s = true ∧
    ch.lags = true) :=
  ⟨⟨i0, 3, 2, (atChute (fun c => {c with landed := 9}) cons), by decide +kernel⟩,
   ⟨i0, 3, 2, (atChute (fun c => {c with landed := 9}) cons), by decide +kernel⟩,
   ⟨i0, 3, (atChute (fun c => {c with landed := 9}) cons), by decide +kernel⟩,
   ⟨i0, 3, 2, cons, by decide +kernel⟩,
   ⟨i0, 3, 2, (atChute (fun c => {c with async := true}) prod), by decide +kernel⟩,
   ⟨i0, 3, (atChute (fun c => {c with async := true}) prod), by decide +kernel⟩,
   ⟨i0, 3, 2, cons, by decide +kernel⟩,
   ⟨i0, 3, 2, (atChute (fun c => {c with landed := 9, async := true}) cons), by decide +kernel⟩⟩

/-- States that meet the hypotheses of the clauses of ChuteBinding. -/
theorem test_meets_chute_binding :
  (∃ (w : Requester) (x : Site) (e : Fin 32) (v : Word) (s : State),
    let c := s.core x
    let ch := c.chute e.val
    let allowed := bits v.toNat 27 24 ≤ 10 ∧ (bits v.toNat 31 30 = 2 → bits v.toNat 10 0 * 64 + 8 * 2 ^ (bits v.toNat
        27 24 + 3) ≤ 0x20000) ∧
        (bits v.toNat 31 30 = 1 → bits v.toNat 10 0 = 0) ∧ (bit v.toNat 29 = true → ch.frame = 0) ∧
        (bit v.toNat 29 = false → bits ch.frame.toNat 15 0 ≤ 2 ^ (bits v.toNat 27 24 + 3))
    c.chutesIdle = true ∧
    s.awake w = true ∧
    s.coreClocked x = true ∧
    reaches w x = true ∧
    ch.role = .unbound ∧
    allowed ∧
    bits v.toNat 31 30 = 2) ∧
  (∃ (w : Requester) (x : Site) (e : Fin 32) (v : Word) (s : State),
    let c := s.core x
    let ch := c.chute e.val
    let allowed := bits v.toNat 27 24 ≤ 10 ∧ (bits v.toNat 31 30 = 2 → bits v.toNat 10 0 * 64 + 8 * 2 ^ (bits v.toNat
        27 24 + 3) ≤ 0x20000) ∧
        (bits v.toNat 31 30 = 1 → bits v.toNat 10 0 = 0) ∧ (bit v.toNat 29 = true → ch.frame = 0) ∧
        (bit v.toNat 29 = false → bits ch.frame.toNat 15 0 ≤ 2 ^ (bits v.toNat 27 24 + 3))
    c.chutesIdle = true ∧
    s.awake w = true ∧
    s.coreClocked x = true ∧
    reaches w x = true ∧
    ch.role = .unbound ∧
    allowed ∧
    bits v.toNat 31 30 = 1 ∧
    Knows s x ch.peer.toNat) ∧
  (∃ (w : Requester) (x : Site) (e : Fin 32) (v : Word) (s : State),
    let c := s.core x
    let ch := c.chute e.val
    let allowed := bits v.toNat 27 24 ≤ 10 ∧ (bits v.toNat 31 30 = 2 → bits v.toNat 10 0 * 64 + 8 * 2 ^ (bits v.toNat
        27 24 + 3) ≤ 0x20000) ∧
        (bits v.toNat 31 30 = 1 → bits v.toNat 10 0 = 0) ∧ (bit v.toNat 29 = true → ch.frame = 0) ∧
        (bit v.toNat 29 = false → bits ch.frame.toNat 15 0 ≤ 2 ^ (bits v.toNat 27 24 + 3))
    c.chutesIdle = true ∧
    s.awake w = true ∧
    s.coreClocked x = true ∧
    reaches w x = true ∧
    ch.role = .unbound ∧
    bits v.toNat 31 30 ≠ 0 ∧
    (¬allowed)) ∧
  (∃ (w : Requester) (x : Site) (e : Fin 32) (v : Word) (s : State),
    let c := s.core x
    let ch := c.chute e.val
    c.chutesIdle = true ∧
    s.awake w = true ∧
    s.coreClocked x = true ∧
    reaches w x = true ∧
    ch.role = .consumer ∧
    bits v.toNat 31 30 = 0 ∧
    ch.peerEp < 32 ∧
    Knows s x ch.peer.toNat) ∧
  (∃ (w : Requester) (x : Site) (e : Fin 32) (v : Word) (s : State),
    let c := s.core x
    let ch := c.chute e.val
    c.chutesIdle = true ∧
    s.awake w = true ∧
    s.coreClocked x = true ∧
    reaches w x = true ∧
    ch.role = .producer ∧
    bits v.toNat 31 30 = 0) ∧
  (∃ (x : Site) (e : Fin 32) (s : State),
    let c := s.core x
    let ch := c.chute e.val
    c.chutesIdle = true ∧
    s.coreClocked x = true ∧
    ch.role = .producer ∧
    ch.requesting = true ∧
    ch.peerEp < 32 ∧
    Knows s x ch.peer.toNat) ∧
  (∃ (x : Site) (e : Fin 32) (p : Packet) (s : State),
    let c := s.core x
    let ch := c.chute e.val
    c.chutesIdle = true ∧
    Arrives p x s ∧
    p.ptype = .chuteControl ∧
    (Packet.ctlEp p) = e.val ∧
    (Packet.ctlOp p) = 1 ∧
    ch.role = .consumer ∧
    ch.refusing = false ∧
    ch.peer.toNat = p.src ∧
    ch.peerEp = (Packet.ctlFrom p) ∧
    ch.record = bit p.arg 14 ∧
    ch.async = bit p.arg 15 ∧
    (ch.async = false → s.peerInField p.src x.field = true) ∧
    Knows s x p.src) :=
  ⟨⟨.hostA, x0, 3, (2<<<30 ||| 1<<<24 ||| 5 <<< 11 ||| 0x7fe ||| 1<<<20), uu, by decide +kernel⟩,
   ⟨.hostA, x0, 3, (1<<<30 ||| 1<<<24 ||| 5 <<< 11 ||| 0 ||| 1<<<19), uu, by decide +kernel⟩,
   ⟨.hostA, x0, 3, (2<<<30 ||| 1<<<24 ||| 5 <<< 11 ||| 0x7ff ||| 1<<<20), uu, by decide +kernel⟩,
   ⟨.hostA, x0, 3, (0), cons, by decide +kernel⟩,
   ⟨.hostA, x0, 3, (0), prod, by decide +kernel⟩,
   ⟨x0, 3, (atChute (fun c => {c with requesting := true, ready := false}) prod), by decide +kernel⟩,
   ⟨x0, 3, (cp 1), (arrives (cp 1) cons), by decide +kernel⟩⟩

/-- States that meet the hypotheses of the clauses of ChuteBinding. -/
theorem test_meets_chute_binding_2 :
  (∃ (x : Site) (e : Fin 32) (p : Packet) (s : State),
    let c := s.core x
    let ch := c.chute e.val
    c.chutesIdle = true ∧
    Arrives p x s ∧
    p.ptype = .chuteControl ∧
    (Packet.ctlEp p) = e.val ∧
    (Packet.ctlOp p) = 1 ∧
    ch.role = .unbound ∧
    Knows s x p.src) ∧
  (∃ (x : Site) (e : Fin 32) (p : Packet) (s : State),
    let c := s.core x
    let ch := c.chute e.val
    c.chutesIdle = true ∧
    Arrives p x s ∧
    p.ptype = .chuteControl ∧
    (Packet.ctlEp p) = e.val ∧
    ch.role = .producer ∧
    ch.peer.toNat = p.src ∧
    ch.peerEp = (Packet.ctlFrom p) ∧
    ch.requesting = true ∧
    (Packet.ctlOp p) = 2) ∧
  (∃ (x : Site) (e : Fin 32) (p : Packet) (s : State),
    let c := s.core x
    let ch := c.chute e.val
    c.chutesIdle = true ∧
    Arrives p x s ∧
    p.ptype = .chuteControl ∧
    (Packet.ctlEp p) = e.val ∧
    ch.role = .producer ∧
    ch.peer.toNat = p.src ∧
    ch.peerEp = (Packet.ctlFrom p) ∧
    ch.requesting = true ∧
    (Packet.ctlOp p) = 3) ∧
  (∃ (x : Site) (e : Fin 32) (p : Packet) (s : State),
    let c := s.core x
    let ch := c.chute e.val
    c.chutesIdle = true ∧
    Arrives p x s ∧
    p.ptype = .chuteControl ∧
    (Packet.ctlEp p) = e.val ∧
    ch.role = .producer ∧
    ch.peer.toNat = p.src ∧
    ch.peerEp = (Packet.ctlFrom p) ∧
    ch.requesting = true ∧
    (Packet.ctlOp p) = 4) ∧
  (∃ (x : Site) (e : Fin 32) (p : Packet) (s : State),
    let c := s.core x
    let ch := c.chute e.val
    c.chutesIdle = true ∧
    Arrives p x s ∧
    p.ptype = .chuteControl ∧
    (Packet.ctlEp p) = e.val ∧
    ch.role = .producer ∧
    ch.peer.toNat = p.src ∧
    ch.peerEp = (Packet.ctlFrom p) ∧
    (Packet.ctlOp p) = 5 ∧
    ch.ready = true ∧
    ch.record = false) ∧
  (∃ (x : Site) (e : Fin 32) (p : Packet) (s : State),
    let c := s.core x
    let ch := c.chute e.val
    c.chutesIdle = true ∧
    Arrives p x s ∧
    p.ptype = .chuteControl ∧
    (Packet.ctlEp p) = e.val ∧
    ch.role = .producer ∧
    ch.peer.toNat = p.src ∧
    ch.peerEp = (Packet.ctlFrom p) ∧
    (Packet.ctlOp p) = 6) :=
  ⟨⟨x0, 3, (cp 1), (arrives (cp 1) kx), by decide +kernel⟩,
   ⟨x0, 3, (cp 2), (arrives (cp 2) rq), by decide +kernel⟩,
   ⟨x0, 3, (cp 3), (arrives (cp 3) rq), by decide +kernel⟩,
   ⟨x0, 3, (cp 4), (arrives (cp 4) rq), by decide +kernel⟩,
   ⟨x0, 3, ({cp 5 with data := 20}), (arrives {cp 5 with data := 20} (atChute (fun
       c => {c with released := 40, pushed := 70}) prod)), by decide +kernel⟩,
   ⟨x0, 3, (cp 6), (arrives (cp 6) prod), by decide +kernel⟩⟩

/-- States that meet the hypotheses of the clauses of ChuteTransport. -/
theorem test_meets_chute_transport :
  (∃ (x : Site) (e : Fin 32) (vs : List DWord) (s : State),
    let c := s.core x
    let ch := c.chute e.val
    c.chutesIdle = true ∧
    vs ≠ [] ∧
    vs.length ≤ 64 ∧
    s.coreClocked x = true ∧
    ch.role = .producer ∧
    ch.peerEp < 32 ∧
    Knows s x ch.peer.toNat ∧
    ch.pend = vs.map Pend.entry) ∧
  (∃ (x : Site) (e : Fin 32) (vs : List DWord) (s : State),
    let c := s.core x
    let ch := c.chute e.val
    c.chutesIdle = true ∧
    vs ≠ [] ∧
    vs.length ≤ 64 ∧
    s.coreClocked x = true ∧
    ch.role = .consumer ∧
    ch.record = false ∧
    ch.fault = false ∧
    ch.taken ≠ ch.reported ∧
    ch.peerEp < 32 ∧
    Knows s x ch.peer.toNat) ∧
  (∃ (x : Site) (e : Fin 32) (p : Packet) (vs : List DWord) (s : State),
    let c := s.core x
    let ch := c.chute e.val
    let payload := vs.flatMap fun v => (List.range 8).map fun j => BitVec.ofNat 8 (v.toNat / 256 ^ j)
    c.chutesIdle = true ∧
    vs ≠ [] ∧
    vs.length ≤ 64 ∧
    Arrives p x s ∧
    p.ptype = .chuteData ∧
    bits p.arg 4 0 = e.val ∧
    ch.role = .consumer ∧
    ch.fault = false ∧
    ch.peer.toNat = p.src ∧
    ch.peerEp = (Packet.ctlFrom p) ∧
    p.payload = payload ∧
    p.data % 2 ^ 16 = vs.length ∧
    bit p.data 32 = false ∧
    bit p.data 33 = false) ∧
  (∃ (x : Site) (e : Fin 32) (vs : List DWord) (s : State),
    let c := s.core x
    let ch := c.chute e.val
    c.chutesIdle = true ∧
    vs ≠ [] ∧
    vs.length ≤ 64 ∧
    s.coreClocked x = true ∧
    ch.role = .consumer ∧
    ch.record = false ∧
    ch.fault = false ∧
    ch.waiting = vs.map Landing.entry ∧
    vs.length ≤ ch.ring ∧
    (∀ k < vs.length, c.plainAt (ch.slot (ch.landed + k)) 8 = true)) :=
  ⟨⟨x0, 3, [5,0x1234567890abcdef], (atChute (fun
      c => {c with sent := 7, pend := [.entry 5,.entry 0x1234567890abcdef]}) prod), by decide +kernel⟩,
   ⟨x0, 3, [5], (atChute (fun c => {c with landed := 40, taken := 39, reported := 35}) cons), by decide +kernel⟩,
   ⟨x0, 3, dp, [0x0807060504030201], (arrives dp cons), by decide +kernel⟩,
   ⟨x0, 3, [0x0807060504030201, 77], (atChute (fun
       c => {c with landed := 15, taken := 15, waiting := [.entry 0x0807060504030201,.entry 77]}) cons),
       by decide +kernel⟩⟩

end Chutes

namespace Remote

def atTally (n : Nat) (f : Tally → Tally) (s : State) : State := atCore s fun c => c.setTally n (f (c.tally n))
def rs (a b d : DWord) : State := atThread (know x0 y0.key y0 ready) fun t => ((t.put 2 a).put 3 b).put 1 d
def A : DWord := BitVec.ofNat 64 (y0.key * 2^32 + 2^24 + 0x1000)
def atWindow (f : Win → Win) (s : State) : State := atCore s fun c => c.setWin 2 (f (c.win 2))
def ow : State := atWindow (fun
    w => {w with open_ := true, generation := 3, write := true, read := true, base := 0x1000, size := 0x800, peerMode := 0})
    kx
def dpk (t : PType) (data : Nat) (pl : List Byte) : Packet
    := {pk0 with ptype := t, arg := 3*2^24+2*2^20+0x40, data := data, payload := pl}
def wa (p : Packet) (s : State) : State := arrives p s
def tg (use : TagUse) (parts : List (Nat × Status)) : Tag := ⟨use,some 1,0,parts,.ok⟩
def tgs (g : Tag) (s : State) : State := atCore s fun c => c.setTag 5 (some g)
def tp (t : PType) (st : Status) (data : Nat) (pl : List Byte) (arg := 0) : Packet
    := {pk0 with ptype := t, status := st, tag := 5 + 64, data := data, payload := pl, arg := arg}
def rgp : Packet := tp .readData .ok (8 + 0x10 * 2^32) [1,2,3,4,5,6,7,8] 0x300
def ln : Packet := tp .lossNotice .pathLost (4 + (5+64)*2^16 + 99 * 2^32) []
def dreq : Packet := {pk0 with ptype := .directory, dst := eidForeman 0, src := x0.key, arg := y0.key, tag := 9, tx := 38, ty := 40}
def dans : Packet := {pk0 with ptype := .directory, tag := 5, data := 2^63 + 6 + 7*2^10}
def qp : Packet := {pk0 with dst := y0.key, src := x0.key, ptype := .write, data := 8}
def tsp : Packet := {pk0 with ptype := .tallySignal, arg := 63, data := 5}
def bap : Packet := {pk0 with ptype := .barrier, arg := 63, data := 7 + 5 * 2^17}
def brp : Packet := {pk0 with ptype := .barrier, arg := 63, data := 7 + 2^16}

/-- States that meet the hypotheses of the clauses of TallyInstructions. -/
theorem test_meets_tally_instructions :
  (∃ (i : Iss) (d : GReg) (s : State),
    Ready i [d.val] s = true) ∧
  (∃ (i : Iss) (a : GReg) (n : Fin 64) (s : State),
    let x := i.site
    let c := s.core x
    let ty := c.tally n.val
    let th := s.issuer i
    let v := (th.get a.val).toNat
    ty.waiters = [] ∧
    ty.regs = [] ∧
    ty.barrier = false ∧
    Ready i [a.val] s = true ∧
    ty.value + v % 2 ^ 32 ≤ 0xFFFFFFFF) ∧
  (∃ (i : Iss) (a : GReg) (n : Fin 64) (s : State),
    let x := i.site
    let c := s.core x
    let ty := c.tally n.val
    ty.waiters = [] ∧
    ty.regs = [] ∧
    ty.barrier = false ∧
    Ready i [a.val] s = true) ∧
  (∃ (i : Iss) (d a : GReg) (n : Fin 64) (s : State),
    let x := i.site
    let c := s.core x
    let ty := c.tally n.val
    ty.waiters = [] ∧
    ty.regs = [] ∧
    ty.barrier = false ∧
    Ready i [d.val, a.val] s = true ∧
    ty.value < ty.target) ∧
  (∃ (i : Iss) (d a : GReg) (n : Fin 64) (s : State),
    let x := i.site
    let c := s.core x
    let ty := c.tally n.val
    ty.waiters = [] ∧
    ty.regs = [] ∧
    ty.barrier = false ∧
    Ready i [d.val, a.val] s = true ∧
    ty.target ≤ ty.value) :=
  ⟨⟨i0, 2, kx, by decide +kernel⟩,
   ⟨i0, 3, 63, kx, by decide +kernel⟩,
   ⟨i0, 3, 63, kx, by decide +kernel⟩,
   ⟨i0, 2, 2, 63, (atTally 63 (fun t => {t with target := 9, value := 4}) kx), by decide +kernel⟩,
   ⟨i0, 2, 3, 63, kx, by decide +kernel⟩⟩

/-- States that meet the hypotheses of the clauses of TallyInstructions. -/
theorem test_meets_tally_instructions_2 :
  (∃ (i : Iss) (d a : GReg) (n : Fin 64) (s : State),
    let x := i.site
    let c := s.core x
    let ty := c.tally n.val
    ty.waiters = [] ∧
    ty.regs = [] ∧
    ty.barrier = false ∧
    Ready i [d.val, a.val] s = true) ∧
  (∃ (i : Iss) (d a : GReg) (n : Fin 64) (s : State),
    let x := i.site
    let c := s.core x
    let ty := c.tally n.val
    8 ≤ ty.regs.length ∧
    Ready i [d.val, a.val] s = true) ∧
  (∃ (i : Iss) (a : GReg) (n : Fin 64) (s : State) (k : Fin 4) (g dl : Nat),
    let x := i.site
    let c := s.core x
    let ty := c.tally n.val
    let th := s.issuer i
    let v := (th.get a.val).toNat
    k ≠ i.thread ∧
    (s.thread x k.val).wait = .tally g n.val ∧
    Ready i [a.val] s = true ∧
    ty.waiters = [⟨k.val, false, dl, false⟩] ∧
    ty.regs = [] ∧
    ty.barrier = false ∧
    ty.value + v % 2 ^ 32 ≤ 0xFFFFFFFF ∧
    ty.target ≤ ty.value + v % 2 ^ 32) ∧
  (∃ (i : Iss) (d a : GReg) (n : Fin 64) (s : State),
    let x := i.site
    let c := s.core x
    let ty := c.tally n.val
    let th := s.issuer i
    let v := (th.get a.val).toNat
    ty.barrier = true ∧
    ty.forwarded = false ∧
    ty.parentEn = false ∧
    ty.waiters = [] ∧
    ty.regs = [] ∧
    ty.early = 0 ∧
    ty.round = v % 2 ^ 16 ∧
    ty.value < 2 ^ 16 ∧
    Ready i [d.val, a.val] s = true ∧
    ty.value + 1 < max ty.target 1) ∧
  (∃ (i : Iss) (d a : GReg) (n : Fin 64) (s : State),
    let x := i.site
    let c := s.core x
    let ty := c.tally n.val
    let th := s.issuer i
    let v := (th.get a.val).toNat
    ty.barrier = true ∧
    ty.forwarded = false ∧
    ty.parentEn = false ∧
    ty.waiters = [] ∧
    ty.regs = [] ∧
    ty.early = 0 ∧
    ty.round = v % 2 ^ 16 ∧
    ty.value < 2 ^ 16 ∧
    Ready i [d.val, a.val] s = true ∧
    ty.value + 1 = max ty.target 1) :=
  ⟨⟨i0, 2, 3, 63, kx, by decide +kernel⟩,
   ⟨i0, 2, 0, 63, (atTally 63 (fun t => {t with target := 9, value := 4, regs := List.replicate 8 ⟨1,1,false,false⟩})
       kx), by decide +kernel⟩,
   ⟨i0, 2, 63, (atCore (atTally 63 (fun t => {t with target := 9, value := 4, waiters := [⟨2,false,0,false⟩]}) kx) fun
       c => c.setThread 2 {runTh with state := .waitTally, wait := .tally 4 63}), 2, 4, 0, by decide +kernel⟩,
   ⟨i0, 2, 3, 63, (atTally 63 (fun t => {t with target := 3, value := 1, barrier := true, round := 7}) kx),
       by decide +kernel⟩,
   ⟨i0, 2, 3, 63, (atTally 63 (fun t => {t with target := 0, value := 0, barrier := true, round := 7}) kx),
       by decide +kernel⟩⟩

/-- States that meet the hypotheses of the clauses of RemoteInstructions. -/
theorem test_meets_remote_instructions :
  (∃ (i : Iss) (d a : GReg) (k : Nat) (s : State),
    let x := i.site
    let c := s.core x
    let th := s.issuer i
    let addr := (th.get a.val).toNat
    let eid := addr / 2 ^ 32
    eid % 2 ^ 20 < 0xFFE00 ∧
    Knows s x eid ∧
    c.tagsInUse < 64 ∧
    c.freeTag = some k ∧
    addr % 8 = 0 ∧
    Ready i [d.val, a.val] s = true) ∧
  (∃ (i : Iss) (d a b : GReg) (s : State),
    let x := i.site
    let c := s.core x
    let th := s.issuer i
    let addr := (th.get a.val).toNat
    let eid := addr / 2 ^ 32
    c.tagsInUse ≤ 64 ∧
    Ready i [d.val, a.val, b.val] s = true ∧
    eid % 2 ^ 20 < 0xFFE00 ∧
    Knows s x eid) ∧
  (∃ (i : Iss) (d a b : GReg) (s : State),
    let x := i.site
    let c := s.core x
    let th := s.issuer i
    let addr := (th.get a.val).toNat
    c.tagsInUse ≤ 64 ∧
    Ready i [d.val, a.val, b.val] s = true ∧
    Knows s x (addr % 2 ^ 32)) ∧
  (∃ (i : Iss) (d a b : GReg) (k : Nat) (s : State),
    let x := i.site
    let c := s.core x
    let th := s.issuer i
    let addr := (th.get a.val).toNat
    let v := (th.get d.val).toNat
    let u := (th.get b.val).toNat
    let eid := addr / 2 ^ 32
    let moves := fun (w : Nat) => w % 2 ^ 17 + (w / 2 ^ 32 % 2 ^ 12 + 1) * 16 ≤ 0x20000 ∧
        c.plainAt (w % 2 ^ 17) ((w / 2 ^ 32 % 2 ^ 12 + 1) * 16) = true
    eid % 2 ^ 20 < 0xFFE00 ∧
    Knows s x eid ∧
    c.tagsInUse < 64 ∧
    c.freeTag = some k ∧
    Ready i [d.val, a.val, b.val] s = true ∧
    moves u ∧
    v / 2 ^ 8 % 4 ≠ 3) ∧
  (∃ (i : Iss) (d a b : GReg) (k : Nat) (s : State),
    let x := i.site
    let c := s.core x
    let th := s.issuer i
    let addr := (th.get a.val).toNat
    let v := (th.get d.val).toNat
    let eid := addr / 2 ^ 32
    let moves := fun (w : Nat) => w % 2 ^ 17 + (w / 2 ^ 32 % 2 ^ 12 + 1) * 16 ≤ 0x20000 ∧
        c.plainAt (w % 2 ^ 17) ((w / 2 ^ 32 % 2 ^ 12 + 1) * 16) = true
    eid % 2 ^ 20 < 0xFFE00 ∧
    Knows s x eid ∧
    c.tagsInUse < 64 ∧
    c.freeTag = some k ∧
    Ready i [d.val, a.val, b.val] s = true ∧
    moves v) ∧
  (∃ (i : Iss) (d : GReg) (s : State),
    let x := i.site
    let c := s.core x
    Ready i [d.val] s = true ∧
    c.opsOut i.thread.val = false) ∧
  (∃ (i : Iss) (d : GReg) (s : State),
    let x := i.site
    let c := s.core x
    Ready i [d.val] s = true ∧
    c.opsOut i.thread.val = true) :=
  ⟨⟨i0, 1, 2, 0, (rs A 5 9), by decide +kernel⟩,
   ⟨i0, 1, 2, 3, (rs A 5 9), by decide +kernel⟩,
   ⟨i0, 0, 2, 3, (rs (BitVec.ofNat 64 (y0.key)) 0x45 (0x41f00000100#64)), by decide +kernel⟩,
   ⟨i0, 1, 2, 3, 0, (rs A 5 9), by decide +kernel⟩,
   ⟨i0, 1, 2, 3, 0, (rs A 5 9), by decide +kernel⟩,
   ⟨i0, 1, (rs A 5 9), by decide +kernel⟩,
   ⟨i0, 1, (atCore (rs A 0x45 77) fun c => c.setTag 0 (some ⟨.rsta,some 1,0,[(1,.ok)],.ok⟩)), by decide +kernel⟩⟩

/-- States that meet the hypotheses of the clauses of WindowAccesses. -/
theorem test_meets_window_accesses :
  (∃ (x : Site) (p : Packet) (s : State),
    let c := s.core x
    let w := c.win (p.arg / 2 ^ 20 % 16)
    let off := p.arg % 2 ^ 20
    let at_ := w.base.toNat + off
    let bs := Packet.writeBytes p
    let n := bs.length
    let granted := fun (perm : Bool) (n : Nat) => w.open_ = true ∧ w.closing = false ∧ p.arg / 2 ^ 24 % 2 ^ 8
        = w.generation ∧
        s.admits w p.src = true ∧ perm = true ∧ off + n ≤ w.size.toNat ∧ c.plainAt at_ n = true
    Arrives p x s ∧
    granted w.write n ∧
    p.ptype = .write) ∧
  (∃ (x : Site) (p : Packet) (s : State),
    let c := s.core x
    let w := c.win (p.arg / 2 ^ 20 % 16)
    let off := p.arg % 2 ^ 20
    let at_ := w.base.toNat + off
    let bs := Packet.writeBytes p
    let n := bs.length
    let granted := fun (perm : Bool) (n : Nat) => w.open_ = true ∧ w.closing = false ∧ p.arg / 2 ^ 24 % 2 ^ 8
        = w.generation ∧
        s.admits w p.src = true ∧ perm = true ∧ off + n ≤ w.size.toNat ∧ c.plainAt at_ n = true
    Arrives p x s ∧
    granted w.write n ∧
    Knows s x p.src ∧
    p.ptype = .writeAcked) ∧
  (∃ (x : Site) (p : Packet) (s : State),
    let c := s.core x
    let w := c.win (p.arg / 2 ^ 20 % 16)
    let off := p.arg % 2 ^ 20
    let at_ := w.base.toNat + off
    let bs := Packet.writeBytes p
    let n := bs.length
    let granted := fun (perm : Bool) (n : Nat) => w.open_ = true ∧ w.closing = false ∧ p.arg / 2 ^ 24 % 2 ^ 8
        = w.generation ∧
        s.admits w p.src = true ∧ perm = true ∧ off + n ≤ w.size.toNat ∧ c.plainAt at_ n = true
    let ty := c.tally (p.data % 64)
    let free := ty.waiters = [] ∧ ty.regs = [] ∧ ty.barrier = false
    Arrives p x s ∧
    granted w.write n ∧
    Knows s x p.src ∧
    p.ptype = .signalledWrite ∧
    free ∧
    ty.value < 0xFFFFFFFF ∧
    bit p.data 6 = true ∧
    bit p.data 7 = true ∧
    c.rangeActive (w.base.toNat + p.data / 2 ^ 8 % 2 ^ 17) (p.data / 2 ^ 32 % 2 ^ 32) = true) ∧
  (∃ (x : Site) (p : Packet) (s : State),
    let c := s.core x
    let w := c.win (p.arg / 2 ^ 20 % 16)
    let off := p.arg % 2 ^ 20
    let at_ := w.base.toNat + off
    let bs := Packet.writeBytes p
    let n := bs.length
    let granted := fun (perm : Bool) (n : Nat) => w.open_ = true ∧ w.closing = false ∧ p.arg / 2 ^ 24 % 2 ^ 8
        = w.generation ∧
        s.admits w p.src = true ∧ perm = true ∧ off + n ≤ w.size.toNat ∧ c.plainAt at_ n = true
    let ty := c.tally (p.data % 64)
    let free := ty.waiters = [] ∧ ty.regs = [] ∧ ty.barrier = false
    Arrives p x s ∧
    granted w.write n ∧
    Knows s x p.src ∧
    p.ptype = .countedWrite ∧
    free ∧
    ty.value + n ≤ 0xFFFFFFFF ∧
    bit p.data 6 = true) ∧
  (∃ (x : Site) (p : Packet) (s : State),
    let c := s.core x
    let w := c.win (p.arg / 2 ^ 20 % 16)
    let off := p.arg % 2 ^ 20
    let at_ := w.base.toNat + off
    let bs := Packet.writeBytes p
    let n := bs.length
    let granted := fun (perm : Bool) (n : Nat) => w.open_ = true ∧ w.closing = false ∧ p.arg / 2 ^ 24 % 2 ^ 8
        = w.generation ∧
        s.admits w p.src = true ∧ perm = true ∧ off + n ≤ w.size.toNat ∧ c.plainAt at_ n = true
    Arrives p x s ∧
    granted w.read (p.data % 2 ^ 32) ∧
    Knows s x p.src ∧
    p.ptype = .read) :=
  ⟨⟨x0, (dpk .write 0x0102 []), (wa (dpk .write 0x0102 []) ow), by decide +kernel⟩,
   ⟨x0, (dpk .writeAcked 0x0102 [1,2,3]), (wa (dpk .writeAcked 0x0102 [1,2,3]) ow), by decide +kernel⟩,
   ⟨x0, (dpk .signalledWrite (0xC5 + 8*2^32) [1,2,3,4,5,6,7,8]), (wa (dpk .signalledWrite (0xC5 + 8*2^32)
       [1,2,3,4,5,6,7,8]) ow), by decide +kernel⟩,
   ⟨x0, (dpk .countedWrite (0x45) [1,2,3,4,5,6,7,8]), (wa (dpk .countedWrite (0x45) [1,2,3,4,5,6,7,8]) ow),
       by decide +kernel⟩,
   ⟨x0, (dpk .read 0x208 []), (wa (dpk .read 0x208 []) ow), by decide +kernel⟩⟩

/-- States that meet the hypotheses of the clauses of WindowAccesses. -/
theorem test_meets_window_accesses_2 :
  (∃ (x : Site) (p : Packet) (s : State),
    let c := s.core x
    let w := c.win (p.arg / 2 ^ 20 % 16)
    Arrives p x s ∧
    w.open_ = false ∧
    Knows s x p.src ∧
    p.ptype = .writeAcked) ∧
  (∃ (r : Requester) (x : Site) (win : Fin 16) (v : Word) (p : Packet) (s : State),
    let c := s.core x
    let w := c.win (p.arg / 2 ^ 20 % 16)
    s.coreClocked x = true ∧
    let w := c.win win.val
    s.awake r = true ∧
    reaches r x = true ∧
    v.toNat / 2 ^ 24 % 8 = 0 ∧
    v.toNat / 4 % 2 ^ 14 = 0 ∧
    bit v.toNat 31 = true ∧
    v.toNat / 2 ^ 27 % 4 ≠ 3 ∧
    w.open_ = false ∧
    w.closing = false ∧
    0 < w.size.toNat ∧
    w.base.toNat + w.size.toNat ≤ 0x20000) ∧
  (∃ (r : Requester) (x : Site) (win : Fin 16) (v : Word) (p : Packet) (s : State),
    let c := s.core x
    let w := c.win (p.arg / 2 ^ 20 % 16)
    s.coreClocked x = true ∧
    let w := c.win win.val
    s.awake r = true ∧
    reaches r x = true ∧
    v.toNat / 2 ^ 24 % 8 = 0 ∧
    v.toNat / 4 % 2 ^ 14 = 0 ∧
    bit v.toNat 31 = false ∧
    w.open_ = true ∧
    w.closing = false ∧
    w.peerMode = v.toNat / 2 ^ 27 % 4 ∧
    w.peerMode ≠ 3 ∧
    w.write = bit v.toNat 1 ∧
    w.read = bit v.toNat 0) ∧
  (∃ (x : Site) (win : Fin 16) (p : Packet) (s : State),
    let c := s.core x
    let w := c.win (p.arg / 2 ^ 20 % 16)
    s.coreClocked x = true ∧
    let w := c.win win.val
    w.closing = true) :=
  ⟨⟨x0, (dpk .writeAcked 0x208 []), (wa (dpk .writeAcked 0x208 []) kx), by decide +kernel⟩,
   ⟨.hostA, x0, 2, 0x88000003, (dpk .writeAcked 0x208 []), (atWindow (fun w => {w with size := 1, base := 0x1ffff})
       kx), by decide +kernel⟩,
   ⟨.hostA, x0, 2, 0x00000003, (dpk .writeAcked 0x208 []), ow, by decide +kernel⟩,
   ⟨x0, 2, (dpk .writeAcked 0x208 []), (atWindow (fun w => {w with closing := true}) ow), by decide +kernel⟩⟩

/-- States that meet the hypotheses of the clauses of RemoteAnswers. -/
theorem test_meets_remote_answers :
  (∃ (x : Site) (p : Packet) (k : Fin 64) (j : Fin 4) (d : Nat) (s : State) (g : Tag),
    let c := s.core x
    let th := s.thread x j.val
    let held := fun (g : Tag) (use : TagUse) parts => g.use = use ∧ g.thread = some j.val ∧ g.parts = parts ∧ g.own
        = .ok
    c.missWait = [] ∧
    (∀ m < 4, waitingOp (s.thread x m) = none) ∧
    Arrives p x s ∧
    c.tagOf p.tag = some (k.val, g) ∧
    p.ptype = .readData ∧
    held g (.rld d) [(8, .ok)] ∧
    p.status = .ok ∧
    p.payload.length = 8 ∧
    p.data % 2 ^ 32 = 8 ∧
    let value := BitVec.ofNat 64 (leNat (p.payload.map (·.toNat)))
    let th' := { th.put d value with pendingG := th.pendingG.filter fun q => q.2 != k.val }
    th.wait = .none) ∧
  (∃ (x : Site) (p : Packet) (k : Fin 64) (j : Fin 4) (d : Nat) (s : State) (g : Tag) (need : List Nat),
    let c := s.core x
    let th := s.thread x j.val
    let held := fun (g : Tag) (use : TagUse) parts => g.use = use ∧ g.thread = some j.val ∧ g.parts = parts ∧ g.own
        = .ok
    c.missWait = [] ∧
    (∀ m < 4, waitingOp (s.thread x m) = none) ∧
    Arrives p x s ∧
    c.tagOf p.tag = some (k.val, g) ∧
    p.ptype = .readData ∧
    held g (.rld d) [(8, .ok)] ∧
    p.status = .ok ∧
    p.payload.length = 8 ∧
    p.data % 2 ^ 32 = 8 ∧
    let value := BitVec.ofNat 64 (leNat (p.payload.map (·.toNat)))
    let th' := { th.put d value with pendingG := th.pendingG.filter fun q => q.2 != k.val }
    th.wait = .rldResult need false ∧
    th.pendingG = [(d, k.val)] ∧
    th.async = [] ∧
    s.coreRuns x = true) ∧
  (∃ (x : Site) (p : Packet) (k : Fin 64) (j : Fin 4) (s : State) (g : Tag) (loff roff n : Nat),
    let c := s.core x
    let th := s.thread x j.val
    let held := fun (g : Tag) (use : TagUse) parts => g.use = use ∧ g.thread = some j.val ∧ g.parts = parts ∧ g.own
        = .ok
    c.missWait = [] ∧
    (∀ m < 4, waitingOp (s.thread x m) = none) ∧
    Arrives p x s ∧
    c.tagOf p.tag = some (k.val, g) ∧
    p.ptype = .readData ∧
    held g (.rget loff roff none) [(n, .ok)] ∧
    p.status = .ok ∧
    th.wait = .none ∧
    p.payload.length = n ∧
    p.data % 2 ^ 32 = n ∧
    0 < n ∧
    p.arg % 2 ^ 20 = roff ∧
    c.plainAt (loff + p.data / 2 ^ 32 % 2 ^ 32) n = true) ∧
  (∃ (x : Site) (p : Packet) (k : Fin 64) (j : Fin 4) (s : State) (g : Tag),
    let c := s.core x
    let th := s.thread x j.val
    let held := fun (g : Tag) (use : TagUse) parts => g.use = use ∧ g.thread = some j.val ∧ g.parts = parts ∧ g.own
        = .ok
    c.missWait = [] ∧
    (∀ m < 4, waitingOp (s.thread x m) = none) ∧
    Arrives p x s ∧
    c.tagOf p.tag = some (k.val, g) ∧
    p.ptype = .ack ∧
    held g .rsta [(1, .ok)] ∧
    th.wait = .none) ∧
  (∃ (x : Site) (p : Packet) (k : Fin 64) (j : Fin 4) (s : State) (g : Tag),
    let c := s.core x
    let th := s.thread x j.val
    let held := fun (g : Tag) (use : TagUse) parts => g.use = use ∧ g.thread = some j.val ∧ g.parts = parts ∧ g.own
        = .ok
    c.missWait = [] ∧
    (∀ m < 4, waitingOp (s.thread x m) = none) ∧
    Arrives p x s ∧
    p.ptype = .lossNotice ∧
    c.tagOf (p.data / 2 ^ 16 % 2 ^ 16) = some (k.val, g) ∧
    held g .rsta [(1, .ok)] ∧
    p.data % 2 ^ 8 = 0x04 ∧
    th.wait = .none) ∧
  (∃ (x : Site) (p : Packet) (s : State),
    let c := s.core x
    c.missWait = [] ∧
    (∀ m < 4, waitingOp (s.thread x m) = none) ∧
    Arrives p x s ∧
    p.ptype = .lossNotice ∧
    c.tagOf (p.data / 2 ^ 16 % 2 ^ 16) = none) ∧
  (∃ (x : Site) (k : Fin 64) (j : Fin 4) (s : State) (g : Tag),
    let c := s.core x
    let th := s.thread x j.val
    c.missWait = [] ∧
    (∀ m < 4, waitingOp (s.thread x m) = none) ∧
    c.tag k.val = some g ∧
    s.coreClocked x = true ∧
    g.use = .rsta ∧
    g.thread = some j.val ∧
    th.wait = .none) :=
  ⟨⟨x0, (tp .readData .ok 8 [1,2,3,4,5,6,7,8]), 5, 1, 4, (arrives (tp .readData .ok 8 [1,2,3,4,5,6,7,8]) (tgs (tg
      (.rld 4) [(8,.ok)]) kx)), tg (.rld 4) [(8,.ok)], by decide +kernel⟩,
   ⟨x0, (tp .readData .ok 8 [1,2,3,4,5,6,7,8]), 5, 1, 0, (atThread (arrives (tp .readData .ok 8 [1,2,3,4,5,6,7,8])
       (tgs (tg (.rld 0) [(8,.ok)]) kx)) fun
       t => {t with pendingG := [(0,5)], state := .waitRemote, wait := .rldResult [] false}), tg (.rld 0) [(8,.ok)],
       [], by decide +kernel⟩,
   ⟨x0, rgp, 5, 1, (arrives rgp (tgs (tg (.rget 0x200 0x300 none) [(8,.ok)]) kx)), tg (.rget 0x200 0x300 none)
       [(8,.ok)], 0x200, 0x300, 8, by decide +kernel⟩,
   ⟨x0, (tp .ack .ok 0 []), 5, 1, (arrives (tp .ack .ok 0 []) (tgs (tg .rsta [(1,.ok)]) kx)), tg .rsta [(1,.ok)],
       by decide +kernel⟩,
   ⟨x0, ln, 5, 1, (arrives ln (tgs (tg .rsta [(1,.ok)]) kx)), tg .rsta [(1,.ok)], by decide +kernel⟩,
   ⟨x0, ln, (arrives ln kx), by decide +kernel⟩,
   ⟨x0, 5, 1, (arrives (tp .ack .ok 0 []) (tgs (tg .rsta [(1,.ok)]) kx)), tg .rsta [(1,.ok)], by decide +kernel⟩⟩

/-- States that meet the hypotheses of the clauses of DirectoryAndNames. -/
theorem test_meets_directory_and_names :
  (∃ (y : Site) (f : Fin 48) (p : Packet) (s : State) (d : Dest),
    let mid : Site := ⟨Fin.ofNat 640 (f.val % 8 * 80 + 39), Fin.ofNat 504 (f.val / 8 * 84 + 41)⟩
    p.ptype = .directory ∧
    p.poisoned = false ∧
    p.dst = s.chip * 2 ^ 20 + 0xFFF00 + f.val ∧
    s.lands p = true ∧
    (s.field f.val).foremanUp = true ∧
    s.siteOf (eidLocal p.src) = some y ∧
    s.resolve y p.src p.arg = some d ∧
    (s.resolve mid p.dst p.src).isSome = true) ∧
  (∃ (x : Site) (p q : Packet) (k n : Nat) (s : State) (g : Tag) (port : Port),
    let c := s.core x
    Arrives p x s ∧
    p.ptype = .directory ∧
    bit p.data 63 = true ∧
    p.status = .ok ∧
    c.tagOf p.tag = some (k, g) ∧
    g.use = .miss q.dst ∧
    Port.ofCode (p.data / 2 ^ 19 % 8) = some port ∧
    c.bookVictim = some n ∧
    c.missWait = [⟨some k, q⟩] ∧
    (∀ m < 4, waitingOp (s.thread x m) = none)) ∧
  (∃ (w : Requester) (x y : Site) (k : Nat) (v : Word) (s : State),
    s.awake w = true ∧
    s.coreClocked x = true ∧
    reaches w x = true ∧
    (∀ y k, w ≠ .thread y k) ∧
    v.toNat % 2 ^ 20 < 0xFFE00 ∧
    s.eidTaken x (v.toNat % 2 ^ 20) = false) ∧
  (∃ (w : Requester) (x y : Site) (k : Nat) (s : State),
    s.awake w = true ∧
    s.coreClocked x = true ∧
    reaches w x = true ∧
    (∃ y k, w = .thread y k)) ∧
  (∃ (w : Requester) (x : Site) (s : State),
    s.awake w = true ∧
    s.coreClocked x = true ∧
    reaches w x = true) :=
  ⟨⟨x0, 0, dreq, ({ready with net := [Flight.landed (38+40*640) dreq]}), (ready.resolve x0 x0.key y0.key).getD
      ⟨0,0,.local_,false⟩, by decide +kernel⟩,
   ⟨x0, dans, qp, 5, 0, (arrives dans (atCore ready fun
       c => {c.setTag 5 (some ⟨.miss y0.key,none,0,[],.ok⟩) with missWait := [⟨some 5,qp⟩]})), ⟨.miss
       y0.key,none,0,[],.ok⟩, .local_, by decide +kernel⟩,
   ⟨.hostA, x0, x0, 0, 0x123FFDFF, ready,
       by (repeat' apply And.intro) <;> first | decide +kernel | exact fun y k h => nomatch h⟩,
   ⟨(.thread x0 1), x0, x0, 0, ready, by (repeat' apply And.intro) <;> first | decide +kernel | exact ⟨x0, 1, rfl⟩⟩,
   ⟨.hostA, x0, ({ready with net := [Flight.landed (38+40*640) dreq]}), by decide +kernel⟩⟩

/-- States that meet the hypotheses of the clauses of TalliesFromAfar. -/
theorem test_meets_tallies_from_afar :
  (∃ (x : Site) (p : Packet) (s : State),
    let c := s.core x
    let n := p.arg % 64
    let ty := c.tally n
    Arrives p x s ∧
    p.ptype = .tallySignal ∧
    ty.waiters = [] ∧
    ty.regs = [] ∧
    ty.barrier = false ∧
    ty.value + p.data % 2 ^ 32 ≤ 0xFFFFFFFF) ∧
  (∃ (x : Site) (p : Packet) (s : State),
    let c := s.core x
    let n := p.arg % 64
    let ty := c.tally n
    Arrives p x s ∧
    p.ptype = .barrier ∧
    bit p.data 16 = false ∧
    ty.barrier = true ∧
    ty.round = p.data % 2 ^ 16 ∧
    ty.value + 1 < max ty.target 1 ∧
    ty.value < 0xFFFFFFFF ∧
    ty.regs.length < 8) ∧
  (∃ (x : Site) (p : Packet) (j : Fin 4) (g dl : Nat) (s : State),
    let c := s.core x
    let n := p.arg % 64
    let ty := c.tally n
    let th := s.thread x j.val
    Arrives p x s ∧
    p.ptype = .barrier ∧
    bit p.data 16 = true ∧
    p.status = .ok ∧
    ty.barrier = true ∧
    ty.forwarded = true ∧
    ty.round = p.data % 2 ^ 16 ∧
    ty.waiters = [⟨j.val, false, dl, true⟩] ∧
    ty.regs = [] ∧
    ty.early = 0 ∧
    th.wait = .tally g n ∧
    s.coreRuns x = true) ∧
  (∃ (x : Site) (j : Fin 4) (g dl : Nat) (s : State) (m : Nat),
    let c := s.core x
    let th := s.thread x j.val
    th.wait = .tally g m ∧
    (c.tally m).waiters = [⟨j.val, false, dl, false⟩] ∧
    dl ≠ 0 ∧
    s.coreRuns x = true) :=
  ⟨⟨x0, tsp, (arrives tsp kx), by decide +kernel⟩,
   ⟨x0, bap, (arrives bap (atTally 63 (fun
       t => {t with barrier := true, round := 7, target := 3, regs := [⟨7,7,true,false⟩]}) kx)), by decide +kernel⟩,
   ⟨x0, brp, 1, 4, 9, (atThread (arrives brp (atTally 63 (fun
       t => {t with barrier := true, round := 7, target := 3, value := 4, forwarded := true, waiters := [⟨1,false,9,true⟩]})
       kx)) fun t => {t with state := .waitTally, wait := .tally 4 63}), by decide +kernel⟩,
   ⟨x0, 1, 0, 9, (atThread ((atTally 63 (fun t => {t with target := 3, value := 2, waiters := [⟨1,false,9,false⟩]})
       kx)) fun t => {t with state := .waitTally, wait := .tally 0 63}), 63, by decide +kernel⟩⟩

end Remote

namespace Schedule

def d1 : Shift := [(0,1),(10,6),(14,0x40),(15,1),(32,2),(768,0x40)]
def sbytes (s : State) : State := atCore s fun c => c.setBytes 0x1000 ((List.range 2048).map fun j => (d1.get (fun
    _ => 0) j).toNat)
def rot (v : Word) (s : State) : State := s.setSreg (rotCtrl 0) v
def shs : State := atCore (threaded fun t => {t with state := .stopped}) fun c => c.setShift 3 ⟨d1,true⟩
def stepped (s : State) : State := (s.setSreg (rotStepHi 0 2) (3 + 9 * 2^8)).setSreg (rotStepLo 0 2) 77
def bx : State := atField ((atCore ready fun
    c => {c with active := some (3,d1), inputs := [(4,some ⟨[1,2,3],false,true,5⟩)]}).onCore y0 fun c => c.setReg
    0x070 1) fun f => {f with sched := .beats, period := 2}
def d3 : Shift := [(0,1),(32,2),(208,3),(213,0x84)]
def d4 : Shift := [(0,1),(32,2),(208,4),(213,0x84),(216,6)]
def st4 : Steer := {Steer.reset with tokenQ := [1,2,3,0], dataQ := [5,6,7,8]}
def all4 (s : State) (f : Thread → Thread) : State := atCore s fun c => (((c.setThread 0 (f (c.thread 0))).setThread 1
    (f (c.thread 1))).setThread 2 (f (c.thread 2))).setThread 3 (f (c.thread 3))

/-- States that meet the hypotheses of the clauses of ShiftsAndRotation. -/
theorem test_meets_shifts_and_rotation :
  (∃ (w : Requester) (x : Site) (v : Word) (s : State),
    let c := s.core x
    let v31 := v.toNat
    s.awake w = true ∧
    s.coreClocked x = true ∧
    reaches w x = true ∧
    bit v31 31 = true ∧
    (∀ a, c.active = some a → a.1 ≠ bits v31 30 28) ∧
    c.shiftLoad = none ∧
    ((s.field x.field).sched = .idle ∨ (s.field x.field).sched = .beats)) ∧
  (∃ (w : Requester) (x : Site) (v : Word) (s : State),
    let c := s.core x
    let v31 := v.toNat
    s.awake w = true ∧
    s.coreClocked x = true ∧
    reaches w x = true ∧
    bit v31 31 = true ∧
    c.shiftLoad.isSome = true) ∧
  (∃ (x : Site) (slot off : Nat) (s : State),
    let c := s.core x
    c.shiftLoad = some (slot, off) ∧
    s.coreClocked x = true ∧
    off % 64 = 0 ∧
    c.plainAt off 2048 = true) ∧
  (∃ (w : Requester) (f : FieldNo) (v : Word) (s : State),
    let fl := s.field f.val
    let rot := rotCtrl f.val
    let v31 := v.toNat
    s.pageWriter w = true ∧
    s.pithead.boot ≠ .failed ∧
    fl.vcoreOn = true ∧
    s.sregBit rot 0 = false ∧
    fl.drain = none ∧
    bit v31 0 = true ∧
    bit v31 30 = false) ∧
  (∃ (w : Requester) (f : FieldNo) (v : Word) (s : State),
    let fl := s.field f.val
    let rot := rotCtrl f.val
    let v31 := v.toNat
    s.pageWriter w = true ∧
    s.pithead.boot ≠ .failed ∧
    fl.vcoreOn = true ∧
    s.sregBit rot 0 = true ∧
    bit v31 29 = s.sregBit rot 29 ∧
    bits v31 10 8 = s.sregBits rot 10 8 ∧
    bit v31 0 = true ∧
    bit v31 30 = true) ∧
  (∃ (w : Requester) (f : FieldNo) (v : Word) (s : State),
    let fl := s.field f.val
    let rot := rotCtrl f.val
    let v31 := v.toNat
    s.pageWriter w = true ∧
    s.pithead.boot ≠ .failed ∧
    fl.vcoreOn = true ∧
    s.sregBit rot 0 = true ∧
    bit v31 29 = s.sregBit rot 29 ∧
    bits v31 10 8 = s.sregBits rot 10 8 ∧
    bit v31 0 = false ∧
    bit v31 30 = false) ∧
  (∃ (x : Site) (f : FieldNo) (k : Nat) (d : Shift) (s : State),
    let c := s.core x
    let fl := s.field f.val
    fl.sched = .due (some k) ∧
    s.schedRuns f.val = true ∧
    fl.beatAt ≤ fl.ran ∧
    s.coreSites f.val = [x] ∧
    s.coreOn x = true ∧
    c.shiftSlot (bits (s.sreg (rotStepHi f.val k)).toNat 2 0) = ⟨d, true⟩ ∧
    c.array.busy = false ∧
    c.chutesIdle = true ∧
    d.le 4 4 = 0 ∧
    d.le 8 2 = 0 ∧
    d.stationary = false ∧
    (∀ t ∈ d.enters, (s.thread x t).state = .stopped)) ∧
  (∃ (x : Site) (f : FieldNo) (slot k : Nat) (d : Shift) (s : State),
    let c := s.core x
    let fl := s.field f.val
    fl.sched = .switching (some k) ∧
    s.schedRuns f.val = true ∧
    fl.beatAt ≤ fl.ran ∧
    s.coreSites f.val = [x] ∧
    s.coreOn x = true ∧
    c.active = some (slot, d) ∧
    c.regBit 0x094 1 = false ∧
    fl.drain = none) :=
  ⟨⟨.hostA, x0, 0xF0001000, ready, by decide +kernel⟩,
   ⟨.hostA, x0, 0xF0001000, (atCore ready fun c => {c with shiftLoad := some (3,0x1000)}), by decide +kernel⟩,
   ⟨x0, 3, 0x1000, (atCore (sbytes ready) fun c => {c with shiftLoad := some (3,0x1000)}), by decide +kernel⟩,
   ⟨.hostA, 0, 0x20000701, ready, by decide +kernel⟩,
   ⟨.hostA, 0, 0x60000701, (rot 0x20000701 ready), by decide +kernel⟩,
   ⟨.hostA, 0, 0x20000700, (rot 0x20000701 ready), by decide +kernel⟩,
   ⟨x0, 0, 2, d1, (atField (stepped shs) fun f => {f with sched := .due (some 2)}), by decide +kernel⟩,
   ⟨x0, 0, 3, 2, d1, (atField (stepped (atCore shs fun c => {c with active := some (3,d1), entering := [1,2]})) fun
       f => {f with sched := .switching (some 2)}), by decide +kernel⟩⟩

/-- States that meet the hypotheses of the clauses of BeatsHoldsAndSteering. -/
theorem test_meets_schedule_beat :
  ∃ (f : FieldNo) (x y : Site) (slot : Nat) (d : Shift) (fl : Flit) (s : State),
    let c := s.core x
    let fd := s.field f.val
    s.schedRuns f.val = true ∧
    fd.beatAt ≤ fd.ran ∧
    fd.sched = .beats ∧
    fd.drain = none ∧
    fd.beat + 1 < fd.period ∧
    s.coreSites f.val = [x, y] ∧
    y.x.val = x.x.val + 1 ∧
    y.y = x.y ∧
    s.coreOn x = true ∧
    s.coreOn y = true ∧
    c.active = some (slot, d) ∧
    (s.core y).active = none ∧
    d.entryWord fd.beat = 0x40 ∧
    d.commands = 0 ∧
    (d.unit 0).static = false ∧
    (d.unit 1).static = false ∧
    (c.steerUnit 0).waiting = none ∧
    (c.steerUnit 1).waiting = none ∧
    c.reads = [] ∧
    c.chutesIdle = true ∧
    (c.schedRun.get (fun _ => 0) 2 < 7) ∧
    (c.inputs.get (fun _ => none) 4 = some fl) :=
  ⟨0, x0, y0, 3, d1, ⟨[1,2,3],false,true,5⟩, bx, by decide +kernel⟩

/-- States that meet the hypotheses of the clauses of BeatsHoldsAndSteering. -/
theorem test_meets_holds_and_steering :
  (∃ (x : Site) (s : State),
    let c := s.core x
    s.coreOn x = true ∧
    (s.field x.field).clockGated = false ∧
    c.active = none) ∧
  (∃ (x : Site) (left slot e : Nat) (d : Shift) (s : State),
    let c := s.core x
    s.coreOn x = true ∧
    (s.field x.field).clockGated = false ∧
    c.active = some (slot, d) ∧
    (∀ k < 8, (c.chute (d.cursor k).endpoint).lags = false) ∧
    (∃ k < 8, (d.cursor k).kind = 2 ∧ (c.chute (d.cursor k).endpoint).role = .consumer ∧ (c.chute (d.cursor
        k).endpoint).seen < 4 * (((s.window8 x.field left).map d.slot).filter fun e => d.usesRead e && e.rdCursor
        == k).length)) ∧
  (∃ (x : Site) (f : FieldNo) (s : State),
    let fl := s.field f.val
    let fl' := s.field x.field
    let asks := (s.coreSites f.val).any fun y => s.coreOn y && (s.core y).holdReq.isSome
    fl.clocked = true ∧
    fl.frozen = false ∧
    fl.drain = none ∧
    asks = true ∧
    fl.holdLog.getLast?.map (·.2) = some true ∧
    fl.heldAt fl.clk = true) ∧
  (∃ (x : Site) (f : FieldNo) (g : Nat) (j : Fin 4) (st : Status) (s : State),
    let c := s.core x
    let fl := s.field f.val
    let fl' := s.field x.field
    let asks := (s.coreSites f.val).any fun y => s.coreOn y && (s.core y).holdReq.isSome
    fl.frozen = true ∧
    fl.gateFrozen = false ∧
    fl.longHold = true ∧
    fl.clocked = true ∧
    asks = false ∧
    fl.holdLog.getLast?.map (·.2) ≠ some true ∧
    s.shutAt f.val fl.clk = false ∧
    s.coreSites f.val = [x] ∧
    (s.thread x j.val).wait = .released g st ∧
    (∀ i : Fin 4, i ≠ j → (s.thread x i.val).wait = .none) ∧
    c.chutesIdle = true ∧
    c.missWait = []) ∧
  (∃ (w : Requester) (x : Site) (u : Fin 2) (s : State),
    let c := s.core x
    let su := c.steerUnit u.val
    s.awake w = true ∧
    s.coreClocked x = true ∧
    reaches w x = true ∧
    su.tokens.length < 4) :=
  ⟨⟨x0, ready, by decide +kernel⟩,
   ⟨x0, 4, 3, 4, [(0,1),(32,2),(64,2),(65,4),(768,0x50)], (atField (atCore ready fun
       c => {c.setChute 4 {c.chute 4 with role := .consumer} with active := some (3,[(0,1),(32,2),(64,2),(65,4),(768,0x50)])}) fun
       f => {f with sched := .beats, period := 2, frames := 5, frozen := true}), by decide +kernel⟩,
   ⟨x0, 0, (atField (atCore ready fun c => {c with holdReq := some 1}) fun
       f => {f with holdLog := [(0,true)], clk := 999}), by decide +kernel⟩,
   ⟨x0, 0, 4, 1, .ok, (atField (atCore (threaded fun t => {t with state := .waitTally, wait := .released 4 .ok}) fun
       c => c) fun f => {f with frozen := true, longHold := true, clk := 90, freezeAt := 50}), by decide +kernel⟩,
   ⟨.hostA, x0, 1, ready, by decide +kernel⟩⟩

/-- States that meet the hypotheses of the clauses of BeatsHoldsAndSteering. -/
theorem test_meets_holds_and_steering_2 :
  (∃ (w : Requester) (x : Site) (u : Fin 2) (s : State),
    let c := s.core x
    let su := c.steerUnit u.val
    s.awake w = true ∧
    s.coreClocked x = true ∧
    reaches w x = true ∧
    4 ≤ su.tokens.length) ∧
  (∃ (x : Site) (u : Fin 2) (slot e : Nat) (d : Shift) (s : State),
    let c := s.core x
    let su := c.steerUnit u.val
    let cfg := d.unit u.val
    c.active = some (slot, d) ∧
    s.coreClocked x = true ∧
    su.tokenQ.length = 4 ∧
    cfg.eps[su.tokenQ.headD 0]? = some (some e) ∧
    su.tokenQ.headD 0 ≠ 7 ∧
    let into := fun (k : Nat) => let ch := c.chute k
        ch.late = [] ∧ ch.role = .producer ∧ ch.ready = true ∧ ch.record = false ∧ ch.pushed + 1 ≤ ch.ring +
            ch.released ∧ c.sendUsed + 1 ≤ 128
    cfg.mode = 3 ∧
    su.dataQ.length = 4 ∧
    into e) ∧
  (∃ (x : Site) (u : Fin 2) (slot e : Nat) (d : Shift) (s : State),
    let c := s.core x
    let su := c.steerUnit u.val
    let cfg := d.unit u.val
    c.active = some (slot, d) ∧
    s.coreClocked x = true ∧
    su.tokenQ.length = 4 ∧
    cfg.eps[su.tokenQ.headD 0]? = some (some e) ∧
    su.tokenQ.headD 0 ≠ 7 ∧
    let into := fun (k : Nat) => let ch := c.chute k
        ch.late = [] ∧ ch.role = .producer ∧ ch.ready = true ∧ ch.record = false ∧ ch.pushed + 1 ≤ ch.ring +
            ch.released ∧ c.sendUsed + 1 ≤ 128
    cfg.mode = 4 ∧
    into cfg.outEp ∧
    e ≠ cfg.outEp ∧
    let ch := c.chute e
    ch.role = .consumer ∧
    ch.async = false ∧
    ch.record = false ∧
    1 ≤ ch.seen ∧
    c.plainAt (ch.slot ch.taken) 8 = true) ∧
  (∃ (x : Site) (u : Fin 2) (s : State),
    let c := s.core x
    s.coreOn x = true ∧
    (s.field x.field).frozen = true ∧
    c.waits u.val = true ∧
    s.jobUses x.field = false) :=
  ⟨⟨.hostA, x0, 1, (atCore ready fun c => c.setSteer 1 {Steer.reset with tokens := [1,2,3,4]}), by decide +kernel⟩,
   ⟨x0, 1, 3, 4, d3, (atCore ready fun
       c => {(c.setSteer 1 st4).setChute 4 {Chute.reset with role := .producer, ready := true} with active := some (3,d3)}),
       by decide +kernel⟩,
   ⟨x0, 1, 3, 4, d4, (atCore ready fun
       c => {((c.setSteer 1 st4).setChute 6 {Chute.reset with role := .producer, ready := true}).setChute 4 {Chute.reset with role := .consumer, landed := 3} with active := some (3,d4)}),
       by decide +kernel⟩,
   ⟨x0, 1, (atField (atCore ready fun
       c => {c.setSteer 1 {Steer.reset with waiting := some (Flit.mkVoid,3,0)} with active := some (3,d4)}) fun
       f => {f with frozen := true}), by decide +kernel⟩⟩

/-- States that meet the hypotheses of the clauses of Drains. -/
theorem test_meets_drains :
  (∃ (w : Requester) (x : Site) (f : FieldNo) (v : Word) (s : State),
    let fl := s.field f.val
    s.pageWriter w = true ∧
    s.pithead.boot ≠ .failed ∧
    fl.vcoreOn = true ∧
    bit v.toNat 0 = true ∧
    fl.drain = none ∧
    fl.frozen = false ∧
    s.coreSites f.val = [x] ∧
    (∀ k : Fin 4, (s.thread x k.val).state = .running ∧ (s.thread x k.val).pendingG = [] ∧ (s.thread x k.val).async
        = [] ∧ (s.thread x k.val).late = [])) ∧
  (∃ (f : FieldNo) (d : Drain) (s : State),
    let fl := s.field f.val
    fl.drain = some d ∧
    d.schedStopped = false ∧
    (fl.sched = .idle ∨ (fl.sched = .beats ∧ d.beatsLeft = 0))) ∧
  (∃ (f : FieldNo) (d : Drain) (s : State),
    let fl := s.field f.val
    fl.drain = some d ∧
    d.schedStopped = true ∧
    fl.sched = .idle ∧
    (∀ y ∈ s.coreSites f.val, s.coreOn y = true → (s.core y).drained = true) ∧
    s.jobUses f.val = false) ∧
  (∃ (f : FieldNo) (d : Drain) (s : State),
    let fl := s.field f.val
    fl.drain = some d ∧
    s.pithead.job = none ∧
    d.since + 20 * (s.sreg (pageFieldctl f.val + 0x058)).toNat ≤ fl.clk ∧
    (∀ y ∈ s.coreSites f.val, (s.core y).array.busy = false ∧ (s.core y).spmv = none ∧ ∀ k : Fin 4, (s.thread y
        k.val).async = [])) :=
  ⟨⟨.hostA, x0, 0, 1, (all4 ready fun _ => runTh), by decide +kernel⟩,
   ⟨0, ⟨0,0,false⟩, (atField (all4 ready fun _ => runTh) fun
       f => {f with drain := some ⟨0,0,false⟩, sched := .beats}), by decide +kernel⟩,
   ⟨0, ⟨0,0,true⟩, (atField (all4 ready fun _ => {runTh with state := .stopped}) fun
       f => {f with drain := some ⟨0,0,true⟩, sched := .idle}), by decide +kernel⟩,
   ⟨0, ⟨0,0,true⟩, (atField (all4 ready fun _ => {runTh with state := .waitRemote}) fun
       f => {f with drain := some ⟨0,0,true⟩, sched := .beats, clk := 1310740}), by decide +kernel⟩⟩

end Schedule

namespace Memory

def rb (o : Nat) := pageFieldctl 3 + o
def prp (t : PType) (n : Nat) (pl : List Byte) : Packet
    := {pk0 with ptype := t, arg := n, src := 0xFFF00, data := coreBase x0 + 0x1FFF0, payload := pl}
def scr (n : Nat) (s : State) : State := atCore s fun c => c.setReg 0x0C0 (BitVec.ofNat 32 (2^31 + n * 2^17))
def ringOf (h : Nat) (s : State) : State := (((s.setSreg (pageHoist h + 0x048) 3).setSreg (pageHoist h + 0x040)
    (BitVec.ofNat 32 ((coreBase y0 + 0x8000) % 2^32))).setSreg (pageHoist h + 0x044) (BitVec.ofNat 32 ((coreBase y0 +
    0x8000) / 2^32))).setSreg (pageHoist h + 0x054) 1
def rec0 : Nat := coreBase x0 + 0x1FFE0
def cd : List Nat := dsc 0 4 0 (coreBase x0 + 0x100) (coreBase y0 + 0x200) 48 1 1 0 0 0 0 (rec0 + 9 * 2^48)
def rr : HoistRun := {hrun cd [] with moved := true, recorded := true, status := .part}
def tsp : Packet := {pk0 with ptype := .tallySignal, dst := 0xFFE01, arg := 3, data := 8, tx := ((stackEntries 1).getD 0 ⟨0,0⟩).x.val, ty := ((stackEntries 1).getD 0 ⟨0,0⟩).y.val, port := .side (stackSide 1)}
def ringed (l : List Nat) (s : State) : State := s.onCore y0 fun c => c.setBytes (0x8000 + 64 * 7) l
def rm : HoistRun := {hrun cd [] with moved := true, bytesDone := 48}
def cd2 : List Nat := dsc 0 0 0 (coreBase x0 + 0x100) (coreBase y0 + 0x200) 48 1 1 0 0 0 0 (rec0 + 9 * 2^48)
def rm2 : HoistRun := {hrun cd2 [] with moved := true, bytesDone := 48}
def mv (l ext : List Nat) : State := hst (ringOf 7 (atCore ready fun c => c.setBytes 0x100 ((List.range 200).map fun
    j => (j*7+3)%251))) 7 ⟨1,15,some (hrun l ext),0,0⟩
def fd : List Nat := dsc 1 4 0 (0x12345678) (coreBase y0 + 0x205) 33 1 1 0 0 0 0 rec0
def td : List Nat := dsc 2 4 3 (coreBase x0 + 0x103) (coreBase y0 + 0x205) 5 3 1 7 0 9 0 rec0
def pe : List Nat := [0x20,0,0,0] ++ le 4 0x3F800000 ++ le 4 5 ++ le 4 1 ++ le 8 77 ++ le 8 0 ++ le 4 0 ++ le 4 0 ++
    le 4 32 ++ le 4 64 ++ le 4 0 ++ le 4 0 ++ le 8 0
def pd : List Nat := dsc 3 4 2 (coreBase x0 + 0x104) (coreBase y0 + 0x200) 20 1 1 0 0 0 0 rec0

/-- States that meet the hypotheses of the clauses of RegisterAccess. -/
theorem test_meets_register_access :
  (∃ (w : Requester) (off code inst : Nat) (s : State),
    s.pageWriter w = true ∧
    pageAt off = some (code, inst) ∧
    s.pageAnswers code = true ∧
    s.fieldOff code inst = false ∧
    s.latch = [] ∧
    off % 0x1000 = 0) ∧
  (∃ (w : Requester) (off code inst : Nat) (s : State),
    s.pageWriter w = true ∧
    pageAt off = some (code, inst) ∧
    s.pageAnswers code = true ∧
    s.fieldOff code inst = false ∧
    s.latch = [] ∧
    off % 0x1000 = 0x01C) ∧
  (∃ (w : Requester) (off code inst : Nat) (s : State),
    s.pageWriter w = true ∧
    pageAt off = some (code, inst) ∧
    s.pageAnswers code = true ∧
    s.fieldOff code inst = false ∧
    s.latch = [] ∧
    code ≠ 0x03 ∧
    code ≠ 0x04 ∧
    off % 0x1000 = 0x014) ∧
  (∃ (w : Requester) (off code inst : Nat) (s : State),
    s.pageWriter w = true ∧
    pageAt off = some (code, inst) ∧
    s.pageAnswers code = true ∧
    s.fieldOff code inst = false ∧
    s.latch = [] ∧
    code ≠ 0x03 ∧
    code ≠ 0x04 ∧
    off % 0x1000 = 0x010) ∧
  (∃ (w : Requester) (f : FieldNo) (v : Word) (s : State),
    s.pageWriter w = true ∧
    s.pithead.boot ≠ .failed ∧
    (s.field f.val).vcoreOn = true ∧
    (s.field f.val).coreAcc = none ∧
    bit v.toNat 31 = true) :=
  ⟨⟨.pithead, (rb 0), 0x10, 3, ready, by decide +kernel⟩,
   ⟨.hostB, (rb 0x01C), 0x10, 3, (ready.setSreg (rb 0x1C) 0x12345678), by decide +kernel⟩,
   ⟨(.foreman 9), (rb 0x014), 0x10, 3, (ready.setSreg (rb 0x14) 0x0), by decide +kernel⟩,
   ⟨.pithead, (rb 0x010), 0x10, 3, (ready.setSreg (rb 0x10) 0x7), by decide +kernel⟩,
   ⟨.pithead, 3, 0xC1234567, ready, by decide +kernel⟩⟩

/-- States that meet the hypotheses of the clauses of RegisterAccess. -/
theorem test_meets_register_access_2 :
  (∃ (w : Requester) (f : FieldNo) (x : Site) (s : State) (wr : Bool) (word : Nat),
    (s.field f.val).coreAcc = some ⟨wr, x.x.val, x.y.val, word, w⟩ ∧
    (x.foremanBlock = true ∨ x.field ≠ f.val)) ∧
  (∃ (w : Requester) (f : FieldNo) (x : Site) (s : State) (wr : Bool) (word : Nat),
    let c := s.core x
    (s.field f.val).coreAcc = some ⟨wr, x.x.val, x.y.val, word, w⟩ ∧
    x.foremanBlock = false ∧
    x.field = f.val ∧
    s.siteStatus x = .ok ∧
    c.latch = [] ∧
    wr = false ∧
    word = 5) ∧
  (∃ (x : Site) (p : Packet) (s : State) (so n : Nat),
    let c := s.core x
    Arrives p x s ∧
    Packet.fromCore p = false ∧
    x.foremanBlock = false ∧
    Knows s x p.src ∧
    0 < n ∧
    n ≤ 512 ∧
    p.arg % 2 ^ 32 = n ∧
    p.data % 2 ^ 48 = coreBase x + so ∧
    so + n ≤ 0x20000 ∧
    c.plainAt so n = true ∧
    s.siteStatus x = .ok ∧
    p.ptype = .privRead) ∧
  (∃ (x : Site) (p : Packet) (s : State) (so n : Nat),
    let c := s.core x
    Arrives p x s ∧
    Packet.fromCore p = false ∧
    x.foremanBlock = false ∧
    Knows s x p.src ∧
    0 < n ∧
    n ≤ 512 ∧
    p.arg % 2 ^ 32 = n ∧
    p.data % 2 ^ 48 = coreBase x + so ∧
    so + n ≤ 0x20000 ∧
    c.plainAt so n = true ∧
    s.siteStatus x = .ok ∧
    p.ptype = .privWrite ∧
    p.payload.length = n) :=
  ⟨⟨.pithead, 0, ⟨38,40⟩, (atField ready fun f => {f with coreAcc := some ⟨false,38,40,5, .pithead⟩}), false, 5,
      by decide +kernel⟩,
   ⟨.pithead, 0, x0, (atField ready fun f => {f with coreAcc := some ⟨false,5,7,5, .pithead⟩}), false, 5,
       by decide +kernel⟩,
   ⟨x0, (prp .privRead 16 []), (arrives (prp .privRead 16 []) (know x0 0xFFF00 y0 (regs 5 7))), 0x1FFF0, 16,
       by decide +kernel⟩,
   ⟨x0, (prp .privWrite 16 (List.replicate 16 7)), (arrives (prp .privWrite 16 (List.replicate 16 7)) (know x0 0xFFF00
       y0 (regs 5 7))), 0x1FFF0, 16, by decide +kernel⟩⟩

/-- States that meet the hypotheses of the clauses of SramBanks. -/
theorem test_meets_sram_banks :
  (∃ (w : Requester) (x : Site) (v : Word) (s : State),
    let c := s.core x
    let bad := fun k : Nat => bit v.toNat k = true ∧ (bit v.toNat (16 + k) = true ∨ c.bank k = .waking ∨
        (c.linear (k / 4) = false ∧ ∃ i < 4, bit v.toNat (k / 4 * 4 + i) = false))
    s.awake w = true ∧
    s.coreClocked x = true ∧
    reaches w x = true ∧
    (∀ k < 16, ¬bad k)) ∧
  (∃ (w : Requester) (x : Site) (v : Word) (s : State),
    let c := s.core x
    let bad := fun k : Nat => bit v.toNat k = true ∧ (bit v.toNat (16 + k) = true ∨ c.bank k = .waking ∨
        (c.linear (k / 4) = false ∧ ∃ i < 4, bit v.toNat (k / 4 * 4 + i) = false))
    s.awake w = true ∧
    s.coreClocked x = true ∧
    reaches w x = true ∧
    (∃ k < 16, bad k)) ∧
  (∃ (x : Site) (b : Fin 16) (wake : Bool) (s : State),
    let c := s.core x
    s.coreClocked x = true ∧
    c.bank b.val = .closing wake) ∧
  (∃ (x : Site) (b : Fin 16) (s : State),
    let c := s.core x
    s.coreClocked x = true ∧
    c.bank b.val = .waking) ∧
  (∃ (x : Site) (word : Fin 8192) (s : State),
    let c := s.core x
    let at_ := word.val * 16
    s.coreClocked x = true ∧
    c.regBit 0x0C0 31 = true ∧
    c.regBits 0x0C0 29 17 = word.val ∧
    (c.activeAt at_ = false ∨ c.eccAt at_ = .clean)) ∧
  (∃ (x : Site) (word : Fin 8192) (e : Bool) (s : State),
    let c := s.core x
    let at_ := word.val * 16
    s.coreClocked x = true ∧
    c.regBit 0x0C0 31 = true ∧
    c.regBits 0x0C0 29 17 = word.val ∧
    c.activeAt at_ = true ∧
    c.eccAt at_ = .single e) ∧
  (∃ (x : Site) (word : Fin 8192) (s : State),
    let c := s.core x
    let at_ := word.val * 16
    s.coreClocked x = true ∧
    c.eccAt at_ = .single true) :=
  ⟨⟨.hostA, x0, 0x0010000F, (atCore ready fun c => ((c.setBank 4 .parked).setBank 5 (.closing true)).setBank 6
      .waking), by decide +kernel⟩,
   ⟨.hostA, x0, 0x00100010, ready, by decide +kernel⟩,
   ⟨x0, 5, true, (atCore ready fun c => ((c.setBank 4 .parked).setBank 5 (.closing true)).setBank 6 .waking),
       by decide +kernel⟩,
   ⟨x0, 6, (atCore ready fun c => ((c.setBank 4 .parked).setBank 5 (.closing true)).setBank 6 .waking),
       by decide +kernel⟩,
   ⟨x0, 8191, (scr 8191 ready), by decide +kernel⟩,
   ⟨x0, 8191, false, (atCore (scr 8191 ready) fun c => c.setEcc (8191*16) (.single false)), by decide +kernel⟩,
   ⟨x0, 8191, (atCore (scr 8191 ready) fun c => c.setEcc (8191*16) (.single true)), by decide +kernel⟩⟩

/-- States that meet the hypotheses of the clauses of HoistsAndStacks. -/
theorem test_meets_hoists_and_stacks :
  (∃ (w : Requester) (h : Fin 208) (v : Word) (s : State),
    let z := s.hoist h.val
    let page := pageHoist h.val
    let limit := min 0xFFFF (2 ^ s.sregBits (page + 0x048) 4 0)
    s.pageWriter w = true ∧
    s.pithead.boot ≠ .failed ∧
    z.pending + v.toNat % 2 ^ 16 ≤ limit) ∧
  (∃ (w : Requester) (h : Fin 208) (v : Word) (s : State),
    let z := s.hoist h.val
    let page := pageHoist h.val
    let limit := min 0xFFFF (2 ^ s.sregBits (page + 0x048) 4 0)
    s.pageWriter w = true ∧
    s.pithead.boot ≠ .failed ∧
    limit < z.pending + v.toNat % 2 ^ 16) ∧
  (∃ (w : Requester) (v : Word) (s : State),
    s.pageWriter w = true ∧
    s.pithead.boot ≠ .failed ∧
    bit v.toNat 2 = false) ∧
  (∃ (w : Requester) (h : Fin 208) (v : Word) (s : State),
    let z := s.hoist h.val
    s.pageWriter w = true ∧
    s.pithead.boot ≠ .failed ∧
    bit v.toNat 2 = true ∧
    z.run = none) ∧
  (∃ (w : Requester) (h : Fin 208) (v : Word) (x : Site) (so : Nat) (r : HoistRun) (s : State),
    let z := s.hoist h.val
    s.pageWriter w = true ∧
    s.pithead.boot ≠ .failed ∧
    bit v.toNat 2 = true ∧
    z.run = some r ∧
    r.recorded = true ∧
    r.desc_.signal = true ∧
    h.val < 128 ∧
    r.desc_.record = coreBase x + so ∧
    so < 0x20000 ∧
    x.foremanBlock = false ∧
    (s.hoistEntry h.val x).isSome = true) ∧
  (∃ (w : Requester) (s : State),
    s.pageWriter w = true ∧
    s.pithead.boot ≠ .failed ∧
    (∃ k < 208, (s.hoist k).run.isSome = true)) ∧
  (∃ (h : Fin 208) (p : Packet) (n : Fin 32) (s : State),
    let z := s.hoist h.val
    let page := pageHoist h.val
    let limit := min 0xFFFF (2 ^ s.sregBits (page + 0x048) 4 0)
    p.ptype = .tallySignal ∧
    eidLocal p.dst = 0xFFE00 + n.val ∧
    s.atStack p n.val = true ∧
    p.arg % 64 < 4 ∧
    h.val = 4 * n.val + p.arg % 64 ∧
    z.pending + p.data % 2 ^ 16 ≤ limit) :=
  ⟨⟨.hostA, 7, 8, (hst (ringOf 7 ready) 7 ⟨0,0,none,0,0⟩), by decide +kernel⟩,
   ⟨.hostA, 7, 9, (hst (ringOf 7 ready) 7 ⟨0,0,none,0,0⟩), by decide +kernel⟩,
   ⟨.hostA, 8, (hst (ringOf 7 ready) 7 ⟨0,0,none,0,0⟩), by decide +kernel⟩,
   ⟨.hostA, 7, 0xF, (hst (ringOf 7 ready) 7 ⟨3,0,none,0,0⟩), by decide +kernel⟩,
   ⟨.hostA, 7, 0xF, x0, 0x1FFE0, rr, (hst (ringOf 7 ready) 7 ⟨3,0,some rr,0,0⟩), by decide +kernel⟩,
   ⟨.hostA, (hst (ringOf 7 ready) 7 ⟨3,0,some rr,0,0⟩), by decide +kernel⟩,
   ⟨7, tsp, 1, ({hst (ringOf 7 ready) 7 ⟨0,0,none,0,0⟩ with net := [Flight.landed 9 tsp]}), by decide +kernel⟩⟩

/-- States that meet the hypotheses of the clauses of HoistsAndStacks. -/
theorem test_meets_hoists_and_stacks_2 :
  (∃ (h : Fin 208) (l : List Nat) (s : State),
    let z := s.hoist h.val
    let page := pageHoist h.val
    let ctrl := page + 0x054
    s.hoistOn h.val = true ∧
    s.sregBit ctrl 0 = true ∧
    s.hoistPaused h.val = false ∧
    z.run = none ∧
    0 < z.pending ∧
    s.ringEntry h.val z.head = (l, .ok, s) ∧
    l.headD 0 % 256 < 3 ∧
    (hoistPort h.val).isNone = true ∧
    descCheck false false (Desc.of l) (Ext.of []) = .ok) ∧
  (∃ (h : Fin 208) (x : Site) (so : Nat) (r : HoistRun) (s : State),
    let z := s.hoist h.val
    z.run = some r ∧
    s.hoistOn h.val = true ∧
    r.moved = true ∧
    r.recorded = false ∧
    r.desc_.interrupt = false ∧
    r.desc_.record = coreBase x + so ∧
    so % 32 = 0 ∧
    x.foremanBlock = false ∧
    s.siteStatus x = .ok ∧
    (s.core x).plainAt so 32 = true ∧
    r.desc_.signal = true) ∧
  (∃ (h : Fin 208) (x : Site) (so : Nat) (r : HoistRun) (s : State),
    let z := s.hoist h.val
    z.run = some r ∧
    s.hoistOn h.val = true ∧
    r.moved = true ∧
    r.recorded = false ∧
    r.desc_.interrupt = false ∧
    r.desc_.record = coreBase x + so ∧
    so % 32 = 0 ∧
    x.foremanBlock = false ∧
    s.siteStatus x = .ok ∧
    (s.core x).plainAt so 32 = true ∧
    r.desc_.signal = false ∧
    (r.status ≠ .ok → r.desc_.stop = false)) ∧
  (∃ (h : Fin 208) (x : Site) (so : Nat) (r : HoistRun) (s : State),
    let z := s.hoist h.val
    z.run = some r ∧
    s.hoistOn h.val = true ∧
    r.recorded = true ∧
    h.val < 128 ∧
    r.desc_.record = coreBase x + so ∧
    so < 0x20000 ∧
    x.foremanBlock = false ∧
    (s.hoistEntry h.val x).isSome = true ∧
    (r.status ≠ .ok → r.desc_.stop = false)) ∧
  (∃ (n : Fin 32) (s : State),
    s.stackState n.val = 2 ∧
    s.flash.stopped = false ∧
    s.sregBit (pageStack n.val + 0x050) 31 = true ∧
    let k := s.patrol.get (fun _ => 0) n.val
    s.burst (s.burstAddr n.val k) = .clean) ∧
  (∃ (n : Fin 32) (s : State),
    s.stackState n.val = 2 ∧
    s.pithead.job = none) :=
  ⟨⟨7, cd, (ringed cd (hst (ringOf 7 ready) 7 ⟨1,15,none,0,0⟩)), by decide +kernel⟩,
   ⟨7, x0, 0x1FFE0, rm, (ringed cd (hst (ringOf 7 ready) 7 ⟨1,15,some rm,0,0⟩)), by decide +kernel⟩,
   ⟨7, x0, 0x1FFE0, rm2, (ringed cd (hst (ringOf 7 ready) 7 ⟨1,15,some rm2,0,0⟩)), by decide +kernel⟩,
   ⟨7, x0, 0x1FFE0, rr, (hst (ringOf 7 ready) 7 ⟨3,0,some rr,0,0⟩), by decide +kernel⟩,
   ⟨1, (hst (ringOf 7 ready) 7 ⟨0,0,none,0,0⟩), by decide +kernel⟩,
   ⟨1, (hst (ringOf 7 ready) 7 ⟨0,0,none,0,0⟩), by decide +kernel⟩⟩

/-- States that meet the hypotheses of the clauses of HoistTransfers. -/
theorem test_meets_hoist_transfers :
  (∃ (h : Fin 208) (x y : Site) (so dO n : Nat) (r : HoistRun) (s : State),
    let d := r.desc_
    (s.hoist h.val).run = some r ∧
    r.moved = false ∧
    s.hoistOn h.val = true ∧
    s.hoistPaused h.val = false ∧
    s.rimLost = false ∧
    (hoistPort h.val).isNone = true ∧
    x.key ≠ y.key ∧
    x.foremanBlock = false ∧
    y.foremanBlock = false ∧
    s.siteStatus x = .ok ∧
    s.siteStatus y = .ok ∧
    d.dst = coreBase y + dO ∧
    d.len2 = 1 ∧
    d.op = 0 ∧
    d.src = coreBase x + so ∧
    d.len1 = 1 ∧
    d.len0 = n ∧
    0 < n ∧
    (s.core x).plainAt so n = true ∧
    (s.core y).plainAt dO n = true) ∧
  (∃ (h : Fin 208) (x y : Site) (dO n : Nat) (r : HoistRun) (s : State),
    let d := r.desc_
    (s.hoist h.val).run = some r ∧
    r.moved = false ∧
    s.hoistOn h.val = true ∧
    s.hoistPaused h.val = false ∧
    s.rimLost = false ∧
    (hoistPort h.val).isNone = true ∧
    x.key ≠ y.key ∧
    x.foremanBlock = false ∧
    y.foremanBlock = false ∧
    s.siteStatus x = .ok ∧
    s.siteStatus y = .ok ∧
    d.dst = coreBase y + dO ∧
    d.len2 = 1 ∧
    d.op = 1 ∧
    d.len1 = 1 ∧
    d.len0 = n ∧
    0 < n ∧
    (s.core y).plainAt dO n = true) ∧
  (∃ (h : Fin 208) (x y : Site) (so dO : Nat) (r : HoistRun) (s : State) (ss ds : Nat),
    let d := r.desc_
    (s.hoist h.val).run = some r ∧
    r.moved = false ∧
    s.hoistOn h.val = true ∧
    s.hoistPaused h.val = false ∧
    s.rimLost = false ∧
    (hoistPort h.val).isNone = true ∧
    x.key ≠ y.key ∧
    x.foremanBlock = false ∧
    y.foremanBlock = false ∧
    s.siteStatus x = .ok ∧
    s.siteStatus y = .ok ∧
    d.dst = coreBase y + dO ∧
    d.len2 = 1 ∧
    d.op = 2 ∧
    d.elem = 3 ∧
    d.src = coreBase x + so ∧
    0 < d.len0 ∧
    0 < d.len1 ∧
    d.ss1 = ss ∧
    d.ds1 = ds ∧
    d.len0 ≤ ss ∧
    d.len1 ≤ ds ∧
    (s.core x).plainAt so (d.len1 * ss) = true ∧
    (s.core y).plainAt dO (d.len0 * ds) = true) ∧
  (∃ (h : Fin 208) (x y : Site) (so dO : Nat) (r : HoistRun) (s : State),
    let d := r.desc_
    (s.hoist h.val).run = some r ∧
    r.moved = false ∧
    s.hoistOn h.val = true ∧
    s.hoistPaused h.val = false ∧
    s.rimLost = false ∧
    (hoistPort h.val).isNone = true ∧
    x.key ≠ y.key ∧
    x.foremanBlock = false ∧
    y.foremanBlock = false ∧
    s.siteStatus x = .ok ∧
    s.siteStatus y = .ok ∧
    d.dst = coreBase y + dO ∧
    d.len2 = 1 ∧
    let e := r.ext_
    let k := e.k
    d.op = 3 ∧
    d.elem = 2 ∧
    d.src = coreBase x + so ∧
    d.len1 = 1 ∧
    d.len0 = 4 * k ∧
    0 < k ∧
    k ≤ 16 ∧
    e.format = 0x20 ∧
    e.sparse = 0 ∧
    e.flags = 0 ∧
    e.runs = 1 ∧
    e.header.valid = true ∧
    e.offs.getD 0 0 + 8 ≤ e.offs.getD 1 0 ∧
    (s.core x).plainAt so (4 * k) = true ∧
    (s.core y).plainAt dO (e.offs.getD 1 0 + 1) = true) :=
  ⟨⟨7, x0, y0, 0x100, 0x200, 48, (hrun cd []), (mv cd []), by decide +kernel⟩,
   ⟨7, x0, y0, 0x205, 33, (hrun fd []), (mv fd []), by decide +kernel⟩,
   ⟨7, x0, y0, 0x103, 0x205, (hrun td []), (mv td []), 7, 9, by decide +kernel⟩,
   ⟨7, x0, y0, 0x104, 0x200, (hrun pd pe), (atCore (mv pd pe) fun c => c.setBytes 0x104 ((List.range 20).map fun
       j => [0,0,0x80,0x3f,0,0,0,0x40,0,0,0x40,0xc0,0,0,0x10,0x41,0,0,0,0].getD j 0)), by decide +kernel⟩⟩

end Memory

namespace Mesh

def tp1 : Packet := {pk0 with tx := 9, ty := 2, ptype := .write, payload := [1,2], vc := 1}
def fl (x : Site) (p : Packet) : Flight := Flight.fresh x.key p
def at1 (q : Flight) (s : State) : State := {s with net := [q]}
def full : State := {ready with links := [(x0.key * 4 + 1, {Link.reset with used := [(2, 8),(4, 8),(5,8)]})]}
def inq (p : Packet) (sd : Side) : Flight := {Flight.fresh x0.key p with inp := Side.portNo sd}
def hb (p : Packet) (vc : Nat) : BitVec 288 := 1
def ho : List Hole := [⟨5,6,7,8,false⟩]
def tdb (s : State) : State := ((s.setSreg (pageTallydbg 0 + 0x040) (5 * 2^19 + 7 * 2^10 + 63)).setSreg (pageTallydbg
    0 + 0x050) 0xC1F00000).setSreg (pageTallydbg 0 + 0x04C) 0x12340000
def jb (s : State) : State := withJob s job0 slate0
def stuckS : State := (jb (atCore ready fun c => c.setThread 1 {Thread.reset with state := .waitTally})).setSreg
    (pageCanary 0 + 0x048) 0x80000000
def atSeam (f : Seam → Seam) (s : State) : State := s.setSeam 95 (f (s.seam 95))
def up (l : Seam) : Seam := {l with state := .up, unacked := [fr0], resends := 7, partial_ := [], arrived := [pk0]}
def en (s : State) : State := s.setSreg (seamCtrl 95) 0x2101
def f1 : SeamFlit := ⟨1,some (Packet.headBits pk0),[],true,true⟩
def ep : Packet := {pk0 with dst := 5 * 2^20 + 7}
def e95 : Site := (seamEntries 95).getD 1 ⟨0,0⟩
def ip : Packet := {pk0 with dst := y0.key}
def tfr : SeamFrame := ⟨1, 200, 3, true, false, [1,2,3,255], [⟨2, some (Packet.headBits pk0), [], false, false⟩, ⟨1,
    none, (List.range 32).map (BitVec.ofNat 8), true, true⟩], 0, 0⟩
def fullS : State := {ready with links := [(x0.key * 4 + 1, {Link.reset with used := [(2, 8),(4, 8),(5,8)]}),(x0.key * 4 + 2, {Link.reset with used := [(2, 8),(4, 8),(5,8)]})]}

/-- States that meet the hypotheses of the clauses of Routing. -/
theorem test_meets_routing :
  (∃ (x : Site) (p : Packet) (q : Flight) (s : State),
    s.net = [q] ∧
    q.at_ = x.key ∧
    q.pkt = p ∧
    q.exited = false ∧
    q.trail = [] ∧
    s.forwards x = true ∧
    x.gallery = true ∧
    s.rimLost = true) ∧
  (∃ (x : Site) (p : Packet) (q : Flight) (s : State),
    let open_ := (∀ h, s.ringOf x.x.val x.y.val = some h → h.has p.tx p.ty = false) ∧ p.ring = none
    s.net = [q] ∧
    q.at_ = x.key ∧
    q.pkt = p ∧
    q.exited = false ∧
    q.trail = [] ∧
    s.forwards x = true ∧
    (x.gallery && s.rimLost) = false ∧
    open_ ∧
    p.tx = x.x.val ∧
    p.ty = x.y.val ∧
    (p.port = .local_ → s.siteCode x ≠ 4) ∧
    s.unserved p = none ∧
    (∀ n, p.ptype ≠ .reserved n)) ∧
  (∃ (x y : Site) (p : Packet) (q : Flight) (side : Side) (s : State),
    let towards := (side = .e ∧ x.x.val < p.tx ∧ y.x.val = x.x.val + 1 ∧ y.y = x.y) ∨
        (side = .w ∧ p.tx < x.x.val ∧ y.x.val + 1 = x.x.val ∧ y.y = x.y) ∨
        (side = .n ∧ p.tx = x.x.val ∧ x.y.val < p.ty ∧ y.y.val = x.y.val + 1 ∧ y.x = x.x) ∨
        (side = .s ∧ p.tx = x.x.val ∧ p.ty < x.y.val ∧ y.y.val + 1 = x.y.val ∧ y.x = x.x)
    let open_ := (∀ h, s.ringOf x.x.val x.y.val = some h → h.has p.tx p.ty = false) ∧ p.ring = none
    s.net = [q] ∧
    q.at_ = x.key ∧
    q.pkt = p ∧
    q.exited = false ∧
    q.trail = [] ∧
    s.forwards x = true ∧
    (x.gallery && s.rimLost) = false ∧
    open_ ∧
    towards ∧
    p.vc ≠ 2 ∧
    s.holeAt x.x.val x.y.val (y.x.val, y.y.val) = none ∧
    s.siteCode y ≠ 5 ∧
    s.room x side p.vc false = 0) ∧
  (∃ (x y : Site) (p : Packet) (q : Flight) (side : Side) (s : State),
    let towards := (side = .e ∧ x.x.val < p.tx ∧ y.x.val = x.x.val + 1 ∧ y.y = x.y) ∨
        (side = .w ∧ p.tx < x.x.val ∧ y.x.val + 1 = x.x.val ∧ y.y = x.y) ∨
        (side = .n ∧ p.tx = x.x.val ∧ x.y.val < p.ty ∧ y.y.val = x.y.val + 1 ∧ y.x = x.x) ∨
        (side = .s ∧ p.tx = x.x.val ∧ p.ty < x.y.val ∧ y.y.val + 1 = x.y.val ∧ y.x = x.x)
    let open_ := (∀ h, s.ringOf x.x.val x.y.val = some h → h.has p.tx p.ty = false) ∧ p.ring = none
    s.net = [q] ∧
    q.at_ = x.key ∧
    q.pkt = p ∧
    q.exited = false ∧
    q.trail = [] ∧
    s.forwards x = true ∧
    (x.gallery && s.rimLost) = false ∧
    open_ ∧
    towards ∧
    p.vc ≠ 2 ∧
    s.holeAt x.x.val x.y.val (y.x.val, y.y.val) = none ∧
    s.siteCode y ≠ 5 ∧
    0 < s.room x side p.vc false ∧
    s.slotTakes x (Side.portNo side) = false ∧
    interiorHole x.field ∉ s.holes) ∧
  (∃ (x : Site) (p : Packet) (q : Flight) (s : State),
    s.net = [q] ∧
    q.at_ = x.key ∧
    q.pkt = p ∧
    q.exited = false ∧
    q.trail = [] ∧
    s.forwards x = true ∧
    p.vc = 2 ∧
    s.hop q x = .waits) ∧
  (∃ (x : Site) (side : Side) (errs : BitVec 288) (s : State) (flit : BadFlit),
    s.forwards x = true ∧
    s.flitFails x side flit errs = false) ∧
  (∃ (x : Site) (side : Side) (errs : BitVec 288) (s : State),
    s.forwards x = true ∧
    let fails := fun flit => s.flitFails x side flit errs = true
    fails .idle) :=
  ⟨⟨⟨0,7⟩, {tp1 with vc := 0}, (fl ⟨0,7⟩ {tp1 with vc := 0}), (atPithead (at1 (fl ⟨0,7⟩ {tp1 with vc := 0}) ready) fun
      p => {p with railFault := 2^48}), by decide +kernel⟩,
   ⟨⟨9,2⟩, {tp1 with vc := 0}, (fl ⟨9,2⟩ {tp1 with vc := 0}), (at1 (fl ⟨9,2⟩ {tp1 with vc := 0}) ready),
       by (repeat' apply And.intro) <;> first | decide +kernel | exact fun n h => nomatch h⟩,
   ⟨x0, y0, tp1, (fl x0 tp1), .e, (at1 (fl x0 tp1) full), by decide +kernel⟩,
   ⟨x0, y0, tp1, (fl x0 tp1), .e, (at1 (fl x0 tp1) ready), by decide +kernel⟩,
   ⟨x0, {tp1 with vc := 2}, (fl x0 {tp1 with vc := 2}), (at1 (fl x0 {tp1 with vc := 2}) fullS), by decide +kernel⟩,
   ⟨x0, .e, 0, (at1 (fl x0 tp1) ready), .idle, by decide +kernel⟩,
   ⟨x0, .w, 1, (at1 (inq tp1 .w) ready), by decide +kernel⟩⟩

/-- States that meet the hypotheses of the clauses of Routing. -/
theorem test_meets_routing_2 :
  (∃ (x : Site) (p : Packet) (q : Flight) (k : Nat) (side : Side) (errs : BitVec 288) (s : State),
    s.forwards x = true ∧
    let fails := fun flit => s.flitFails x side flit errs = true
    fails (.payload p k) ∧
    s.net = [q] ∧
    q.at_ = x.key ∧
    q.inp = Side.portNo side ∧
    q.exited = false ∧
    q.pkt = p) ∧
  (∃ (x : Site) (p : Packet) (q : Flight) (side : Side) (errs : BitVec 288) (s : State),
    s.forwards x = true ∧
    let fails := fun flit => s.flitFails x side flit errs = true
    fails (.head p) ∧
    s.net = [q] ∧
    q.at_ = x.key ∧
    q.inp = Side.portNo side ∧
    q.exited = false ∧
    q.pkt = p) ∧
  (∃ (x : Site) (side : Side) (errs : BitVec 288) (s : State),
    s.forwards x = true ∧
    let fails := fun flit => s.flitFails x side flit errs = true
    fails .scheduled ∧
    s.pithead.job = none) ∧
  (∃ (x : Site) (s : State),
    s.net = [] ∧
    s.pithead.job = none ∧
    s.siteCode x < 5 ∧
    x.foremanBlock = false) ∧
  (∃ (x y : Site) (side : Side) (s : State),
    s.net = [] ∧
    s.pithead.job = none ∧
    s.routerOn x = true ∧
    s.siteCode y < 5 ∧
    y.foremanBlock = false ∧
    neighbour x.x.val x.y.val side = some (y.x.val, y.y.val)) ∧
  (∃ (next : List Hole) (s : State),
    s.routePending = some next) ∧
  (∃ (next : List Hole) (s : State),
    s.routePending = some next ∧
    s.net = [] ∧
    s.newlyFenced next = [] ∧
    (∀ h ∈ next, h.cuts = true → h ∈ s.holes)) :=
  ⟨⟨x0, tp1, (inq tp1 .w), 0, .w, 1, (at1 (inq tp1 .w) ready), by decide +kernel⟩,
   ⟨x0, tp1, (inq tp1 .w), .w, 1, (at1 (inq tp1 .w) ready), by decide +kernel⟩,
   ⟨x0, .w, 1, (at1 (inq tp1 .w) ready), by decide +kernel⟩,
   ⟨⟨5,7⟩, ready, by decide +kernel⟩,
   ⟨⟨5,7⟩, ⟨5,8⟩, .n, ready, by decide +kernel⟩,
   ⟨ho, ({ready with routePending := some ho, holes := ho}), by decide +kernel⟩,
   ⟨ho, ({ready with routePending := some ho, holes := ho}), by decide +kernel⟩⟩

/-- States that meet the hypotheses of the clauses of DebuggerAndCanary. -/
theorem test_meets_debugger_and_canary :
  (∃ (w : Requester) (x : Site) (f : FieldNo) (v : Word) (n : Nat) (s : State),
    let page := pageTallydbg f.val
    let named := fun sel : Nat => bit sel 30 = false ∧ bits sel 28 19 = x.x.val ∧ bits sel 18 10 = x.y.val ∧ bits sel
        5 0 = n
    let page? := s.pageWriter w = true ∧ s.pithead.boot ≠ .failed ∧ (s.field f.val).vcoreOn = true
    page? ∧
    x.field = f.val ∧
    s.coreOn x = true ∧
    named v.toNat) ∧
  (∃ (w : Requester) (x : Site) (f : FieldNo) (v : Word) (n : Nat) (s : State),
    let page := pageTallydbg f.val
    let ty := (s.core x).tally n
    let ctrl := s.sreg (page + 0x050)
    let named := fun sel : Nat => bit sel 30 = false ∧ bits sel 28 19 = x.x.val ∧ bits sel 18 10 = x.y.val ∧ bits sel
        5 0 = n
    let page? := s.pageWriter w = true ∧ s.pithead.boot ≠ .failed ∧ (s.field f.val).vcoreOn = true
    page? ∧
    x.field = f.val ∧
    s.coreOn x = true ∧
    bit v.toNat 0 = true ∧
    named (s.sreg (page + 0x040)).toNat ∧
    ty.waiters = [] ∧
    ty.regs = [] ∧
    ty.forwarded = false ∧
    (bit ctrl.toNat 31 = true → ty.value < max ty.target 1)) ∧
  (∃ (w : Requester) (x : Site) (f : FieldNo) (v : Word) (n : Nat) (s : State),
    let page := pageTallydbg f.val
    let ty := (s.core x).tally n
    let named := fun sel : Nat => bit sel 30 = false ∧ bits sel 28 19 = x.x.val ∧ bits sel 18 10 = x.y.val ∧ bits sel
        5 0 = n
    let page? := s.pageWriter w = true ∧ s.pithead.boot ≠ .failed ∧ (s.field f.val).vcoreOn = true
    page? ∧
    x.field = f.val ∧
    s.coreOn x = true ∧
    bit v.toNat 0 = true ∧
    named (s.sreg (page + 0x040)).toNat ∧
    (ty.waiters ≠ [] ∨ ty.regs ≠ [] ∨ ty.forwarded = true)) ∧
  (∃ (f : FieldNo) (k : Nat) (s : State),
    let fl := s.field f.val
    let wait := ceilDiv (s.canaryDue f.val - fl.clk) fl.rate
    fl.frozen = false ∧
    s.sregBits (pageCanary f.val + 0x048) 31 30 = 0 ∧
    s.stillness f.val = k ∧
    k ≠ 0 ∧
    (fl.rate ≠ 0 ∨ s.canaryDue f.val ≤ fl.clk) ∧
    s.moving f.val = false ∧
    s.waitEnds f.val wait = false) ∧
  (∃ (s : State),
    s.pithead.job = none) ∧
  (∃ (j : Job) (s : State),
    let steady := fun g => (s.field g).frozen = false ∧
        let held := s.sregBits (pageCanary g + 0x048) 31 30
        (held = 0 ∨ s.stillness g = held) ∧ (held = 2 → (s.field g).clk < (s.field g).quietFrom + 20)
    s.pithead.job = some j ∧
    j.ended = none ∧
    j.running = true ∧
    (∀ g < 48, bit j.fields g = true → steady g) ∧
    let r := s.canaryReading j
    let stuck := s.pithead.canary = r ∧ (∃ e ∈ r, e.2.2.1 = true) ∧ ∀ e ∈ r, e.2.2.1 = true ∨ e.2.2.2 = true
    (¬stuck)) ∧
  (∃ (j : Job) (s : State),
    let steady := fun g => (s.field g).frozen = false ∧
        let held := s.sregBits (pageCanary g + 0x048) 31 30
        (held = 0 ∨ s.stillness g = held) ∧ (held = 2 → (s.field g).clk < (s.field g).quietFrom + 20)
    s.pithead.job = some j ∧
    j.ended = none ∧
    j.running = true ∧
    (∀ g < 48, bit j.fields g = true → steady g) ∧
    let r := s.canaryReading j
    let stuck := s.pithead.canary = r ∧ (∃ e ∈ r, e.2.2.1 = true) ∧ ∀ e ∈ r, e.2.2.1 = true ∨ e.2.2.2 = true
    stuck) ∧
  (∃ (limit : Nat) (j : Job) (s : State),
    s.pithead.job = some j ∧
    j.ended = none ∧
    j.running = true ∧
    (∃ g < 48, bit j.fields g = true) ∧
    (s.port j.port).cur.map (·.watchdog) = some limit ∧
    0 < limit ∧
    s.time ≤ j.startTime + limit ∧
    readingStuck s.pithead.canary = false) :=
  ⟨⟨.hostA, x0, 0, (5 * 2^19 + 7 * 2^10 + 63), 63, (atCore ready fun c => c.setTally 63
      {Tally.reset with value := 9, target := 7, barrier := true, round := 0x12345, early := 3, parentEid := 77}),
      by decide +kernel⟩,
   ⟨.hostA, x0, 0, 1, 63, (tdb (atCore ready fun c => c.setTally 63
       {Tally.reset with value := 0, target := 0, surplus := true})), by decide +kernel⟩,
   ⟨.hostA, x0, 0, 1, 63, (tdb (atCore ready fun c => c.setTally 63 {Tally.reset with forwarded := true})),
       by decide +kernel⟩,
   ⟨0, 1, (jb (atCore ready fun c => c.setThread 1 Thread.reset)), by decide +kernel⟩,
   ⟨(atCore ready fun c => c.setTally 63
       {Tally.reset with value := 9, target := 7, barrier := true, round := 0x12345, early := 3, parentEid := 77}),
       by decide +kernel⟩,
   ⟨job0, (jb (atCore ready fun c => c.setThread 1 Thread.reset)), by decide +kernel⟩,
   ⟨job0, (atPithead (atField stuckS fun f => {f with stillSince := f.clk}) fun
       p => {p with canary := [(0,0,true,false)]}), by decide +kernel⟩,
   ⟨1000, job0, (jb (atCore ready fun c => c.setThread 1 {Thread.reset with state := .waitTally})),
       by decide +kernel⟩⟩

/-- States that meet the hypotheses of the clauses of SeamStates. -/
theorem test_meets_seam_states :
  (∃ (w : Requester) (n : Fin 96) (v : Word) (k : Nat) (s : State),
    let l := s.seam n.val
    s.awake w = true ∧
    s.pithead.boot ≠ .failed ∧
    w.port? = some k ∧
    s.isKeeper w = true ∧
    bit v.toNat 0 = true ∧
    s.seamEnable n.val = false ∧
    (l.state = .off ∨ l.state = .down)) ∧
  (∃ (w : Requester) (n : Fin 96) (v : Word) (k : Nat) (s : State),
    let l := s.seam n.val
    s.awake w = true ∧
    s.pithead.boot ≠ .failed ∧
    w.port? = some k ∧
    s.isKeeper w = true ∧
    bit v.toNat 0 = false ∧
    (l.state = .training ∨ l.state = .ready)) ∧
  (∃ (w : Requester) (n : Fin 96) (v : Word) (k : Nat) (s : State),
    let l := s.seam n.val
    s.awake w = true ∧
    s.pithead.boot ≠ .failed ∧
    w.port? = some k ∧
    s.isKeeper w = true ∧
    bit v.toNat 0 = false ∧
    l.state = .up ∧
    l.egress = []) ∧
  (∃ (w : Requester) (k : Nat) (s : State),
    s.awake w = true ∧
    s.pithead.boot ≠ .failed ∧
    w.port? = some k ∧
    s.isKeeper w = true) ∧
  (∃ (w : Requester) (k : Nat) (s : State),
    s.awake w = true ∧
    s.pithead.boot ≠ .failed ∧
    s.isKeeper w = false ∧
    w.port? = some k) ∧
  (∃ (n : Fin 96) (s : State),
    let l := s.seam n.val
    let page := pageSeam n.val
    s.pithead.job = none ∧
    l.state = .training ∧
    l.peerSeen = true ∧
    s.sregBits (page + 0x048) 31 20 = s.chip) ∧
  (∃ (n : Fin 96) (s : State),
    let l := s.seam n.val
    s.pithead.job = none ∧
    l.state = .training) :=
  ⟨⟨.hostA, 95, 0x0000ff03, 0, ready, by decide +kernel⟩,
   ⟨.hostA, 95, 0x0000ff02, 0, (en (atSeam (fun l => {up l with state := .training}) ready)), by decide +kernel⟩,
   ⟨.hostA, 95, 0x0000ff02, 0, (en (atSeam up ready)), by decide +kernel⟩,
   ⟨.hostA, 0, ready, by decide +kernel⟩,
   ⟨.hostB, 1, ready, by decide +kernel⟩,
   ⟨95, (en (atSeam (fun l => {up l with state := .training, peerSeen := true}) ready)), by decide +kernel⟩,
   ⟨95, (en (atSeam (fun l => {up l with state := .training}) ready)), by decide +kernel⟩⟩

/-- States that meet the hypotheses of the clauses of SeamStates. -/
theorem test_meets_seam_states_2 :
  (∃ (n : Fin 96) (s : State),
    let l := s.seam n.val
    s.pithead.job = none ∧
    l.state = .up ∧
    l.egress = []) ∧
  (∃ (n : Fin 96) (wire : WireFrame) (s : State),
    let fr := SeamFrame.ofBytes wire.bytes
    let good := framePasses wire.bytes
    let l := s.seam n.val
    s.pithead.job = none ∧
    l.state = .up ∧
    l.egress = [] ∧
    good = true ∧
    fr.kind = 4) ∧
  (∃ (n : Fin 96) (s : State),
    let l := s.seam n.val
    s.pithead.job = none ∧
    l.state = .up ∧
    l.egress = [] ∧
    l.unacked ≠ [] ∧
    7 ≤ l.resends) ∧
  (∃ (n : Fin 96) (s : State),
    let l := s.seam n.val
    let page := pageSeam n.val
    l.state = .training ∧
    l.peerSeen = true ∧
    s.sregBits (page + 0x048) 31 20 ≠ s.chip) ∧
  (∃ (n : Fin 96) (wire : WireFrame) (s : State),
    let fr := SeamFrame.ofBytes wire.bytes
    let good := framePasses wire.bytes
    let l := s.seam n.val
    good = true ∧
    l.state ≠ .off ∧
    l.state ≠ .down ∧
    fr.kind = 3) ∧
  (∃ (n : Fin 96) (wire : WireFrame) (s : State),
    let fr := SeamFrame.ofBytes wire.bytes
    let good := framePasses wire.bytes
    let l := s.seam n.val
    good = true ∧
    l.state ≠ .off ∧
    l.state ≠ .down ∧
    fr.kind = 2 ∧
    l.state = .ready) :=
  ⟨⟨95, (en (atSeam up ready)), by decide +kernel⟩,
   ⟨95, (wire {fr0 with kind := 4}), (en (atSeam up ready)), by decide +kernel⟩,
   ⟨95, (en (atSeam up ready)), by decide +kernel⟩,
   ⟨95, ((en (atSeam (fun l => {up l with state := .training, peerSeen := true}) ready)).setSreg (pageSeam 95 + 0x048)
       (5 * 2^20)), by decide +kernel⟩,
   ⟨95, (wire {fr0 with kind := 3}), ((en (atSeam (fun l => {up l with state := .training, peerSeen := true})
       ready)).setSreg (pageSeam 95 + 0x048) (5 * 2^20)), by decide +kernel⟩,
   ⟨95, (wire {fr0 with kind := 2}), ((en (atSeam (fun l => {up l with state := .ready, idEnabled := true})
       ready)).setSreg (pageSeam 95 + 0x048) (5 * 2^20)), by decide +kernel⟩⟩

/-- States that meet the hypotheses of the clauses of SeamTraffic. -/
theorem test_meets_seam_traffic :
  (∃ (n : Fin 96) (s : State),
    let l := s.seam n.val
    l.state = .training) ∧
  (∃ (n : Fin 96) (s : State),
    let l := s.seam n.val
    l.state = .ready) ∧
  (∃ (n : Fin 96) (s : State),
    let l := s.seam n.val
    s.rimLost = true ∧
    l.state = .up) ∧
  (∃ (n : Fin 96) (p : Packet) (s : State),
    let l := s.seam n.val
    s.rimLost = true ∧
    l.state = .up ∧
    l.nextIn p = true) ∧
  (∃ (n : Fin 96) (r : SeamFrame) (rest : List SeamFrame) (s : State),
    let l := s.seam n.val
    s.rimLost = false ∧
    l.state = .up ∧
    l.resend = r :: rest) ∧
  (∃ (n : Fin 96) (s : State),
    let l := s.seam n.val
    s.rimLost = false ∧
    l.state = .up ∧
    l.resend = [] ∧
    l.egress = []) ∧
  (∃ (n : Fin 96) (p : Packet) (at_ : Nat) (s : State),
    let l := s.seam n.val
    s.rimLost = false ∧
    l.state = .up ∧
    l.resend = [] ∧
    l.unacked.length < 64 ∧
    l.egress = [(at_, p, 0)] ∧
    p.payload = [] ∧
    p.vc < 4 ∧
    0 < l.credit p.vc) ∧
  (∃ (n : Fin 96) (t0 : Nat) (s : State),
    let l := s.seam n.val
    s.rimLost = false ∧
    l.state = .up ∧
    l.unacked ≠ [] ∧
    l.resends < 7 ∧
    l.replayAt = some t0 ∧
    s.time < t0 + 1000000) :=
  ⟨⟨95, (en (atSeam (fun l => {up l with state := .training}) ready)), by decide +kernel⟩,
   ⟨95, (en (atSeam (fun l => {up l with state := .ready}) ready)), by decide +kernel⟩,
   ⟨95, (atPithead ({(en (atSeam (fun l => {up l with state := .up, arrived := [ep]}) ready)) with crt := [(5, 0x82)]}) fun
       p => {p with railFault := 2^48}), by decide +kernel⟩,
   ⟨95, ep, (atPithead
       ({(en (atSeam (fun l => {up l with state := .up, arrived := [ep]}) ready)) with crt := [(5, 0x82)]}) fun
       p => {p with railFault := 2^48}), by decide +kernel⟩,
   ⟨95, fr0, [fr0], (en (atSeam (fun l => {up l with state := .up, resend := [fr0,fr0]}) ready)), by decide +kernel⟩,
   ⟨95, (en (atSeam (fun l => {up l with state := .up, resends := 6, replayAt := some 0}) ready)), by decide +kernel⟩,
   ⟨95, {pk0 with vc := 3}, 4485, (en (atSeam (fun
       l => {up l with state := .up, resends := 6, replayAt := some 0, egress := [(4485,{pk0 with vc := 3},0)]})
       ready)), by decide +kernel⟩,
   ⟨95, 0, (en (atSeam (fun l => {up l with state := .up, resends := 6, replayAt := some 0}) ready)),
       by decide +kernel⟩⟩

/-- States that meet the hypotheses of the clauses of SeamTraffic. -/
theorem test_meets_seam_traffic_2 :
  (∃ (n : Fin 96) (wire : WireFrame) (f : SeamFlit) (h : Nat) (s : State),
    let fr := SeamFrame.ofBytes wire.bytes
    let good := framePasses wire.bytes
    let l := s.seam n.val
    s.rimLost = false ∧
    l.state = .up ∧
    good = true ∧
    fr.kind = 1 ∧
    fr.nak = false ∧
    fr.seq % 256 = (l.rxSeq + 1) % 256 ∧
    fr.flits = [f] ∧
    f.head = some h ∧
    f.tail = true) ∧
  (∃ (n : Fin 96) (wire : WireFrame) (s : State),
    let fr := SeamFrame.ofBytes wire.bytes
    let good := framePasses wire.bytes
    let l := s.seam n.val
    s.rimLost = false ∧
    l.state = .up ∧
    good = true ∧
    fr.kind = 1 ∧
    fr.nak = false ∧
    fr.seq % 256 ≠ (l.rxSeq + 1) % 256) ∧
  (∃ (n : Fin 96) (wire : WireFrame) (s : State),
    let good := framePasses wire.bytes
    let l := s.seam n.val
    s.rimLost = false ∧
    l.state = .up ∧
    good = false) ∧
  (∃ (n : Fin 96) (p : Packet) (x : Site) (s : State),
    s.rimLost = false ∧
    s.net = [Flight.landed x.key p] ∧
    x ∈ seamEntries n.val ∧
    eidChip p.dst ≠ s.chip ∧
    p.vc ≠ 2 ∧
    s.seamCandidate n.val (eidChip p.dst) = true) ∧
  (∃ (n : Fin 96) (p : Packet) (y : Site) (s : State),
    let l := s.seam n.val
    s.rimLost = false ∧
    eidChip p.dst = s.chip ∧
    eidIsCore p.dst = true ∧
    (l.old.get (fun _ => 0) p.vc = 0) ∧
    l.nextIn p = true ∧
    l.cached (eidLocal p.dst) = some y) ∧
  (∃ (n : Fin 96) (p : Packet) (s : State),
    let l := s.seam n.val
    s.rimLost = false ∧
    eidChip p.dst = s.chip ∧
    eidIsCore p.dst = true ∧
    (l.old.get (fun _ => 0) p.vc = 0) ∧
    l.nextIn p = true ∧
    l.cached (eidLocal p.dst) = none) ∧
  (∃ (n : Fin 96) (p : Packet) (y : Site) (s : State),
    let l := s.seam n.val
    s.rimLost = false ∧
    eidChip p.dst = s.chip ∧
    eidIsCore p.dst = true ∧
    (l.old.get (fun _ => 0) p.vc = 0) ∧
    p ∈ l.waiting ∧
    (s.field (seamField n.val)).foremanUp = true ∧
    s.siteOf (eidLocal p.dst) = some y ∧
    l.cache.length < 1024) ∧
  (∃ (n m : Fin 96) (p : Packet) (s : State),
    let l := s.seam n.val
    s.rimLost = false ∧
    eidChip p.dst ≠ s.chip ∧
    p.vc ≠ 2 ∧
    l.nextIn p = true ∧
    s.upGroups (eidChip p.dst) ≠ [] ∧
    s.chipLink (eidChip p.dst) p.src = some m.val) :=
  ⟨⟨95, (wire {fr0 with seq := 0, flits := [f1]}), f1, (Packet.headBits pk0), (en (atSeam up ready)),
      by decide +kernel⟩,
   ⟨95, (wire fr0), (en (atSeam (fun l => {up l with state := .up, resend := [fr0,fr0]}) ready)), by decide +kernel⟩,
   ⟨95, (badWire fr0), (en (atSeam up ready)), by decide +kernel⟩,
   ⟨95, ep, e95, ({(en (atSeam up ready)) with net := [Flight.landed e95.key ep], crt := [(5, 0x81)]}),
       by decide +kernel⟩,
   ⟨95, ip, y0, (en (atSeam (fun l => {up l with arrived := [ip], cache := [(y0.key,y0.key+1)]}) ready)),
       by decide +kernel⟩,
   ⟨95, pk0, (en (atSeam (fun l => {up l with state := .training}) ready)), by decide +kernel⟩,
   ⟨95, ip, y0, (en (atSeam (fun l => {up l with waiting := [ip]}) ready)), by decide +kernel⟩,
   ⟨95, 94, ep, ({(en (atSeam (fun l => {up l with arrived := [ep]}) ready)).setSreg (seamCtrl 94) 0x2203 with crt := [(5, 0x82)]}.setSeam
       94 {Seam.reset with state := .up}), by decide +kernel⟩⟩

/-- States that meet the hypotheses of the clauses of SeamFrameBytes. -/
theorem test_meets_seam_frame_bytes :
  ∃ (fr : SeamFrame),
    fr.kind < 256 ∧
    fr.seq < 256 ∧
    fr.ack < 256 ∧
    fr.credits.length = 4 ∧
    (∀ c ∈ fr.credits, c < 256) ∧
    fr.flits.length ≤ 16 ∧
    (∀ f ∈ fr.flits, f.vc < 4 ∧ (f.head = none → f.data.length = 32) ∧ ∀ w ∈ f.head, w < 2 ^ 256 ∧ f.data = []) ∧
    (if fr.kind = 3 then fr.flits = [] ∧ fr.chip < 2 ^ 12 ∧ fr.link < 256 else fr.chip = 0 ∧ fr.link = 0) :=
  ⟨tfr, by decide +kernel⟩

end Mesh

namespace Hosts

def hpS : State := (ready.setSreg (pageHostport 0 + 0x040) 0x100).setSreg (pageHostport 0 + 0x048) (BitVec.ofNat 32
    (coreBase x0 / 2^30))
def aoff (x : Site) (o : Nat) : Nat := coreBase x % 2^30 + o
def lap (s : State) : State := atPithead s fun p => {p with lapsed := true}
def jr (i : Nat) (v : Word) (s : State) : State := s.setSreg (pageJob 0 + 0x040 + 4 * i) v
def wslate : Slate := {slate0 with state := .waiting}
def lslate : Slate := {slate0 with state := .loading}
def sect : List Nat := [1,0,0,0] ++ le 4 4 ++ le 8 (coreBase x0 + 0x500) ++ le 8 192 ++ [0,0,0,0,0,0,0,0]
def body : List Nat := sect ++ List.replicate 32 0 ++ [1,2,3,4] ++ List.replicate 60 0
def img (dig : List Nat) : List Nat := [0x4E, 0x52, 0x54, 0x4C, 1,0,0,0] ++ le 4 0 ++ le 2 0 ++ le 2 0 ++ le 8 1 ++ le
    8 256 ++ le 4 128 ++ le 4 1 ++ dig ++ List.replicate 56 0 ++ body
def inHbm (s : State) (bs : List Nat) : State := {s with stackPorts := (List.range 32).map fun n => (n, 2)} |> fun
    s => (s.writeSpan 0x400 bs).2
def ls (dig : List Nat) : State := inHbm (withJob ready {job0 with running := false} {lslate with image := 0x400})
    (img dig)
def uu : Status × State := ((ls (shake256 body)).loadEnd {job0 with running := false}
    {lslate with image := 0x400}).getD (.ok, ready)
def jdp (n : Nat) : Packet
    := {pk0 with ptype := .tallySignal, dst := 0xFFFFE, arg := n, data := 0x100000007, src := y0.key, tx := 165, ty := 0, port := .side .s}

/-- States that meet the hypotheses of the clauses of HostPorts. -/
theorem test_meets_host_ports :
  (∃ (p : Port2) (off : Nat) (data : List Byte) (s : State),
    let n := data.length
    s.rimLost = true ∧
    s.apertureOpen p.val off n = true) ∧
  (∃ (p : Port2) (x : Site) (off so : Nat) (data : List Byte) (s : State),
    let c := s.core x
    let n := data.length
    let page := pageHostport p.val
    let cut := s.apertureCut p.val (coreBase x + so)
    let aimed := s.apertureOpen p.val off n = true ∧ s.sregBits (page + 0x048) 17 0 * 2 ^ 30 + off = coreBase x + so ∧
        so + n ≤ 0x20000 ∧ x.foremanBlock = false
    s.rimLost = false ∧
    aimed ∧
    c.plainAt so n = true ∧
    s.siteStatus x = .ok ∧
    cut = false) ∧
  (∃ (p : Port2) (x : Site) (off so : Nat) (data : List Byte) (s : State),
    let n := data.length
    let page := pageHostport p.val
    let cut := s.apertureCut p.val (coreBase x + so)
    let aimed := s.apertureOpen p.val off n = true ∧ s.sregBits (page + 0x048) 17 0 * 2 ^ 30 + off = coreBase x + so ∧
        so + n ≤ 0x20000 ∧ x.foremanBlock = false
    s.rimLost = false ∧
    aimed ∧
    (s.siteStatus x = .targetSealed ∨ cut = true)) ∧
  (∃ (s : State),
    let kp := s.pithead.keeperB.toNat
    let ms := s.sregBits (pageHostport kp + 0x060) 15 0
    s.served = true ∧
    s.pithead.lapsed = false ∧
    ms ≠ 0 ∧
    s.time ≤ s.pithead.heartbeat + ms * 1000000) ∧
  (∃ (p : Port2) (s : State),
    let w := hostOf p.val
    s.pageWriter w = true ∧
    s.pithead.boot ≠ .failed) ∧
  (∃ (p : Port2) (s : State),
    let kp := s.pithead.keeperB.toNat
    let w := hostOf p.val
    s.pageWriter w = true ∧
    s.pithead.boot ≠ .failed ∧
    s.pithead.lapsed = true ∧
    kp ≠ p.val) :=
  ⟨⟨0, (aoff x0 0x1FFF0), (List.replicate 16 7), (atPithead hpS fun p => {p with railFault := 2^49}),
      by decide +kernel⟩,
   ⟨0, x0, (aoff x0 0x1FFF0), 0x1FFF0, (List.replicate 16 7), hpS, by decide +kernel⟩,
   ⟨0, x0, (aoff x0 0x1FFF0), 0x1FFF0, (List.replicate 16 7), ({hpS with harvest := [(x0.key, 0x8000)]}),
       by decide +kernel⟩,
   ⟨hpS, by decide +kernel⟩,
   ⟨0, hpS, by decide +kernel⟩,
   ⟨1, ({lap hpS with time := 77}), by decide +kernel⟩⟩

/-- States that meet the hypotheses of the clauses of HostPorts. -/
theorem test_meets_host_ports_2 :
  (∃ (p : Port2) (s : State),
    let kp := s.pithead.keeperB.toNat
    let w := hostOf p.val
    s.pageWriter w = true ∧
    s.pithead.boot ≠ .failed ∧
    (s.pithead.lapsed = false ∨ kp = p.val)) ∧
  (∃ (p : Port2) (s : State),
    let kp := s.pithead.keeperB.toNat
    let w := hostOf p.val
    s.pageWriter w = true ∧
    s.pithead.boot ≠ .failed ∧
    kp = p.val ∧
    s.sregBit (pageHostport (1 - p.val) + 0x040) 8 = true) ∧
  (∃ (p : Port2) (s : State),
    let kp := s.pithead.keeperB.toNat
    let w := hostOf p.val
    s.pageWriter w = true ∧
    s.pithead.boot ≠ .failed ∧
    (kp ≠ p.val ∨ s.sregBit (pageHostport (1 - p.val) + 0x040) 8 = false)) ∧
  (∃ (p : Port2) (v : Word) (s : State),
    let hp := s.port p.val
    let job := pageJob p.val
    let w := hostOf p.val
    let word := fun i : Nat => (s.sreg (job + 0x040 + 4 * i)).toNat
    let image := word 0 + 2 ^ 32 * word 1
    let cmpl := word 2 + 2 ^ 32 * word 3
    let armable := bit v.toNat 31 = true ∧ image < 2 ^ 48 ∧ word 6 % 256 ≤ 15 ∧ word 6 / 256 % 256 < 2 ∧ word 7 = 0
    let placed := image < 0xC000000000 ∧ image % 64 = 0 ∧ cmpl % 32 = 0
    s.pageWriter w = true ∧
    s.pithead.boot ≠ .failed ∧
    armable ∧
    s.pithead.jobCtr ≤ 0xFFFF ∧
    placed ∧
    (hp.cur = none ∨ hp.next = none)) ∧
  (∃ (p : Port2) (v : Word) (s : State),
    let job := pageJob p.val
    let w := hostOf p.val
    let word := fun i : Nat => (s.sreg (job + 0x040 + 4 * i)).toNat
    let image := word 0 + 2 ^ 32 * word 1
    let cmpl := word 2 + 2 ^ 32 * word 3
    let armable := bit v.toNat 31 = true ∧ image < 2 ^ 48 ∧ word 6 % 256 ≤ 15 ∧ word 6 / 256 % 256 < 2 ∧ word 7 = 0
    let placed := image < 0xC000000000 ∧ image % 64 = 0 ∧ cmpl % 32 = 0
    s.pageWriter w = true ∧
    s.pithead.boot ≠ .failed ∧
    armable ∧
    s.pithead.jobCtr ≤ 0xFFFF ∧
    (¬placed)) ∧
  (∃ (p : Port2) (v : Word) (s : State),
    let hp := s.port p.val
    let job := pageJob p.val
    let w := hostOf p.val
    let word := fun i : Nat => (s.sreg (job + 0x040 + 4 * i)).toNat
    let image := word 0 + 2 ^ 32 * word 1
    let cmpl := word 2 + 2 ^ 32 * word 3
    let armable := bit v.toNat 31 = true ∧ image < 2 ^ 48 ∧ word 6 % 256 ≤ 15 ∧ word 6 / 256 % 256 < 2 ∧ word 7 = 0
    let placed := image < 0xC000000000 ∧ image % 64 = 0 ∧ cmpl % 32 = 0
    s.pageWriter w = true ∧
    s.pithead.boot ≠ .failed ∧
    armable ∧
    s.pithead.jobCtr ≤ 0xFFFF ∧
    placed ∧
    hp.cur ≠ none ∧
    hp.next ≠ none) :=
  ⟨⟨0, hpS, by decide +kernel⟩,
   ⟨0, hpS, by decide +kernel⟩,
   ⟨1, ({lap hpS with time := 77}), by decide +kernel⟩,
   ⟨0, 0x80000000, (jr 6 0x00030105 (jr 0 0x40 ready)), by decide +kernel⟩,
   ⟨0, 0x80000000, (jr 6 0x00030105 (jr 2 0x48 ready)), by decide +kernel⟩,
   ⟨0, 0x80000000, (jr 6 0x00030105 (jr 0 0x40 (ready.setPort 0
       {HostPort.reset with cur := some slate0, next := some {slate0 with seq := 5}}))), by decide +kernel⟩⟩

/-- States that meet the hypotheses of the clauses of HostPorts. -/
theorem test_meets_host_ports_3 :
  (∃ (p : Port2) (sl : Slate) (s : State),
    let hp := s.port p.val
    let w := hostOf p.val
    s.pageWriter w = true ∧
    s.pithead.boot ≠ .failed ∧
    hp.cur = some sl ∧
    sl.state = .waiting) ∧
  (∃ (p : Port2) (sl : Slate) (s : State),
    let hp := s.port p.val
    let w := hostOf p.val
    s.pageWriter w = true ∧
    s.pithead.boot ≠ .failed ∧
    hp.cur = some sl ∧
    sl.state = .loading) ∧
  (∃ (p : Port2) (sl : Slate) (j : Job) (s : State),
    let hp := s.port p.val
    let w := hostOf p.val
    s.pageWriter w = true ∧
    s.pithead.boot ≠ .failed ∧
    hp.cur = some sl ∧
    sl.state = .running ∧
    s.pithead.job = some j ∧
    j.port = p.val ∧
    j.ended = none) ∧
  (∃ (p : Port2) (sl : Slate) (s : State),
    let hp := s.port p.val
    let w := hostOf p.val
    s.pageWriter w = true ∧
    s.pithead.boot ≠ .failed ∧
    hp.next = some sl) ∧
  (∃ (p : Port2) (s : State),
    s.pithead.inReset = false ∧
    (∀ h < 16, (s.hoist (128 + 16 * p.val + h)).run = none)) ∧
  (∃ (p : Port2) (s : State),
    let page := pageHostport p.val
    s.pithead.inReset = false ∧
    s.sregBit (page + 0x040) 8 = false) :=
  ⟨⟨0, wslate, (atPithead (ready.setPort 0
      {HostPort.reset with cur := some wslate, next := some {slate0 with seq := 5}}) fun
      p => {p with runOrder := [(0,4),(1,4),(0,5)]}), by decide +kernel⟩,
   ⟨0, lslate, (withJob ready {job0 with running := false} lslate), by decide +kernel⟩,
   ⟨0, slate0, job0, (jr 6 0x00030105 (jr 0 0x40 (withJob (atPithead ready fun p => {p with jobCtr := 0xffff}) job0
       slate0))), by decide +kernel⟩,
   ⟨0, {wslate with seq := 5}, (atPithead (ready.setPort 0
       {HostPort.reset with cur := some slate0, next := some {wslate with seq := 5}}) fun
       p => {p with runOrder := [(0,4),(1,4),(0,5)]}), by decide +kernel⟩,
   ⟨0, hpS, by decide +kernel⟩,
   ⟨0, ((hpS.setSreg (pageHostport 0 + 0x060) 3).setSreg (pageHostport 0 + 0x040) 0), by decide +kernel⟩⟩

/-- States that meet the hypotheses of the clauses of Jobs. -/
theorem test_meets_jobs :
  (∃ (p : Port2) (sl : Slate) (rest : List (Nat × Nat)) (s : State),
    s.pithead.boot = .ready ∧
    s.flash.stopped = false ∧
    s.pithead.job = none ∧
    s.pithead.runOrder = (p.val, sl.seq) :: rest ∧
    (s.port p.val).cur = some sl ∧
    sl.state = .waiting) ∧
  (∃ (sl : Slate) (j : Job) (e : JobEnd) (s : State),
    s.pithead.job = some j ∧
    j.ended = some e ∧
    j.hoistsEnded = true ∧
    j.thenPark = none ∧
    (∀ f < 48, bit j.fields f = true → (s.field f).drain = none) ∧
    (∀ f < 48, (s.field f).resetDue = false) ∧
    s.faultAddr j = none ∧
    (s.port j.port).cur = some sl) ∧
  (∃ (j : Job) (k : Packet) (s : State),
    s.pithead.job = some j ∧
    j.ended = none ∧
    j.running = true ∧
    s.pithead.inReset = false ∧
    k.ptype = .tallySignal ∧
    k.dst = s.chip * 2 ^ 20 + 0xFFFFE ∧
    s.lands k = true ∧
    k.arg % 64 = 0 ∧
    eidChip k.src = s.chip ∧
    (∃ x, s.siteOf (eidLocal k.src) = some x ∧ bit j.fields x.field = true)) ∧
  (∃ (j : Job) (k : Packet) (s : State),
    s.pithead.job = some j ∧
    j.ended = none ∧
    j.running = true ∧
    s.pithead.inReset = false ∧
    k.ptype = .tallySignal ∧
    k.dst = s.chip * 2 ^ 20 + 0xFFFFE ∧
    s.lands k = true ∧
    k.arg % 64 ≠ 0) :=
  ⟨⟨0, wslate, [(1,7)], (atPithead (ready.setPort 0 {HostPort.reset with cur := some wslate}) fun
      p => {p with runOrder := [(0,4),(1,7)]}), by decide +kernel⟩,
   ⟨slate0, {job0 with ended := some (.done 5), hoistsEnded := true}, (.done 5), ((withJob ready
       {job0 with ended := some (.done 5), hoistsEnded := true} slate0).setSreg (pageHostport 0 + 0x040) 0x100),
       by decide +kernel⟩,
   ⟨job0, (jdp 0), ({withJob ready job0 slate0 with net := [Flight.landed 165 (jdp 0)]}), by decide +kernel⟩,
   ⟨job0, (jdp 1), ({withJob ready job0 slate0 with net := [Flight.landed 165 (jdp 1)]}), by decide +kernel⟩⟩

end Hosts

namespace Power

/-- a field with few enabled sites: everything else in field 0 sealed would be large; use real sites -/
def hbp (d : Nat) : Packet := {pk0 with ptype := .heartbeat, data := d, src := eidForeman 0}
def hba (d : Nat) : Packet := {pk0 with ptype := .heartbeat, data := d, src := x0.key, dst := eidForeman 0}
def fb : Packet := Packet.head .heartbeat (eidPithead) (eidForeman 0) 0 0 0 (5 + 2^61)
def rd0 : Readings := ⟨[⟨1030,0,100,1000⟩],1000⟩
def capS : State := atPithead
    ({base with fields := (base.fields.filter fun k => k.1 = 0) ++ (List.range 47).map fun k => (k+1, {base.field 0 with power := .parked, vcoreOn := false})}) fun
    p => {p with stale := false, applied := ⟨300, 800, 25000, 350⟩}
def capS2 : State := ((((capS.setSreg (pageFieldpwr 0 + 0x044) 15).setSreg (pageModpwr + 0x044) 15).setSreg
    (pageModpwr + 0x040) 25000).setSreg (pageModpwr + 0x048) 0)
def jb (s : State) : State := withJob s job0 slate0

/-- States that meet the hypotheses of the clauses of ForemenAndResets. -/
theorem test_meets_foremen_and_resets :
  (∃ (f : FieldNo) (s : State),
    let fl := s.field f.val
    fl.beats = true ∧
    (∀ kc ∈ s.cores, kc.2.eidLocal = none)) ∧
  (∃ (x : Site) (p : Packet) (s : State),
    let lands := s.lands p = true
    p.tx = x.x.val ∧
    p.ty = x.y.val ∧
    p.ptype = .heartbeat ∧
    p.port = .local_ ∧
    p.poisoned = false ∧
    bit p.data 62 = false ∧
    lands ∧
    s.forwards x = true ∧
    (bit p.data 63 = true ∨ s.coreClocked x = true)) ∧
  (∃ (f : FieldNo) (x : Site) (p : Packet) (at_ : Nat) (s : State),
    let fl := s.field f.val
    let lands := s.lands p = true
    let fromCore := lands ∧ p.dst = s.chip * 2 ^ 20 + 0xFFF00 + f.val ∧ fl.foremanUp = true ∧ p.ptype = .heartbeat ∧
        p.poisoned = false ∧
        s.siteOf (eidLocal p.src) = some x ∧ x.field = f.val
    fromCore ∧
    bit p.data 62 = true ∧
    bit p.data 63 = false ∧
    (x.key, p.data % 2 ^ 32, at_) ∈ fl.unanswered ∧
    s.time ≤ at_ + 10000) ∧
  (∃ (f : FieldNo) (x : Site) (p : Packet) (s : State),
    let fl := s.field f.val
    let lands := s.lands p = true
    let fromCore := lands ∧ p.dst = s.chip * 2 ^ 20 + 0xFFF00 + f.val ∧ fl.foremanUp = true ∧ p.ptype = .heartbeat ∧
        p.poisoned = false ∧
        s.siteOf (eidLocal p.src) = some x ∧ x.field = f.val
    fromCore ∧
    bit p.data 62 = true ∧
    (∀ e ∈ fl.unanswered, e.1 = x.key → e.2.2 + 10000 < s.time) ∧
    (∀ e ∈ fl.echoes, e.1 = x.key → e.2 + 10000 < s.time) ∧
    bit p.data 63 = false) ∧
  (∃ (f : FieldNo) (x : Site) (p : Packet) (s : State),
    let fl := s.field f.val
    let lands := s.lands p = true
    let fromCore := lands ∧ p.dst = s.chip * 2 ^ 20 + 0xFFF00 + f.val ∧ fl.foremanUp = true ∧ p.ptype = .heartbeat ∧
        p.poisoned = false ∧
        s.siteOf (eidLocal p.src) = some x ∧ x.field = f.val
    fromCore ∧
    bit p.data 62 = true ∧
    (∀ e ∈ fl.unanswered, e.1 = x.key → e.2.2 + 10000 < s.time) ∧
    (∀ e ∈ fl.echoes, e.1 = x.key → e.2 + 10000 < s.time) ∧
    bit p.data 63 = true) ∧
  (∃ (f : FieldNo) (x : Site) (p : Packet) (at_ : Nat) (s : State),
    let fl := s.field f.val
    let lands := s.lands p = true
    let fromCore := lands ∧ p.dst = s.chip * 2 ^ 20 + 0xFFF00 + f.val ∧ fl.foremanUp = true ∧ p.ptype = .heartbeat ∧
        p.poisoned = false ∧
        s.siteOf (eidLocal p.src) = some x ∧ x.field = f.val
    fromCore ∧
    bit p.data 62 = true ∧
    bit p.data 63 = true ∧
    (x.key, at_) ∈ fl.echoes ∧
    s.time ≤ at_ + 10000 ∧
    s.siteCode x < 4 ∧
    s.pithead.job = none) ∧
  (∃ (f : FieldNo) (x : Site) (u : Nat × Nat × Nat) (s : State),
    let fl := s.field f.val
    let misses := fl.misses.get (fun _ => 0) x.key + 1
    let limit := max 1 (s.sregBits (pageFieldctl f.val + 0x0A4) 19 16)
    x.field = f.val ∧
    fl.beats = true ∧
    (fl.unanswered.find? (fun e => e.1 == x.key) = some u) ∧
    s.time ≤ u.2.2 + 10000 ∧
    misses < limit) ∧
  (∃ (f : FieldNo) (x : Site) (u : Nat × Nat × Nat) (s : State),
    let fl := s.field f.val
    let misses := fl.misses.get (fun _ => 0) x.key + 1
    let limit := max 1 (s.sregBits (pageFieldctl f.val + 0x0A4) 19 16)
    x.field = f.val ∧
    fl.beats = true ∧
    (fl.unanswered.find? (fun e => e.1 == x.key) = some u) ∧
    s.time ≤ u.2.2 + 10000 ∧
    limit ≤ misses ∧
    (∀ e ∈ fl.echoes, e.1 ≠ x.key)) :=
  ⟨⟨0, (arrives (hbp (2^63+7)) kx), by decide +kernel⟩,
   ⟨x0, (hbp (2^63+7)), (arrives (hbp (2^63+7)) kx), by decide +kernel⟩,
   ⟨0, x0, (hba (2^62+7)), 33, (atField ({ready with net := [Flight.landed 9 (hba (2^62+7))]}) fun
       f => {f with unanswered := [(x0.key,6,1),(x0.key,7,33)], misses := [(x0.key,2)]}), by decide +kernel⟩,
   ⟨0, x0, (hba (2^62+7)),
       ({(atField ({ready with net := [Flight.landed 9 (hba (2^62+7))]}) fun f => {f with unanswered := [(x0.key,7,33)]}) with time := 20000}),
       by decide +kernel⟩,
   ⟨0, x0, (hba (2^62+2^63+7)),
       ({(atField ({ready with net := [Flight.landed 9 (hba (2^62+2^63+7))]}) fun f => {f with echoes := [(x0.key,33)]}) with time := 20000}),
       by decide +kernel⟩,
   ⟨0, x0, (hba (2^62+2^63+7)), 33, (atField ({ready with net := [Flight.landed 9 (hba (2^62+7+2^63))]}) fun
       f => {f with echoes := [(x0.key,33)]}), by decide +kernel⟩,
   ⟨0, x0, (x0.key,6,1), ((atField ready fun
       f => {f with unanswered := [(x0.key,6,1),(x0.key,7,33)], misses := [(x0.key,1)]}).setSreg (pageFieldctl 0 +
       0x0A4) 0x30000), by decide +kernel⟩,
   ⟨0, x0, (x0.key,6,1), ((atField ready fun
       f => {f with unanswered := [(x0.key,6,1),(x0.key,7,33)], misses := [(x0.key,2)]}).setSreg (pageFieldctl 0 +
       0x0A4) 0x30000), by decide +kernel⟩⟩

/-- States that meet the hypotheses of the clauses of ForemenAndResets. -/
theorem test_meets_foremen_and_resets_2 :
  (∃ (f : FieldNo) (x : Site) (at_ : Nat) (s : State),
    let fl := s.field f.val
    x.field = f.val ∧
    fl.beats = true ∧
    ((fl.echoes.find? fun e => e.1 == x.key) = some (x.key, at_)) ∧
    s.siteCode x ≠ 5 ∧
    x.foremanBlock = false ∧
    s.net = [] ∧
    s.pithead.job = none) ∧
  (∃ (f : FieldNo) (s : State),
    let fl := s.field f.val
    fl.beats = true ∧
    s.pitBeatOf f.val = none ∧
    s.time ≤ fl.pitSent + 100000) ∧
  (∃ (f : FieldNo) (beat : Flight) (s : State),
    s.pitBeatOf f.val = some beat ∧
    s.lands beat.pkt = true ∧
    s.pithead.inReset = false) ∧
  (∃ (f : FieldNo) (stopped : Bool) (s : State),
    let fl := s.field f.val
    s.pithead.inReset = false ∧
    fl.bringup = .up ∧
    fl.clocked = true ∧
    fl.resetDue = false ∧
    (stopped = true ∨ s.adits f.val = false) ∧
    s.pithead.job = none) ∧
  (∃ (f : FieldNo) (stopped : Bool) (s : State),
    let fl := s.field f.val
    s.pithead.inReset = false ∧
    fl.bringup = .up ∧
    fl.clocked = true ∧
    fl.resetDue = false ∧
    stopped = false ∧
    s.adits f.val = true) ∧
  (∃ (w : Requester) (f : FieldNo) (x : Site) (v : Word) (s : State),
    let fl := s.field f.val
    let c := s.core x
    s.pageWriter w = true ∧
    s.pithead.boot ≠ .failed ∧
    fl.vcoreOn = true ∧
    s.bringing = false ∧
    x.field = f.val ∧
    x.foremanBlock = false ∧
    bit v.toNat 31 = true ∧
    bits v.toNat 28 19 = x.x.val ∧
    bits v.toNat 18 10 = x.y.val ∧
    fl.bringup ≠ .testing ∧
    s.siteCode x ≠ 4 ∧
    s.siteCode x ≠ 5 ∧
    s.pithead.job = none ∧
    c.spmv = none ∧
    (∀ e < 32, (c.chute e).role = .unbound)) ∧
  (∃ (w : Requester) (f : FieldNo) (x : Site) (v : Word) (s : State),
    let fl := s.field f.val
    s.pageWriter w = true ∧
    s.pithead.boot ≠ .failed ∧
    fl.vcoreOn = true ∧
    s.bringing = false ∧
    x.field = f.val ∧
    x.foremanBlock = false ∧
    bit v.toNat 31 = true ∧
    bits v.toNat 28 19 = x.x.val ∧
    bits v.toNat 18 10 = x.y.val ∧
    fl.bringup ≠ .testing ∧
    s.siteCode x ≠ 4 ∧
    s.siteCode x ≠ 5 ∧
    s.jobUses f.val = true ∧
    s.liveJob.isSome = true) ∧
  (∃ (w : Requester) (v : Word) (s : State),
    s.pageWriter w = true ∧
    s.pithead.boot ≠ .failed ∧
    bit v.toNat 0 = true) :=
  ⟨⟨0, x0, 33, (atField ready fun f => {f with echoes := [(x0.key,33)]}), by decide +kernel⟩,
   ⟨0, (arrives (hbp (2^63+7)) kx), by decide +kernel⟩,
   ⟨0, (Flight.landed 9 fb), ({ready with net := [Flight.landed 9 fb]}), by decide +kernel⟩,
   ⟨0, true, ready, by decide +kernel⟩,
   ⟨0, false, (arrives (hbp (2^63+7)) kx), by decide +kernel⟩,
   ⟨.hostA, 0, x0, (BitVec.ofNat 32 (2^31 + 5 * 2^19 + 7 * 2^10)), (atCore ready fun c => (((c.setReg 0x070 1).setBank
       3 .parked).setByte 5 9).setVreg 3 4), by decide +kernel⟩,
   ⟨.hostA, 0, x0, (BitVec.ofNat 32 (2^31 + 5 * 2^19 + 7 * 2^10)), (withJob (atCore ready fun c => (((c.setReg 0x070
       1).setBank 3 .parked).setByte 5 9).setVreg 3 4) job0 slate0), by decide +kernel⟩,
   ⟨.hostA, 1, (atField ready fun f => {f with errlog := [(2, some ⟨1,.corrected,1,1,1,1,1,1,1⟩)], errNext := 3}),
       by decide +kernel⟩⟩

/-- States that meet the hypotheses of the clauses of PowerAndClocks. -/
theorem test_meets_power_and_clocks :
  (∃ (f : FieldNo) (mv : Nat) (s : State),
    s.pithead.avsQueue = [(f.val, mv)] ∧
    s.instanceFree f.val ≤ s.time) ∧
  (∃ (f : FieldNo) (new since : Nat) (s : State),
    let fl := s.field f.val
    fl.power = .stepping ∧
    fl.stepUp = some (new, some since) ∧
    s.time ≤ since + 1800 ∧
    fl.stretched = true) ∧
  (∃ (f : FieldNo) (new since : Nat) (s : State),
    let fl := s.field f.val
    fl.power = .stepping ∧
    fl.stepUp = some (new, some since) ∧
    s.time ≤ since + 1800 ∧
    fl.stretched = false) ∧
  (∃ (f : FieldNo) (new since : Nat) (s : State),
    let fl := s.field f.val
    fl.power = .stepping ∧
    fl.stepUp = some (new, some since) ∧
    since + 1800 < s.time) ∧
  (∃ (f : FieldNo) (new since : Nat) (s : State),
    let fl := s.field f.val
    fl.power = .stepping ∧
    fl.stepUp = some (new, some since) ∧
    s.time ≤ since + 1800) ∧
  (∃ (f : FieldNo) (mv : Nat) (s : State),
    let fl := s.field f.val
    let page := pageFieldpwr f.val
    let setMv := min (s.setPoint f.val fl.step) fl.setMv
    let threshold := max 20 (s.sregBits (page + 0x054) 7 0)
    fl.clocked = true ∧
    fl.stretched = false ∧
    mv + threshold < setMv) ∧
  (∃ (f : FieldNo) (mv : Nat) (s : State),
    let fl := s.field f.val
    let page := pageFieldpwr f.val
    let setMv := min (s.setPoint f.val fl.step) fl.setMv
    let threshold := max 20 (s.sregBits (page + 0x054) 7 0)
    setMv ≤ mv + threshold) ∧
  (∃ (f : FieldNo) (mv : Nat) (s : State),
    let fl := s.field f.val
    let page := pageFieldpwr f.val
    let setMv := min (s.setPoint f.val fl.step) fl.setMv
    let threshold := max 20 (s.sregBits (page + 0x054) 7 0)
    fl.stretched = true ∧
    mv + threshold < setMv + 10) :=
  ⟨⟨0, 700, (atPithead ready fun p => {p with avsQueue := [(0,700)]}), by decide +kernel⟩,
   ⟨0, 3, 5, (atField ready fun
       f => {f with setMv := 820, clk := 999, stretched := true, stretchAt := 5, stretchFrom := 45, power := .stepping, stepUp := some (3, some 5)}),
       by decide +kernel⟩,
   ⟨0, 3, 100, (atField ready fun f => {f with power := .stepping, stepUp := some (3, some 100)}), by decide +kernel⟩,
   ⟨0, 3, 100, {(atField ready fun f => {f with power := .stepping, stepUp := some (3, some 100)}) with time := 1901},
       by decide +kernel⟩,
   ⟨0, 3, 100, (atField ready fun f => {f with power := .stepping, stepUp := some (3, some 100)}), by decide +kernel⟩,
   ⟨0, 700, (atField ready fun f => {f with setMv := 820}), by decide +kernel⟩,
   ⟨0, 700, (atPithead ready fun p => {p with avsQueue := [(0,700)]}), by decide +kernel⟩,
   ⟨0, 760, (atField ready fun
       f => {f with setMv := 820, clk := 999, stretched := true, stretchAt := 5, stretchFrom := 45}),
       by decide +kernel⟩⟩

/-- States that meet the hypotheses of the clauses of PowerAndClocks. -/
theorem test_meets_power_and_clocks_2 :
  (∃ (f : FieldNo) (mv : Nat) (s : State),
    let fl := s.field f.val
    let page := pageFieldpwr f.val
    let setMv := min (s.setPoint f.val fl.step) fl.setMv
    let threshold := max 20 (s.sregBits (page + 0x054) 7 0)
    fl.stretched = true ∧
    fl.stepDue = none ∧
    setMv + 10 ≤ mv + threshold) ∧
  (∃ (f : FieldNo) (s : State),
    let fl := s.field f.val
    let page := pageFieldpwr f.val
    fl.vcoreOn = true ∧
    fl.power ≠ .parked ∧
    fl.power ≠ .stopped ∧
    s.stopHolds = false ∧
    s.sregBit (page + 0x070) 31 = false ∧
    (∀ y ∈ s.coreSites f.val, (s.core y).array.busy = false) ∧
    fl.envelope = ⟨0, 1⟩) ∧
  (∃ (w : Requester) (k : Nat) (s : State),
    s.awake w = true ∧
    s.pithead.boot ≠ .failed ∧
    s.isKeeper w = true ∧
    w.port? = some k) ∧
  (∃ (s : State),
    s.pithead.stale = false ∧
    s.time ≤ s.pithead.stampTime + 10000000000) ∧
  (∃ (f : FieldNo) (m : Readings) (s : State),
    let fl := s.field f.val
    let page := pageFieldpwr f.val
    s.pithead.inReset = false ∧
    s.flash.stopped = false ∧
    (∀ g < 48, (s.field g).runs = true ↔ g = f.val) ∧
    (∀ g < 48, (Readings.of m g).failed = 0) ∧
    Readings.total m = 2000 ∧
    m.other = 1000 ∧
    (Readings.of m f.val).watts = 1000 ∧
    (Readings.of m f.val).temp = 1030 ∧
    s.pithead.stale = false ∧
    s.pithead.applied = ⟨300, 800, 25000, 350⟩ ∧
    s.sreg (page + 0x044) = 15#32 ∧
    s.sreg (pageModpwr + 0x044) = 15#32 ∧
    s.sreg (pageModpwr + 0x040) = 25000#32 ∧
    s.sregBits (pageModpwr + 0x048) 7 0 = 0 ∧
    fl.step = 15 ∧
    fl.stretched = false ∧
    fl.power = .run) ∧
  (∃ (m : Readings) (s : State),
    s.pithead.inReset = false ∧
    s.flash.stopped = true ∧
    (∀ g < 48, (Readings.of m g).failed = 0)) ∧
  (∃ (w : Requester) (v : Word) (s : State),
    s.pageWriter w = true ∧
    s.pithead.boot ≠ .failed ∧
    bit v.toNat 0 = true) :=
  ⟨⟨0, 700, {(atField ready fun f => {f with stretched := true, stretchAt := 5, ledger := [(0,5)], lastReason := some 3}) with time := 1900},
      by decide +kernel⟩,
   ⟨0, (ready.setSreg (pageFieldpwr 0 + 0x070) 0xA), by decide +kernel⟩,
   ⟨.hostA, 0, (atPithead ready fun p => {p with avsQueue := [(0,700)]}), by decide +kernel⟩,
   ⟨(atPithead {(atField ready fun f => {f with stretched := true, stretchAt := 5, clk := 2000}) with time := 1900} fun
       p => {p with stale := false, stampTime := 44}), by decide +kernel⟩,
   ⟨0, rd0, capS2, by decide +kernel⟩,
   ⟨rd0, ({capS2 with flash := {capS2.flash with stopped := true}}), by decide +kernel⟩,
   ⟨.hostA, 1, {(atField ready fun f => {f with stretched := true, stretchAt := 5, ledger := [(0,5)], lastReason := some 3}) with time := 1900},
       by decide +kernel⟩⟩

/-- States that meet the hypotheses of the clauses of ParkingAndStops. -/
theorem test_meets_parking_and_stops :
  (∃ (w : Requester) (f : FieldNo) (v : Word) (s : State),
    let fl := s.field f.val
    let keeps := s.awake w = true ∧ s.pithead.boot ≠ .failed ∧ s.isKeeper w = true
    keeps ∧
    bits v.toNat 5 0 = f.val ∧
    fl.bringup ≠ .lost ∧
    bit v.toNat 30 = false ∧
    fl.power = .run ∧
    s.galleryHoles f.val = 0 ∧
    s.pithead.job = none) ∧
  (∃ (w : Requester) (f : FieldNo) (v : Word) (j : Job) (s : State),
    let fl := s.field f.val
    let keeps := s.awake w = true ∧ s.pithead.boot ≠ .failed ∧ s.isKeeper w = true
    keeps ∧
    bits v.toNat 5 0 = f.val ∧
    fl.bringup ≠ .lost ∧
    bit v.toNat 30 = false ∧
    fl.power = .run ∧
    s.galleryHoles f.val = 0 ∧
    s.pithead.job = some j ∧
    j.ended = none ∧
    bit j.fields f.val = true ∧
    bit v.toNat 31 = true) ∧
  (∃ (w : Requester) (f : FieldNo) (v : Word) (s : State),
    let fl := s.field f.val
    let keeps := s.awake w = true ∧ s.pithead.boot ≠ .failed ∧ s.isKeeper w = true
    keeps ∧
    bits v.toNat 5 0 = f.val ∧
    fl.bringup ≠ .lost ∧
    bit v.toNat 30 = true ∧
    s.flash.stopped = false ∧
    bit s.pithead.railFault f.val = false ∧
    fl.power = .parked ∧
    s.pithead.job = none) ∧
  (∃ (w : Requester) (f : FieldNo) (v : Word) (s : State),
    let fl := s.field f.val
    let keeps := s.awake w = true ∧ s.pithead.boot ≠ .failed ∧ s.isKeeper w = true
    keeps ∧
    bits v.toNat 5 0 = f.val ∧
    fl.bringup = .lost) ∧
  (∃ (w : Requester) (v : Word) (coolantOk : Bool) (hottest : Int) (s : State),
    let keeps := s.awake w = true ∧ s.pithead.boot ≠ .failed ∧ s.isKeeper w = true
    keeps ∧
    bit v.toNat 30 = true ∧
    bit v.toNat 28 = false ∧
    coolantOk = true ∧
    hottest < 1000) ∧
  (∃ (w : Requester) (v : Word) (coolantOk : Bool) (hottest : Int) (s : State),
    let keeps := s.awake w = true ∧ s.pithead.boot ≠ .failed ∧ s.isKeeper w = true
    keeps ∧
    bit v.toNat 30 = true ∧
    bit v.toNat 28 = false ∧
    (coolantOk = false ∨ 1000 ≤ hottest)) ∧
  (∃ (f : FieldNo) (s : State),
    let fl := s.field f.val
    let hole := interiorHole f.val
    fl.power = .parking ∧
    fl.stepDue = none ∧
    s.net = [] ∧
    hole ∈ s.holes) ∧
  (∃ (f : FieldNo) (k since : Nat) (s : State),
    let fl := s.field f.val
    fl.power = .unparking ∧
    fl.stepUp = some (k, some since) ∧
    s.time ≤ since + 20000) :=
  ⟨⟨.hostA, 0, 0, ready, by decide +kernel⟩,
   ⟨.hostA, 0, 0x80000000, job0, (jb ready), by decide +kernel⟩,
   ⟨.hostA, 0, 0x40000000, (atField base fun f => {Field.reset with bringup := .up}), by decide +kernel⟩,
   ⟨.hostA, 0, 0x40000000, (atField base fun f => {Field.reset with bringup := .lost}), by decide +kernel⟩,
   ⟨.hostA, 0x40000000, true, 0, (atField base fun f => {Field.reset with bringup := .up}), by decide +kernel⟩,
   ⟨.hostA, 0x40000000, false, 0, (atField base fun f => {Field.reset with bringup := .lost}), by decide +kernel⟩,
   ⟨0, ({atField ready fun f => {f with power := .parking} with holes := [interiorHole 0]}), by decide +kernel⟩,
   ⟨0, 0, 100, ({atField ready fun f => {f with power := .unparking, stepUp := some (0, some 100)} with holes := [interiorHole 0]}),
       by decide +kernel⟩⟩

/-- States that meet the hypotheses of the clauses of ParkingAndStops. -/
theorem test_meets_parking_and_stops_2 :
  (∃ (f : FieldNo) (s : State),
    let fl := s.field f.val
    s.pithead.boot = .ready ∧
    s.pithead.job = none ∧
    s.sregBit (pageModpwr + 0x048) 8 = true ∧
    (fl.runs = true ∨ fl.power = .stopped) ∧
    fl.drain = none ∧
    fl.bringup ≠ .lost ∧
    s.galleryHoles f.val = 0) ∧
  (∃ (s : State),
    s.sregBit (pageModpwr + 0x048) 8 = false) ∧
  (∃ (s : State),
    s.pithead.inReset = false ∧
    s.flash.stopped = false ∧
    s.pithead.job = none ∧
    (∀ h < 208, (s.hoist h).run = none)) ∧
  (∃ (since : Nat) (s : State),
    s.pithead.stopSince = some since ∧
    s.time ≤ since + 50000 ∧
    s.net = []) ∧
  (∃ (f : FieldNo) (s : State),
    let fl := s.field f.val
    fl.clocked = true ∧
    s.pithead.job = none) ∧
  (∃ (f : FieldNo) (s : State),
    let fl := s.field f.val
    s.pithead.inReset = false ∧
    fl.runs = false) ∧
  (∃ (f : FieldNo) (s : State),
    let fl := s.field f.val
    s.pithead.inReset = false ∧
    fl.runs = true ∧
    s.pithead.job = none ∧
    s.net = []) :=
  ⟨⟨0, (ready.setSreg (pageModpwr + 0x048) 0x100), by decide +kernel⟩,
   ⟨ready, by decide +kernel⟩,
   ⟨ready, by decide +kernel⟩,
   ⟨100, (atPithead (jb {ready with flash := {Flash.reset with stopped := true, stopCause := 1}}) fun
       p => {p with stopSince := some 100}), by decide +kernel⟩,
   ⟨0, ready, by decide +kernel⟩,
   ⟨0, (atField base fun f => {Field.reset with bringup := .up}), by decide +kernel⟩,
   ⟨0, ready, by decide +kernel⟩⟩

end Power

namespace Envelope


end Envelope

namespace Modules

def ft0 : FieldTest := ⟨true,true,[],[],[]⟩
def c0 : Nat × Nat × Nat := (3,0x8000,5)
def stg (n m : Nat) (s : State) : State := atPithead s fun p => {p with stage := n, mode := m, boot := .bringup}
def tst (m : Nat) : State := atField {base with holes := [interiorHole 0]} fun
    f => {Field.reset with bringup := .testing, testMode := m}
def mb (op arg n : Nat) (s : State) : State := (atPithead s fun
    p => {p with mailbox := [(0,op,arg),(1,1,1)]}).setSregBits (pageSecurity 0 + 0x058) 11 0 n
def rst3 : List (Nat × Nat × Nat) := [(1,1,1)]
def fl (s : State) (f : Flash → Flash) : State := {s with flash := f s.flash}
def sec (op arg n : Nat) : State := mb op arg n ((atPithead (ready.setSreg (pageSecurity 0 + 0x204) 0x12345678) fun
    p => {p with nextLeaf := 5}))
def rel : State := {sec 4 0 8 with stackPorts := (List.range 32).map fun n => (n, 2)}.setSreg (pageSecurity 0 + 0x204)
    0
def acc0 : AditAcc := {request := ⟨5, 0, 3, 0, 77⟩, tries := 2, switched := false, sent := 100, answer := some ⟨15,0,3,0,0x12345678⟩}
def rf0 : AditFrame := ⟨15,0,3,0,0x12345678⟩
def ad (a : List AditAcc) (s : State) : State := atPithead s fun p => {p with adit := a}
def prt (n : Nat) (v : Word) (s : State) : State := s.setSreg (pageFieldpwr n + 0x04C) v
def temps (v : Nat → Word) (s : State) : State := (List.range 48).foldl (fun s n => prt n (v n) s) s
def jn (n : Nat) : State
    := {base with flash := {base.flash with journalDirty := [c0], journal := List.replicate n c0}, harvest := [(5,0x8000)], pithead := {base.pithead with harvestGen := 9}}

/-- States that meet the hypotheses of the clauses of BringUpAndResets. -/
theorem test_meets_bring_up_and_resets :
  (∃ (s : State),
    s.pithead.inReset = true) ∧
  (∃ (s : State),
    s.pithead.inReset = false ∧
    s.pithead.boot ≠ .failed ∧
    s.pithead.stage = 1 ∧
    s.flash.slot0 = none ∧
    s.flash.slot1 = none) ∧
  (∃ (s : State),
    s.pithead.inReset = false ∧
    s.pithead.boot ≠ .failed ∧
    s.pithead.stage = 2 ∧
    s.pithead.mode ≠ 2 ∧
    s.pithead.job = none ∧
    s.flash.stopped = false) ∧
  (∃ (s : State),
    s.pithead.inReset = false ∧
    s.pithead.boot ≠ .failed ∧
    s.pithead.stage = 5 ∧
    (∀ g < 48, (s.field g).bringup ≠ .testing)) ∧
  (∃ (s : State),
    s.pithead.inReset = false ∧
    s.pithead.boot ≠ .failed ∧
    s.pithead.stage = 5 ∧
    (∃ g < 48, (s.field g).bringup = .testing)) ∧
  (∃ (s : State),
    s.pithead.inReset = false ∧
    s.pithead.boot ≠ .failed ∧
    s.pithead.stage = 6 ∧
    s.pithead.mode = 1 ∧
    s.flash.journalDirty ≠ []) ∧
  (∃ (s : State),
    s.pithead.inReset = false ∧
    s.pithead.boot ≠ .failed ∧
    s.pithead.stage = 6 ∧
    s.pithead.mode = 1 ∧
    s.flash.journalDirty = [] ∧
    s.pithead.boot ≠ .halted) ∧
  (∃ (f : FieldNo) (ft : FieldTest) (s : State),
    let fl := s.field f.val
    s.pithead.inReset = false ∧
    s.flash.stopped = false ∧
    fl.bringup = .testing ∧
    s.instanceFree f.val ≤ s.time ∧
    s.adits f.val = true ∧
    ft.powerOk = true ∧
    ft.foremanOk = true ∧
    fl.testMode = 0) :=
  ⟨⟨State.reset, by decide +kernel⟩,
   ⟨(stg 1 0 base), by decide +kernel⟩,
   ⟨(atField (stg 2 0 base) fun f => Field.reset), by decide +kernel⟩,
   ⟨(stg 5 0 base), by decide +kernel⟩,
   ⟨(stg 5 0 (tst 0)), by decide +kernel⟩,
   ⟨({stg 6 1 base with flash := {base.flash with journalDirty := [c0]}}), by decide +kernel⟩,
   ⟨(stg 6 1 base), by decide +kernel⟩,
   ⟨0, ft0, (stg 5 0 (tst 0)), by decide +kernel⟩⟩

/-- States that meet the hypotheses of the clauses of BringUpAndResets. -/
theorem test_meets_bring_up_and_resets_2 :
  (∃ (f : FieldNo) (x : Site) (ft : FieldTest) (flt : SiteFault) (s : State),
    let fl := s.field f.val
    s.pithead.inReset = false ∧
    s.flash.stopped = false ∧
    fl.bringup = .testing ∧
    s.instanceFree f.val ≤ s.time ∧
    s.adits f.val = true ∧
    ft.powerOk = true ∧
    ft.foremanOk = true ∧
    fl.testMode = 1 ∧
    ft.sites = [(x, flt)] ∧
    ft.stitch = [] ∧
    ft.entries = [] ∧
    x.field = f.val ∧
    x.foremanBlock = false ∧
    s.siteCode x < bits (SiteFault.entry flt).toNat 15 13) ∧
  (∃ (f : FieldNo) (ft : FieldTest) (s : State),
    let fl := s.field f.val
    s.pithead.inReset = false ∧
    s.flash.stopped = false ∧
    fl.bringup = .testing ∧
    s.instanceFree f.val ≤ s.time ∧
    (ft.powerOk = false ∨ ft.foremanOk = false ∨ s.adits f.val = false) ∧
    s.net = []) ∧
  (∃ (w : Requester) (f : FieldNo) (v : Word) (s : State),
    let ready := s.awake w = true ∧ s.isKeeper w = true ∧ s.pithead.boot = .ready ∧ s.bringing = false ∧ s.pithead.job
        = none
    ready ∧
    bit v.toNat 31 = false ∧
    bit v.toNat 30 = true ∧
    bits v.toNat 5 0 = f.val ∧
    s.net = []) ∧
  (∃ (w : Requester) (v : Word) (s : State),
    let ready := s.awake w = true ∧ s.isKeeper w = true ∧ s.pithead.boot = .ready ∧ s.bringing = false ∧ s.pithead.job
        = none
    ready ∧
    (∀ h < 208, (s.hoist h).run = none) ∧
    (∀ k < 2, (s.port k).cur = none ∧ (s.port k).next = none) ∧
    s.flash.stopped = false ∧
    bit v.toNat 31 = true) ∧
  (∃ (change : Nat × Nat × Nat) (rest : List (Nat × Nat × Nat)) (s : State),
    s.flash.journalDirty = change :: rest ∧
    s.flash.journal.length < 1023) ∧
  (∃ (change : Nat × Nat × Nat) (rest : List (Nat × Nat × Nat)) (mapOk : Bool) (s : State),
    s.flash.journalDirty = change :: rest ∧
    s.flash.journal.length = 1023 ∧
    mapOk = true) ∧
  (∃ (change : Nat × Nat × Nat) (rest : List (Nat × Nat × Nat)) (s : State),
    s.flash.journalDirty = change :: rest ∧
    s.pithead.job = none) :=
  ⟨⟨0, x0, {ft0 with sites := [(x0,.columns [5])]}, (.columns [5]), (tst 1), by decide +kernel⟩,
   ⟨0, {ft0 with powerOk := false}, (tst 1), by decide +kernel⟩,
   ⟨.hostA, 0, 0x40000000, base, by decide +kernel⟩,
   ⟨.hostA, 0x80000000, {kx with hbm := [(5,6)]}, by decide +kernel⟩,
   ⟨c0, [(1,2,3)], {kx with flash := {kx.flash with journalDirty := [c0,(1,2,3)]}}, by decide +kernel⟩,
   ⟨c0, [], true, (jn 1023), by decide +kernel⟩,
   ⟨c0, [(1,2,3)], {kx with flash := {kx.flash with journalDirty := [c0,(1,2,3)]}}, by decide +kernel⟩⟩

/-- States that meet the hypotheses of the clauses of SecurityCommands. -/
theorem test_meets_security_commands :
  (∃ (p : Port2) (arg : Nat) (rest : List (Nat × Nat × Nat)) (s : State),
    let page := pageSecurity p.val
    let n := s.sregBits (page + 0x058) 11 0
    let q := s.pithead
    let front := fun op => q.mailbox = (p.val, op, arg) :: rest
    let spends := q.nextLeaf < lowLeaf ∧ q.nextLeaf ≠ s.flash.reserveEnd
    front 0x01 ∧
    n = 32 ∧
    spends) ∧
  (∃ (p : Port2) (arg : Nat) (rest : List (Nat × Nat × Nat)) (s : State),
    let page := pageSecurity p.val
    let n := s.sregBits (page + 0x058) 11 0
    let q := s.pithead
    let front := fun op => q.mailbox = (p.val, op, arg) :: rest
    front 0x01 ∧
    n = 32 ∧
    reserveLeaf ≤ q.nextLeaf) ∧
  (∃ (p : Port2) (arg : Nat) (rest : List (Nat × Nat × Nat)) (c : List Byte) (s : State),
    let page := pageSecurity p.val
    let n := s.sregBits (page + 0x058) 11 0
    let q := s.pithead
    let front := fun op => q.mailbox = (p.val, op, arg) :: rest
    front 0x02 ∧
    n = 0 ∧
    s.flash.certs[arg]? = some c ∧
    c.length ≤ 3584) ∧
  (∃ (p : Port2) (arg : Nat) (rest : List (Nat × Nat × Nat)) (s : State),
    let page := pageSecurity p.val
    let n := s.sregBits (page + 0x058) 11 0
    let q := s.pithead
    let front := fun op => q.mailbox = (p.val, op, arg) :: rest
    front 0x02 ∧
    n = 0 ∧
    s.flash.certs[arg]? = none) ∧
  (∃ (p : Port2) (arg : Nat) (rest : List (Nat × Nat × Nat)) (s : State),
    let page := pageSecurity p.val
    let n := s.sregBits (page + 0x058) 11 0
    let q := s.pithead
    let front := fun op => q.mailbox = (p.val, op, arg) :: rest
    front 0x03 ∧
    n = 32 ∧
    5 ≤ arg ∧
    arg ≤ 7) ∧
  (∃ (p : Port2) (arg : Nat) (rest : List (Nat × Nat × Nat)) (s : State),
    let page := pageSecurity p.val
    let n := s.sregBits (page + 0x058) 11 0
    let q := s.pithead
    let front := fun op => q.mailbox = (p.val, op, arg) :: rest
    front 0x03 ∧
    n = 32 ∧
    (arg < 5 ∨ 7 < arg)) ∧
  (∃ (p : Port2) (arg : Nat) (rest : List (Nat × Nat × Nat)) (s : State),
    let page := pageSecurity p.val
    let n := s.sregBits (page + 0x058) 11 0
    let q := s.pithead
    let front := fun op => q.mailbox = (p.val, op, arg) :: rest
    front 0x05 ∧
    n = 0) ∧
  (∃ (p : Port2) (arg : Nat) (rest : List (Nat × Nat × Nat)) (s : State),
    let page := pageSecurity p.val
    let n := s.sregBits (page + 0x058) 11 0
    let q := s.pithead
    let front := fun op => q.mailbox = (p.val, op, arg) :: rest
    front 0x06 ∧
    n = 32 ∧
    q.lock = false) :=
  ⟨⟨0, 0, rst3, (sec 1 0 32), by decide +kernel⟩,
   ⟨0, 0, rst3, (atPithead (sec 1 0 32) fun p => {p with nextLeaf := reserveLeaf}), by decide +kernel⟩,
   ⟨0, 1, rst3, [5,6,7], (fl (sec 2 1 0) fun f => {f with certs := [[1],[5,6,7]]}), by decide +kernel⟩,
   ⟨0, 2, rst3, (fl (sec 2 2 0) fun f => {f with certs := [[1],[5,6,7]]}), by decide +kernel⟩,
   ⟨0, 7, rst3, (sec 3 7 32), by decide +kernel⟩,
   ⟨0, 8, rst3, (sec 3 8 32), by decide +kernel⟩,
   ⟨0, 0, rst3, (atPithead (sec 5 0 0) fun p => {p with svn := 9}), by decide +kernel⟩,
   ⟨0, 0, rst3, (sec 6 0 32), by decide +kernel⟩⟩

/-- States that meet the hypotheses of the clauses of SecurityCommands. -/
theorem test_meets_security_commands_2 :
  (∃ (p : Port2) (arg : Nat) (rest : List (Nat × Nat × Nat)) (s : State),
    let page := pageSecurity p.val
    let n := s.sregBits (page + 0x058) 11 0
    let q := s.pithead
    let front := fun op => q.mailbox = (p.val, op, arg) :: rest
    front 0x06 ∧
    n = 32 ∧
    q.lock = true) ∧
  (∃ (p : Port2) (arg : Nat) (rest : List (Nat × Nat × Nat)) (s : State),
    let page := pageSecurity p.val
    let n := s.sregBits (page + 0x058) 11 0
    let q := s.pithead
    let front := fun op => q.mailbox = (p.val, op, arg) :: rest
    let spends := q.nextLeaf < lowLeaf ∧ q.nextLeaf ≠ s.flash.reserveEnd
    front 0x07 ∧
    n = 0 ∧
    spends ∧
    s.flash.keySerial < 15 ∧
    s.flash.keySerial < s.flash.certs.length) ∧
  (∃ (p : Port2) (arg : Nat) (rest : List (Nat × Nat × Nat)) (s : State),
    let page := pageSecurity p.val
    let n := s.sregBits (page + 0x058) 11 0
    let q := s.pithead
    let front := fun op => q.mailbox = (p.val, op, arg) :: rest
    front 0x08 ∧
    n = 0) ∧
  (∃ (p : Port2) (arg : Nat) (rest : List (Nat × Nat × Nat)) (s : State),
    let page := pageSecurity p.val
    let n := s.sregBits (page + 0x058) 11 0
    let q := s.pithead
    let front := fun op => q.mailbox = (p.val, op, arg) :: rest
    front 0x09 ∧
    n ≤ 3584 ∧
    bit arg 7 = false ∧
    bits arg 6 0 = 0) ∧
  (∃ (p : Port2) (arg : Nat) (rest : List (Nat × Nat × Nat)) (s : State),
    let page := pageSecurity p.val
    let n := s.sregBits (page + 0x058) 11 0
    let q := s.pithead
    let front := fun op => q.mailbox = (p.val, op, arg) :: rest
    front 0x09 ∧
    n ≤ 3584 ∧
    bit arg 7 = true ∧
    bits arg 6 0 = 0) ∧
  (∃ (p : Port2) (arg : Nat) (rest : List (Nat × Nat × Nat)) (s : State),
    let page := pageSecurity p.val
    let n := s.sregBits (page + 0x058) 11 0
    let q := s.pithead
    let front := fun op => q.mailbox = (p.val, op, arg) :: rest
    front 0x0A ∧
    n = 0) ∧
  (∃ (w : Requester) (v : Word) (s : State),
    let q := s.pithead
    s.awake w = true ∧
    s.isKeeper w = true ∧
    bit v.toNat 0 = true ∧
    q.lock = false) :=
  ⟨⟨0, 0, rst3, (atPithead (sec 6 0 32) fun p => {p with lock := true}), by decide +kernel⟩,
   ⟨0, 0, rst3, (fl (sec 7 0 0) fun f => {f with certs := [[1],[2],[3]]}), by decide +kernel⟩,
   ⟨0, 0, rst3, (sec 8 0 0), by decide +kernel⟩,
   ⟨0, 0, rst3, (sec 9 0 3584), by decide +kernel⟩,
   ⟨0, 128, rst3, (sec 9 128 20), by decide +kernel⟩,
   ⟨0, 0, rst3, (atPithead (sec 10 0 0) fun p => {p with debugUnlocked := true}), by decide +kernel⟩,
   ⟨.hostA, 1, (sec 9 0 3584), by decide +kernel⟩⟩

/-- States that meet the hypotheses of the clauses of AditAccesses. -/
theorem test_meets_adit_accesses :
  (∃ (r : AditFrame),
    r.op < 16 ∧
    r.node < 64 ∧
    r.seq < 16 ∧
    r.addr < 2 ^ 16 ∧
    r.data < 2 ^ 32) ∧
  (∃ (f : FieldNo) (errs : BitVec 72) (s : State),
    let seq := s.pithead.aditSeq
    s.pithead.inReset = false ∧
    AditFrame.hear ⟨0x5, f.val, seq, 0, 0⟩ errs = none) ∧
  (∃ (f : FieldNo) (errs : BitVec 72) (s : State),
    let seq := s.pithead.aditSeq
    s.pithead.inReset = false ∧
    s.adits f.val = true ∧
    seq < 16 ∧
    errs = 0) ∧
  (∃ (f : FieldNo) (addr : Nat) (errs : BitVec 72) (s : State),
    let fl := s.field f.val
    let seq := s.pithead.aditSeq
    s.pithead.inReset = false ∧
    s.adits f.val = true ∧
    seq < 16 ∧
    errs = 0 ∧
    fl.vcoreOn = true ∧
    s.pithead.boot ≠ .failed ∧
    s.latch = [] ∧
    addr % 0x10000 = 0) ∧
  (∃ (f : FieldNo) (addr : Nat) (errs : BitVec 72) (s : State),
    let fl := s.field f.val
    let seq := s.pithead.aditSeq
    s.pithead.inReset = false ∧
    s.adits f.val = true ∧
    seq < 16 ∧
    errs = 0 ∧
    fl.vcoreOn = true ∧
    s.pithead.boot ≠ .failed ∧
    s.latch = [] ∧
    addr % 0x10000 = 0x014) ∧
  (∃ (f : FieldNo) (errs : BitVec 72) (s : State),
    let fl := s.field f.val
    let seq := s.pithead.aditSeq
    s.pithead.inReset = false ∧
    s.adits f.val = true ∧
    seq < 16 ∧
    errs = 0 ∧
    fl.vcoreOn = false) :=
  ⟨⟨rf0, by decide +kernel⟩,
   ⟨0, 1, (ad [acc0] ready), by decide +kernel⟩,
   ⟨0, 0, (ad [acc0] ready), by decide +kernel⟩,
   ⟨0, 0x10000, 0, (ad [acc0] ready), by decide +kernel⟩,
   ⟨0, 0x10014, 0, (ad [acc0] (atField ready fun
       f => {f with nodeSet := true, nodeHi := 0, delay := 3, skew := 0x1230})), by decide +kernel⟩,
   ⟨0, 0, (ad [{acc0 with tries := 3}] (atField ready fun
       f => {f with vcoreOn := false, nodeSet := true, nodeHi := 0, delay := 3, skew := 0x1230})), by decide +kernel⟩⟩

/-- States that meet the hypotheses of the clauses of AditAccesses. -/
theorem test_meets_adit_accesses_2 :
  (∃ (f : FieldNo) (data : Word) (errs : BitVec 72) (s : State),
    let fl := s.field f.val
    let seq := s.pithead.aditSeq
    s.pithead.inReset = false ∧
    s.adits f.val = true ∧
    seq < 16 ∧
    errs = 0 ∧
    fl.vcoreOn = false ∧
    bit data.toNat 0 = true ∧
    s.instanceFree f.val ≤ s.time) ∧
  (∃ (f : FieldNo) (data : Word) (errs : BitVec 72) (s : State),
    let fl := s.field f.val
    let seq := s.pithead.aditSeq
    s.pithead.inReset = false ∧
    s.adits f.val = true ∧
    seq < 16 ∧
    errs = 0 ∧
    fl.vcoreOn = true ∧
    bit data.toNat 0 = false) ∧
  (∃ (f : FieldNo) (errs : BitVec 72) (s : State),
    let seq := s.pithead.aditSeq
    s.pithead.inReset = false ∧
    s.adits f.val = true ∧
    seq < 16 ∧
    errs = 0 ∧
    s.bringing = true) ∧
  (∃ (f : FieldNo) (errs : BitVec 72) (s : State),
    let seq := s.pithead.aditSeq
    s.pithead.inReset = false ∧
    s.adits f.val = true ∧
    seq < 16 ∧
    errs = 0 ∧
    s.bringing = false ∧
    s.net = []) ∧
  (∃ (f : FieldNo) (errs : BitVec 72) (s : State),
    let fl := s.field f.val
    let seq := s.pithead.aditSeq
    s.pithead.inReset = false ∧
    s.adits f.val = true ∧
    seq < 16 ∧
    errs = 0 ∧
    fl.nodeSet = false ∧
    0 ≤ (s.time : Int) + fl.skew) ∧
  (∃ (f : FieldNo) (data : Word) (errs : BitVec 72) (s : State),
    let fl := s.field f.val
    let seq := s.pithead.aditSeq
    let ahead : Int := (s.now f.val : Int) - (((fl.nodeHi * 2 ^ 32 + data.toNat + fl.delay) % 2 ^ 64 : Nat) : Int)
    s.pithead.inReset = false ∧
    s.adits f.val = true ∧
    seq < 16 ∧
    errs = 0 ∧
    fl.nodeSet = true ∧
    ahead.natAbs < 64) :=
  ⟨⟨0, 0x1237, 0, (ad [{acc0 with tries := 3}] (atField ready fun
      f => {f with vcoreOn := false, nodeSet := true, nodeHi := 0, delay := 3, skew := 0x1230})), by decide +kernel⟩,
   ⟨0, 0x1230, 0, (ad [acc0] (atField ready fun
       f => {f with nodeSet := true, nodeHi := 0, delay := 3, skew := 0x1230})), by decide +kernel⟩,
   ⟨0, 0, (atPithead ready fun p => {p with stage := 3}), by decide +kernel⟩,
   ⟨0, 0, (ad [acc0] ready), by decide +kernel⟩,
   ⟨0, 0, (ad [acc0] ready), by decide +kernel⟩,
   ⟨0, 0x1230, 0, (ad [acc0] (atField ready fun
       f => {f with nodeSet := true, nodeHi := 0, delay := 3, skew := 0x1230})), by decide +kernel⟩⟩

/-- States that meet the hypotheses of the clauses of AditAccesses. -/
theorem test_meets_adit_accesses_3 :
  (∃ (f : FieldNo) (n : Nat) (a : AditAcc) (r : AditFrame) (rest : List AditAcc) (st : Status) (s : State),
    s.pithead.adit = a :: rest ∧
    a.request.node = f.val ∧
    a.answer = some r ∧
    a ∉ rest ∧
    r = AditFrame.response a.request st n ∧
    n < 2 ^ 32 ∧
    a.request.seq < 16) ∧
  (∃ (f : FieldNo) (errs : BitVec 72) (a : AditAcc) (r : AditFrame) (rest : List AditAcc) (s : State),
    s.pithead.adit = a :: rest ∧
    a.request.node = f.val ∧
    a.answer = some r ∧
    a ∉ rest ∧
    AditFrame.hear r errs = none) ∧
  (∃ (f : FieldNo) (a : AditAcc) (rest : List AditAcc) (s : State),
    let seq := s.pithead.aditSeq
    s.pithead.adit = a :: rest ∧
    a.request.node = f.val ∧
    rest = [] ∧
    a.request.op = 0x5 ∧
    a.request.data < 2 ^ 32 ∧
    seq < 16 ∧
    s.time ≤ a.sent + 3000 ∧
    s.adits f.val = true ∧
    a.tries < 3) ∧
  (∃ (f : FieldNo) (a : AditAcc) (rest : List AditAcc) (s : State),
    let fl := s.field f.val
    let seq := s.pithead.aditSeq
    s.pithead.adit = a :: rest ∧
    a.request.node = f.val ∧
    rest = [] ∧
    a.request.op = 0x5 ∧
    a.request.data < 2 ^ 32 ∧
    seq < 16 ∧
    s.time ≤ a.sent + 3000 ∧
    fl.unreachable = false ∧
    3 ≤ a.tries ∧
    a.switched = false) ∧
  (∃ (f : FieldNo) (a : AditAcc) (rest : List AditAcc) (s : State),
    let fl := s.field f.val
    let seq := s.pithead.aditSeq
    s.pithead.adit = a :: rest ∧
    a.request.node = f.val ∧
    rest = [] ∧
    a.request.op = 0x5 ∧
    a.request.data < 2 ^ 32 ∧
    seq < 16 ∧
    s.time ≤ a.sent + 3000 ∧
    fl.unreachable = false ∧
    3 ≤ a.tries ∧
    a.switched = true ∧
    s.net = []) :=
  ⟨⟨0, 0x12345678, acc0, rf0, [], .ok, (ad [acc0] ready), by decide +kernel⟩,
   ⟨0, 1, acc0, rf0, [], (ad [acc0] ready), by decide +kernel⟩,
   ⟨0, acc0, [], (ad [acc0] ready), by decide +kernel⟩,
   ⟨0, {acc0 with tries := 3}, [], (ad [{acc0 with tries := 3}] (atField ready fun
       f => {f with vcoreOn := false, nodeSet := true, nodeHi := 0, delay := 3, skew := 0x1230})), by decide +kernel⟩,
   ⟨0, {acc0 with tries := 3, switched := true}, [], (ad [{acc0 with tries := 3, switched := true}] (atPithead
       ready fun p => {p with debugUnlocked := true})), by decide +kernel⟩⟩

/-- States that meet the hypotheses of the clauses of ModuleInterface. -/
theorem test_meets_module_interface :
  (∃ (s : State),
    s.pithead.inReset = false ∧
    s.smbusOn = true) ∧
  (∃ (f : FieldNo) (s : State),
    s.pithead.inReset = false ∧
    s.smbusOn = true ∧
    let temp := fun g : Nat => (s.sreg (pageFieldpwr g + 0x04C)).toNat
    temp f.val % 32 < 16 ∧
    (∀ g < 48, g ≠ f.val → 16 ≤ temp g % 32)) ∧
  (∃ (s : State),
    s.pithead.inReset = false ∧
    s.smbusOn = true ∧
    let temp := fun g : Nat => (s.sreg (pageFieldpwr g + 0x04C)).toNat
    (∀ g < 48, 16 ≤ temp g % 32)) ∧
  (∃ (pec : Option Byte) (s : State),
    s.pithead.inReset = false ∧
    s.smbusOn = true ∧
    pec ≠ none ∧
    pec ≠ some (BitVec.ofNat 8 alertAckPec)) ∧
  (∃ (pec : Option Byte) (s : State),
    s.pithead.inReset = false ∧
    s.smbusOn = true ∧
    (pec = none ∨ pec = some (BitVec.ofNat 8 alertAckPec))) ∧
  (∃ (rail : Fin 7) (s : State),
    s.pithead.inReset = false ∧
    s.smbusOn = true ∧
    rail.val < 2) ∧
  (∃ (rail : Fin 7) (s : State),
    s.pithead.inReset = false ∧
    s.smbusOn = true ∧
    let p := s.pithead
    2 ≤ rail.val ∧
    rail.val < 4 ∧
    p.job = none ∧
    (∀ h < 208, (s.hoist h).run = none)) ∧
  (∃ (rail : Fin 7) (s : State),
    s.pithead.inReset = false ∧
    s.smbusOn = true ∧
    let p := s.pithead
    4 ≤ rail.val ∧
    p.job = none) :=
  ⟨⟨(atPithead (temps (fun n => if n = 7 then 0x0123000F else 0x00FF0010) ready) fun p => {p with railFault := 0xFF}),
      by decide +kernel⟩,
   ⟨7, (atPithead (temps (fun n => if n = 7 then 0x0123000F else 0x00FF0010) ready) fun
       p => {p with railFault := 0xFF}), by decide +kernel⟩,
   ⟨(temps (fun n => 0x00FF0010) (ready.setSeam 3 {Seam.reset with state := .up})), by decide +kernel⟩,
   ⟨(some 7), (atPithead ready fun p => {p with railFault := 0xFF}), by decide +kernel⟩,
   ⟨none, (atPithead (temps (fun n => if n = 7 then 0x0123000F else 0x00FF0010) ready) fun
       p => {p with railFault := 0xFF}), by decide +kernel⟩,
   ⟨0, (atPithead (temps (fun n => if n = 7 then 0x0123000F else 0x00FF0010) ready) fun
       p => {p with railFault := 0xFF}), by decide +kernel⟩,
   ⟨2, (temps (fun n => 0x00FF0010) (ready.setSeam 3 {Seam.reset with state := .up})), by decide +kernel⟩,
   ⟨4, (temps (fun n => 0x00FF0010) {ready with stackPorts := (List.range 32).map fun n => (n, n % 4)}),
       by decide +kernel⟩⟩

end Modules

namespace Schedule

/-- A state in which a shift load of slot 3 reads the descriptor at `off`. -/
def loading (off : Nat) : State := atCore ready fun c =>
  { d1.foldl (fun c e => c.setBytes (0x1000 + e.1) [e.2.toNat]) c with shiftLoad := some (3, off) }
/-- 2,048 cases as 32 times 64. -/
theorem cases_2048 (P : Nat → Prop) (h : ∀ i < 32, ∀ j < 64, P (64 * i + j)) : ∀ j < 2048, P j := by
  intro j hj
  have := h (j / 64) (by omega) (j % 64) (by omega)
  rwa [Nat.div_add_mod] at this
/-- A valid and an invalid descriptor under a shift load: the clauses of ShiftsAndRotation on its end. -/
theorem test_meets_shift_load_end (off : Nat) (b : Shift) (v : Bool)
    (h : (off, b, v) = (0x1000, d1, true) ∨ (off, b, v) = (0x2000, [], false)) :
    let s := loading off
    let c := s.core x0
    c.shiftLoad = some (3, off) ∧ s.coreClocked x0 = true ∧ off % 64 = 0 ∧ c.plainAt off 2048 = true ∧
      b.valid (s.closedPort x0) = v ∧ ∀ j < 2048, b.get (fun _ => 0) j = c.byte (off + j) := by
  obtain h | h := h <;> cases h
  · exact ⟨by decide +kernel, by decide +kernel, by decide +kernel, by decide +kernel, by decide +kernel,
      cases_2048 _ (by decide +kernel)⟩
  · exact ⟨by decide +kernel, by decide +kernel, by decide +kernel, by decide +kernel, by decide +kernel,
      cases_2048 _ (by decide +kernel)⟩

end Schedule

namespace Hosts

/-- Loads that end, well and badly: the clauses of Jobs on the end of a load. -/
theorem test_meets_load_end :
    (∃ (sl : Slate) (j : Job) (u s : State), s.loadingSlate = some (j, sl) ∧ u.loadingSlate.isSome = true ∧
      s.loadEnd j sl = some (.ok, u)) ∧
    (∃ (sl : Slate) (j : Job) (st : Status) (u s : State), s.loadingSlate = some (j, sl) ∧ u.loadingSlate.isSome
        = true ∧
      s.loadEnd j sl = some (st, u) ∧ st ≠ .ok) := by
  have ends : ∀ (s : State) (j : Job) (sl : Slate) (st : Status),
      ((s.loadEnd j sl).map fun r => (r.1, r.2.loadingSlate.isSome)) = some (st, true) →
      ∃ u, s.loadEnd j sl = some (st, u) ∧ u.loadingSlate.isSome = true := by
    intro s j sl st h
    match e : s.loadEnd j sl with
    | none => rw [e] at h; cases h
    | some (st', u) =>
      rw [e] at h; simp only [Option.map_some, Option.some.injEq, Prod.mk.injEq] at h
      exact ⟨u, by rw [h.1], h.2⟩
  obtain ⟨u, hu, hl⟩ := ends (ls (shake256 body)) { job0 with running := false } { lslate with image := 0x400 } .ok
    (by decide +kernel)
  obtain ⟨v, hv, hw⟩ := ends (ls (List.replicate 32 0)) { job0 with running := false } { lslate with image := 0x400 }
    .formatInvalid (by decide +kernel)
  exact ⟨⟨_, _, u, _, by decide +kernel, hl, hu⟩, ⟨_, _, _, v, _, by decide +kernel, hw, hv, by decide +kernel⟩⟩

end Hosts

namespace Modules

/-- A read of 128 accesses of 32 bytes that all answer zeros leaves the state as it was. -/
theorem peeks_zero (s : State) (h : ∀ i < 128, (s.peek (32 * i) 32).after = s ∧ (s.peek (32 * i) 32).bytes
    = List.replicate 32 0 ∧
    (s.peek (32 * i) 32).good = 32) :
    ∀ k j fuel, j + k = 128 → k < fuel → s.peeks fuel (32 * j) (32 * k) = (List.replicate (32 * k) (0, .ok), s) := by
  intro k
  induction k with
  | zero => intro j fuel _ hf; cases fuel with
    | zero => omega
    | succ n => simp [State.peeks]
  | succ k ih =>
    intro j fuel hj hf
    cases fuel with
    | zero => omega
    | succ n =>
      obtain ⟨ha, hb, hg⟩ := h j (by omega)
      have e1 : min (32 * (k + 1)) (32 - 32 * j % 32) = 32 := by omega
      have e2 : 32 * j + 32 = 32 * (j + 1) := by omega
      have e3 : 32 * (k + 1) - 32 = 32 * k := by omega
      have e4 : ¬ 32 * (k + 1) = 0 := by omega
      have e5 : ((List.replicate 32 0).zip (List.range 32)).map (fun b : Nat × Nat => (b.1, if b.2 < 32 then Status.ok
          else
          (s.peek (32 * j) 32).status)) = List.replicate 32 (0, Status.ok) := by
        simp [List.range, List.range.loop, List.replicate]
      have e6 : 32 * (k + 1) = 32 + 32 * k := by omega
      rw [State.peeks, if_neg e4]
      simp only [e1, ha, hb, hg, e2, e3, e5]
      rw [ih (j + 1) n (by omega) (by omega), e6, ← List.replicate_append_replicate]
/-- A state with a release in HBM at the address that INSTALL names: the clause on INSTALL of SecurityCommands. -/
theorem test_meets_install : ∃ (p : Port2) (arg : Nat) (rest : List (Nat × Nat × Nat)) (m : List Nat) (s : State),
    let page := pageSecurity p.val
    let n := s.sregBits (page + 0x058) 11 0
    let req := (List.range n).map fun i => (s.sreg (page + 0x200 + i / 4 * 4)).toNat / 2 ^ (8 * (i % 4)) % 256
    let q := s.pithead
    q.mailbox = (p.val, 0x04, arg) :: rest ∧ n = 8 ∧ q.boot ≠ .failed ∧ q.slot < 2 ∧ (s.releaseAt (leNat req)).1
        = some m := by
  have hp : ∀ i < 128, (rel.peek (32 * i) 32).after = rel ∧ (rel.peek (32 * i) 32).bytes = List.replicate 32 0 ∧
      (rel.peek (32 * i) 32).good = 32 := by decide +kernel
  have h : rel.readSpan 0 4096 = (List.replicate 4096 (0, .ok), rel) := peeks_zero rel hp 128 0 130 rfl (by omega)
  have hm : (rel.hbmRange 0 4096) = (some (List.replicate 4096 0), rel) := by
    have hall : ((List.replicate 4096 ((0 : Nat), Status.ok)).all fun b => b.2 == .ok) = true := by
      rw [List.all_eq_true]; intro b hb; rw [List.eq_of_mem_replicate hb]; rfl
    rw [State.hbmRange, h]; simp only [hall, if_true, List.map_replicate]
  have hs : ((imageSpans (List.replicate 4096 0)).map Prod.snd).foldl (· + ·) 0 = 0 := by decide +kernel
  have hr : (rel.releaseAt 0).1 = some (List.replicate 4096 0 ++ []) := by
    rw [State.releaseAt]; simp only [hm, hs]; rfl
  refine ⟨0, 0, rst3, List.replicate 4096 0 ++ [], rel,
      by decide +kernel, by decide +kernel, by decide +kernel, by decide +kernel, ?_⟩
  have e : leNat ((List.range (rel.sregBits (pageSecurity ((0 : Port2)).val + 0x058) 11 0)).map fun i =>
      (rel.sreg (pageSecurity ((0 : Port2)).val + 0x200 + i / 4 * 4)).toNat / 2 ^ (8 * (i % 4)) % 256) = 0 :=
          by decide +kernel
  simp only [e]; exact hr

end Modules

/-- An engine on which no hoist runs: the clause of HoistsAndStacks on a write of the interleave mode. -/
theorem test_meets_interleave : ∃ (w : Requester) (v : Word) (s : State),
    s.pageWriter w = true ∧ s.pithead.boot ≠ .failed ∧ s.pithead.job = none ∧ (∀ k, (s.hoist k).run = none) ∧ bit
        v.toNat 1 = false :=
  ⟨.hostA, 8, ready, by decide +kernel, by decide +kernel, by decide +kernel, fun _ => rfl, by decide +kernel⟩

/-! ## The statements over every command -/

/-- The premises of StepsKeepMemoriesCanonical and of CommandsKeepTheQueue, at reset with an empty queue. -/
theorem test_meets_every_step :
    State.reset.pending = [] ∧ (∃ t, step State.reset = .next t) ∧ State.reset.memoriesWf = true ∧
      (State.reset.core x0).memoryWf = true ∧ (State.reset.field 0).memoryWf = true :=
  ⟨rfl, ⟨_, rfl⟩, by decide +kernel, by decide +kernel, by decide +kernel⟩
/-- A command that completes: a premise of CommandsKeepTheQueue. -/
theorem test_meets_every_command : ∃ t, exec (.nop i0) ready = .next t := ⟨_, rfl⟩
/-- The premise of Issue on MOVI and MOVSH. -/
theorem test_meets_always_execute : Ready i0 [2] ready = true := by decide +kernel
/-- The premises of DecodeOfEncode. -/
theorem test_meets_round_trip : guardOf (.add i0 1 2 3) = some i0 ∧ wellFormed (.add i0 1 2 3) = true :=
    by decide +kernel
/-- A register of a page: the premise of ResetState. -/
theorem test_meets_reset_register : pageAt 0x2E1044 = some (0x11, 30) := by decide +kernel

end Sys2Proof.Tests
end

section
/-! PROOFS. The values of the ALU operations (R181): what the model's result functions compute, each said once. -/

namespace Sys2Proof.Machine

/-! ## Products, minima and maxima -/

theorem mul_eq_ofNat_toNat_mul (x y : DWord) : x * y = BitVec.ofNat 64 (x.toNat * y.toNat) := by
  rw [BitVec.ofNat_mul, BitVec.ofNat_toNat, BitVec.ofNat_toNat, BitVec.setWidth_eq, BitVec.setWidth_eq]

theorem minS_eq_ite (x y : DWord) : minS x y = if y.toInt < x.toInt then y else x := by
  simp only [minS, BitVec.slt_iff_toInt_lt]

theorem maxS_eq_ite (x y : DWord) : maxS x y = if x.toInt < y.toInt then y else x := by
  simp only [maxS, BitVec.slt_iff_toInt_lt]

theorem minU_eq_ite (x y : DWord) : minU x y = if y.toNat < x.toNat then y else x := by
  simp only [minU, BitVec.ult_iff_toNat_lt]

theorem maxU_eq_ite (x y : DWord) : maxU x y = if x.toNat < y.toNat then y else x := by
  simp only [maxU, BitVec.ult_iff_toNat_lt]

/-! ## Division -/

theorem divU_zero (x : DWord) : divU x 0 = BitVec.allOnes 64 := if_pos rfl
theorem divS_zero (x : DWord) : divS x 0 = BitVec.allOnes 64 := if_pos rfl
theorem remU_zero (x : DWord) : remU x 0 = x := if_pos rfl
theorem remS_zero (x : DWord) : remS x 0 = x := if_pos rfl

theorem toNat_divU {x y : DWord} (hy : y ≠ 0) : (divU x y).toNat = x.toNat / y.toNat := by
  have hlt : x.toNat / y.toNat < 2 ^ 64 := Nat.lt_of_le_of_lt (Nat.div_le_self _ _) x.isLt
  rw [divU, if_neg hy, BitVec.toNat_ofNat, Nat.mod_eq_of_lt hlt]

theorem toNat_remU {x y : DWord} (hy : y ≠ 0) : (remU x y).toNat = x.toNat % y.toNat := by
  have hlt : x.toNat % y.toNat < 2 ^ 64 := Nat.lt_of_le_of_lt (Nat.mod_le _ _) x.isLt
  rw [remU, if_neg hy, BitVec.toNat_ofNat, Nat.mod_eq_of_lt hlt]

theorem toNat_pos_of_ne_zero {y : DWord} (hy : y ≠ 0) : 0 < y.toNat :=
  (BitVec.toNat_pos y).mpr ((BitVec.pos_iff_ne_zero y).mpr hy)

/-- For a divisor other than zero the model's signed quotient is the bit-vector one, which rounds toward zero. -/
theorem divS_eq_sdiv {x y : DWord} (hy : y ≠ 0) : divS x y = x.sdiv y := by
  apply BitVec.eq_of_toInt_eq
  rw [divS, if_neg hy, BitVec.toInt_ofInt, BitVec.toInt_sdiv]

theorem toInt_divS {x y : DWord} (hy : y ≠ 0) (hov : ¬(x.toInt = -2 ^ 63 ∧ y.toInt = -1)) :
    (divS x y).toInt = x.toInt.tdiv y.toInt := by
  have hne : x ≠ BitVec.intMin 64 ∨ y ≠ -1#64 := by
    by_cases hx : x = BitVec.intMin 64
    · exact .inr fun hy1 => hov ⟨by rw [hx]; decide, by rw [hy1]; decide⟩
    · exact .inl hx
  rw [divS_eq_sdiv hy, BitVec.toInt_sdiv_of_ne_or_ne _ _ hne]

theorem toInt_remS {x y : DWord} (hy : y ≠ 0) : (remS x y).toInt = x.toInt.tmod y.toInt := by
  have h : remS x y = x.srem y := by
    rw [remS, if_neg hy, ← BitVec.toInt_srem, BitVec.ofInt_toInt]
  rw [h, BitVec.toInt_srem]

/-- A remainder of a truncating division that is not zero has the dividend's sign. -/
theorem tmod_neg_iff {m n : Int} (h : m.tmod n ≠ 0) : m.tmod n < 0 ↔ m < 0 := by
  have hs : (m.tmod n).sign = m.sign := by
    rw [Int.sign_tmod, if_neg fun hd => h (Int.tmod_eq_zero_of_dvd hd)]
  rw [← Int.sign_eq_neg_one_iff_neg, hs, Int.sign_eq_neg_one_iff_neg]

theorem natAbs_tmod_lt {m n : Int} (h : n ≠ 0) : (m.tmod n).natAbs < n.natAbs := by
  rw [Int.natAbs_tmod]
  exact Nat.mod_lt _ (Int.natAbs_pos.mpr h)

/-- −2^63 / −1 wraps to the dividend and leaves no remainder. -/
theorem divS_remS_overflow {x y : DWord} (hx : x.toInt = -2 ^ 63) (hy : y.toInt = -1) :
    divS x y = x ∧ remS x y = 0 := by
  have ex : x = BitVec.ofInt 64 (-2 ^ 63) := by rw [← hx, BitVec.ofInt_toInt]
  have ey : y = BitVec.ofInt 64 (-1) := by rw [← hy, BitVec.ofInt_toInt]
  rw [ex, ey]
  decide

/-! ## Bit counts -/

/-- CLZ counts n leading zeros: bit 63 - n is the highest one bit, and there is none where n is 64. -/
theorem leadingZeros_spec (x : DWord) : ∃ n ≤ 64, leadingZeros x = BitVec.ofNat 64 n ∧
    x.toNat < 2 ^ (64 - n) ∧ (n < 64 → 2 ^ (63 - n) ≤ x.toNat) := by
  by_cases h : x = 0
  · exact ⟨64, Nat.le_refl _, by rw [leadingZeros, if_pos h], by rw [h]; decide,
      fun hn => absurd hn (Nat.lt_irrefl _)⟩
  · have hx : x.toNat ≠ 0 := Nat.ne_of_gt (toNat_pos_of_ne_zero h)
    have hlog : x.toNat.log2 < 64 := (Nat.log2_lt hx).mpr x.isLt
    refine ⟨63 - x.toNat.log2, by omega, by rw [leadingZeros, if_neg h], ?_, fun _ => ?_⟩
    · rw [show 64 - (63 - x.toNat.log2) = x.toNat.log2 + 1 by omega]
      exact Nat.lt_log2_self
    · rw [show 63 - (63 - x.toNat.log2) = x.toNat.log2 by omega]
      exact Nat.log2_self_le hx

theorem length_filter_eq_sum_toNat {α : Type} (p : α → Bool) (l : List α) :
    (l.filter p).length = (l.map fun k => (p k).toNat).sum := by
  induction l with
  | nil => rfl
  | cons k l ih =>
    rw [List.map_cons, List.sum_cons, ← ih]
    cases h : p k with
    | false => rw [List.filter_cons_of_neg (ne_true_of_eq_false h), Bool.toNat_false, Nat.zero_add]
    | true => rw [List.filter_cons_of_pos h, List.length_cons, Bool.toNat_true, Nat.add_comm]

theorem popCount_eq_sum (x : DWord) :
    popCount x = BitVec.ofNat 64 ((List.range 64).map fun k => x.toNat / 2 ^ k % 2).sum := by
  simp only [popCount, length_filter_eq_sum_toNat, BitVec.getLsbD, Nat.toNat_testBit]

/-! ## The shared forms of the scalar instructions -/

variable {i : Iss} {d a b : GReg} {s : State} {v : DWord}

/-- What an ALU operation on two registers leaves, once it is ready: its value in gd, and nothing else. -/
theorem aluRun_writesG (f : DWord → DWord → DWord) (h : Ready i [d.val, a.val, b.val] s = true)
    (hv : f ((s.issuer i).get a.val) ((s.issuer i).get b.val) = v) :
    WritesG i d v (s.issuer i).nextPc s (aluRun i d a b f s) :=
  writesG_of h ⟨_, rfl, hv ▸ Thread.wrote_advance _ _ _⟩

/-- What an ALU operation on one register leaves, once it is ready. -/
theorem unaryRun_writesG (f : DWord → DWord) (h : Ready i [d.val, a.val] s = true)
    (hv : f ((s.issuer i).get a.val) = v) :
    WritesG i d v (s.issuer i).nextPc s (unaryRun i d a f s) :=
  writesG_of h ⟨_, rfl, hv ▸ Thread.wrote_advance _ _ _⟩

/-- Settles O3, from the form all ALU operations share and the value lemmas of this section. -/
theorem aluResults : Obligations.AluResults := by
  unfold Obligations.AluResults
  refine ⟨fun i d a b s h => ?_, fun i d a b s h => ?_, fun i d a s h => ?_⟩
  · exact ⟨aluRun_writesG (· + ·) h rfl, aluRun_writesG (· - ·) h rfl, aluRun_writesG (· &&& ·) h rfl,
      aluRun_writesG (· ||| ·) h rfl, aluRun_writesG (· ^^^ ·) h rfl,
      aluRun_writesG (fun x y => x <<< shiftAmount y) h rfl, aluRun_writesG (fun x y => x >>> shiftAmount y) h rfl,
      aluRun_writesG (fun x y => x.sshiftRight (shiftAmount y)) h rfl,
      aluRun_writesG (· * ·) h (mul_eq_ofNat_toNat_mul _ _), aluRun_writesG mulHigh h rfl,
      aluRun_writesG mulHighU h rfl, aluRun_writesG minS h (minS_eq_ite _ _), aluRun_writesG maxS h (maxS_eq_ite _ _),
      aluRun_writesG minU h (minU_eq_ite _ _), aluRun_writesG maxU h (maxU_eq_ite _ _)⟩
  · intro x y W
    have hdiv {v} (e : divS x y = v) : W v (exec (.div i d a b) s) := aluRun_writesG divS h e
    have hdivu {v} (e : divU x y = v) : W v (exec (.divu i d a b) s) := aluRun_writesG divU h e
    have hrem {v} (e : remS x y = v) : W v (exec (.rem i d a b) s) := aluRun_writesG remS h e
    have hremu {v} (e : remU x y = v) : W v (exec (.remu i d a b) s) := aluRun_writesG remU h e
    refine ⟨fun hy => ?_, fun hy => ?_, fun hy hov => ?_, fun hx hy => ?_⟩
    · exact ⟨hdiv (by rw [hy, divS_zero]), hdivu (by rw [hy, divU_zero]), hrem (by rw [hy, remS_zero]),
        hremu (by rw [hy, remU_zero])⟩
    · refine ⟨_, _, hdivu rfl, hremu rfl, ?_, ?_⟩
      · rw [toNat_divU hy, toNat_remU hy, Nat.div_add_mod']
      · rw [toNat_remU hy]
        exact Nat.mod_lt _ (toNat_pos_of_ne_zero hy)
    · refine ⟨_, _, hdiv rfl, hrem rfl, ?_, ?_⟩
      · rw [toInt_divS hy hov, toInt_remS hy, Int.tdiv_mul_add_tmod]
      · rw [toInt_remS hy]
        exact ⟨natAbs_tmod_lt (BitVec.toInt_ne.mpr hy), tmod_neg_iff⟩
    · obtain ⟨hq, hr⟩ := divS_remS_overflow hx hy
      exact ⟨hdiv hq, hrem hr⟩
  · obtain ⟨n, hn, hclz, hlt, hge⟩ := leadingZeros_spec ((s.issuer i).get a.val)
    exact ⟨⟨n, hn, unaryRun_writesG leadingZeros h hclz, hlt, hge⟩,
      unaryRun_writesG popCount h (popCount_eq_sum _)⟩

end Sys2Proof.Machine
end

section
/-! PROOFS. Branches and jumps (R183, R199): where they go, the link register, and ALIGN. -/

namespace Sys2Proof.Machine

variable {i : Iss} {rs : List Nat} {a : GReg} {s : State} {link : Thread → Thread}

/-- An instruction that stands ready and whose effect is to set the program counter only moves it. -/
theorem movesPc_of {pc : Nat} {run : Thread → State} (h : Ready i rs s = true)
    (hr : run (s.issuer i) = s.setThread i.site i.thread.val { s.issuer i with pc := pc }) :
    MovesPc i pc s (.next (issue i rs s run)) := by
  refine ⟨_, rfl, ?_⟩
  rw [issue_ready h, hr]
  exact ⟨by rw [State.stirs_issuer, State.setThread_issuer, Thread.moved], onlyThread_setThread s _ _ _⟩

/-- A jump to an aligned address goes there, modulo the size of core SRAM. -/
theorem jumpRun_aligned {th : Thread} (ha : (th.get a.val).toNat % 4 = 0) :
    jumpRun i th a link s =
      s.setThread i.site i.thread.val { link th with pc := (th.get a.val).toNat % 0x20000 } :=
  if_neg (not_not_intro ha)

/-- A jump to any other address takes ALIGN at its own program counter, and links nothing. -/
theorem jumpRun_misaligned (ha : ((s.issuer i).get a.val).toNat % 4 ≠ 0) :
    jumpRun i (s.issuer i) a link s = s.takeExc i.site i.thread.val
      ⟨0x02, false, false, .addrRange, BitVec.ofNat 64 ((s.issuer i).get a.val).toNat⟩ (s.issuer i).pc :=
  if_pos ha

/-- Settles O5: a branch moves the program counter, a linking one also writes gd, and a jump does either by its
target's alignment. -/
theorem branchesAndJumps : Obligations.BranchesAndJumps := by
  unfold Obligations.BranchesAndJumps
  refine ⟨fun i d a off off17 s => ⟨fun h => ?br, fun h => ?brl, fun h ha => ?jr, fun h ha => ?jrl⟩,
    fun i d a s => ?align⟩
  case br => exact movesPc_of h rfl
  case brl => exact writesG_of h ⟨_, rfl, Thread.wrote_put _ _ _ _⟩
  case jr => exact movesPc_of h (jumpRun_aligned ha)
  case jrl => exact writesG_of h ⟨_, jumpRun_aligned ha, Thread.wrote_put _ _ _ _⟩
  case align =>
    intro target e ha
    have halign (link) : jumpRun i (s.issuer i) a link s = s.takeExc i.site i.thread.val e (s.issuer i).pc :=
      jumpRun_misaligned ha
    exact ⟨fun h => congrArg Host.Outcome.next (by rw [issue_ready h, halign]),
      fun h => congrArg Host.Outcome.next (by rw [issue_ready h, halign])⟩

end Sys2Proof.Machine
end
